-- ==== Sys2Proof/Word.lean ====
section
/-! DEFINITION. The word types of the Cortomas CX-640 and the type of sparse maps
(R8, R15, R28). Operations on sparse maps stand in Machine/SMap.lean. -/

namespace Sys2Proof

/-- A 64-bit register value: vector, scalar and special registers (R15). -/
abbrev Word := BitVec 64

/-- One byte of memory (R8). -/
abbrev Byte := BitVec 8

/-- A sparse map from numbers: the entries that differ from a default that each use names,
in rising key order. Equal maps in that form are equal data. -/
abbrev SMap (β : Type) := List (Nat × β)

end Sys2Proof
end

