-- ==== Sys2Proof/Syntax.lean ====
section
/-! DEFINITION. The instructions and events of the Cortomas CX-640: one constructor for each row of
spec/opcode_table.json, those with operands
first. 154 are lane instructions (R67 to R84), 101 sequencer instructions (R85 to R92) and 90 the events of
the part (spec/95), which have no encoding; an event's operands stand beside it in the schedule (State.lean).
Fields bear the table's names; a field's width is its width in the encoding. -/

namespace Sys2Proof

/-- One instruction or event of the part. -/
inductive Instr where
  /-- ADD (R182). -/
  | add (r : BitVec 1) (u : BitVec 1) (t : BitVec 3) (b : BitVec 6) (a : BitVec 6) (d : BitVec 6)
  /-- SUB (R182). -/
  | sub (r : BitVec 1) (u : BitVec 1) (t : BitVec 3) (b : BitVec 6) (a : BitVec 6) (d : BitVec 6)
  /-- MUL (R182). -/
  | mul (r : BitVec 1) (u : BitVec 1) (t : BitVec 3) (b : BitVec 6) (a : BitVec 6) (d : BitVec 6)
  /-- MULH (R182). -/
  | mulh (r : BitVec 1) (u : BitVec 1) (t : BitVec 3) (b : BitVec 6) (a : BitVec 6) (d : BitVec 6)
  /-- MIN (R182). -/
  | min (r : BitVec 1) (u : BitVec 1) (t : BitVec 3) (b : BitVec 6) (a : BitVec 6) (d : BitVec 6)
  /-- MAX (R182). -/
  | max (r : BitVec 1) (u : BitVec 1) (t : BitVec 3) (b : BitVec 6) (a : BitVec 6) (d : BitVec 6)
  /-- ADDS (R182). -/
  | adds (r : BitVec 1) (u : BitVec 1) (t : BitVec 3) (b : BitVec 6) (a : BitVec 6) (d : BitVec 6)
  /-- SUBS (R182). -/
  | subs (r : BitVec 1) (u : BitVec 1) (t : BitVec 3) (b : BitVec 6) (a : BitVec 6) (d : BitVec 6)
  /-- AND (R183). -/
  | and (r : BitVec 1) (u : BitVec 1) (b : BitVec 6) (a : BitVec 6) (d : BitVec 6)
  /-- OR (R183). -/
  | or (r : BitVec 1) (u : BitVec 1) (b : BitVec 6) (a : BitVec 6) (d : BitVec 6)
  /-- XOR (R183). -/
  | xor (r : BitVec 1) (u : BitVec 1) (b : BitVec 6) (a : BitVec 6) (d : BitVec 6)
  /-- ANDN (R183). -/
  | andn (r : BitVec 1) (u : BitVec 1) (b : BitVec 6) (a : BitVec 6) (d : BitVec 6)
  /-- SHL (R182). -/
  | shl (r : BitVec 1) (u : BitVec 1) (t : BitVec 3) (b : BitVec 6) (a : BitVec 6) (d : BitVec 6)
  /-- SHR (R182). -/
  | shr (r : BitVec 1) (u : BitVec 1) (t : BitVec 3) (b : BitVec 6) (a : BitVec 6) (d : BitVec 6)
  /-- SHRA (R182). -/
  | shra (r : BitVec 1) (u : BitVec 1) (t : BitVec 3) (b : BitVec 6) (a : BitVec 6) (d : BitVec 6)
  /-- ROL (R182). -/
  | rol (r : BitVec 1) (u : BitVec 1) (t : BitVec 3) (b : BitVec 6) (a : BitVec 6) (d : BitVec 6)
  /-- SEL (R183). -/
  | sel (r : BitVec 1) (u : BitVec 1) (p : BitVec 3) (b : BitVec 6) (a : BitVec 6) (d : BitVec 6)
  /-- DIV (R182). -/
  | div (r : BitVec 1) (u : BitVec 1) (t : BitVec 3) (b : BitVec 6) (a : BitVec 6) (d : BitVec 6)
  /-- REM (R182). -/
  | rem (r : BitVec 1) (u : BitVec 1) (t : BitVec 3) (b : BitVec 6) (a : BitVec 6) (d : BitVec 6)
  /-- CLZ (R182). -/
  | clz (r : BitVec 1) (u : BitVec 1) (t : BitVec 3) (a : BitVec 6) (d : BitVec 6)
  /-- POPC (R182). -/
  | popc (r : BitVec 1) (u : BitVec 1) (t : BitVec 3) (a : BitVec 6) (d : BitVec 6)
  /-- BREV (R182). -/
  | brev (r : BitVec 1) (u : BitVec 1) (t : BitVec 3) (a : BitVec 6) (d : BitVec 6)
  /-- ABS (R182). -/
  | abs (r : BitVec 1) (u : BitVec 1) (t : BitVec 2) (a : BitVec 6) (d : BitVec 6)
  /-- ABSD (R182). -/
  | absd (r : BitVec 1) (u : BitVec 1) (t : BitVec 3) (b : BitVec 6) (a : BitVec 6) (d : BitVec 6)
  /-- CMP (R184). -/
  | cmp (r : BitVec 1) (u : BitVec 1) (t : BitVec 3) (b : BitVec 6) (a : BitVec 6) (c : BitVec 3) (p : BitVec 3)
  /-- ADDI (R185). -/
  | addi (w : BitVec 2) (i : BitVec 12) (a : BitVec 6) (d : BitVec 6)
  /-- LOGI_AND (R185). -/
  | logiAnd (i : BitVec 12) (a : BitVec 6) (d : BitVec 6)
  /-- LOGI_OR (R185). -/
  | logiOr (i : BitVec 12) (a : BitVec 6) (d : BitVec 6)
  /-- LOGI_XOR (R185). -/
  | logiXor (i : BitVec 12) (a : BitVec 6) (d : BitVec 6)
  /-- LOGI_ANDN (R185). -/
  | logiAndn (i : BitVec 12) (a : BitVec 6) (d : BitVec 6)
  /-- SHFI_SHL (R185). -/
  | shfiShl (w : BitVec 2) (n : BitVec 6) (a : BitVec 6) (d : BitVec 6)
  /-- SHFI_SHR (R185). -/
  | shfiShr (w : BitVec 2) (n : BitVec 6) (a : BitVec 6) (d : BitVec 6)
  /-- SHFI_SHRA (R185). -/
  | shfiShra (w : BitVec 2) (n : BitVec 6) (a : BitVec 6) (d : BitVec 6)
  /-- SHFI_ROL (R185). -/
  | shfiRol (w : BitVec 2) (n : BitVec 6) (a : BitVec 6) (d : BitVec 6)
  /-- CMPI (R185). -/
  | cmpi (w : BitVec 2) (i : BitVec 12) (a : BitVec 6) (c : BitVec 3) (p : BitVec 3)
  /-- FAH_ADD (R187). -/
  | fahAdd (r : BitVec 1) (u : BitVec 1) (s : BitVec 1) (m : BitVec 2) (b : BitVec 6) (a : BitVec 6) (d : BitVec 6)
  /-- FAH_SUB (R187). -/
  | fahSub (r : BitVec 1) (u : BitVec 1) (s : BitVec 1) (m : BitVec 2) (b : BitVec 6) (a : BitVec 6) (d : BitVec 6)
  /-- FAH_MUL (R187). -/
  | fahMul (r : BitVec 1) (u : BitVec 1) (s : BitVec 1) (m : BitVec 2) (b : BitVec 6) (a : BitVec 6) (d : BitVec 6)
  /-- FAH_DIV (R187). -/
  | fahDiv (r : BitVec 1) (u : BitVec 1) (s : BitVec 1) (m : BitVec 2) (b : BitVec 6) (a : BitVec 6) (d : BitVec 6)
  /-- FAH_MIN (R187). -/
  | fahMin (r : BitVec 1) (u : BitVec 1) (s : BitVec 1) (b : BitVec 6) (a : BitVec 6) (d : BitVec 6)
  /-- FAH_MAX (R187). -/
  | fahMax (r : BitVec 1) (u : BitVec 1) (s : BitVec 1) (b : BitVec 6) (a : BitVec 6) (d : BitVec 6)
  /-- FAH_SQRT (R187). -/
  | fahSqrt (r : BitVec 1) (u : BitVec 1) (s : BitVec 1) (m : BitVec 2) (a : BitVec 6) (d : BitVec 6)
  /-- FAH_CPSGN (R187). -/
  | fahCpsgn (r : BitVec 1) (u : BitVec 1) (s : BitVec 1) (b : BitVec 6) (a : BitVec 6) (d : BitVec 6)
  /-- FAW_ADD (R187). -/
  | fawAdd (r : BitVec 1) (u : BitVec 1) (s : BitVec 1) (m : BitVec 2) (b : BitVec 6) (a : BitVec 6) (d : BitVec 6)
  /-- FAW_SUB (R187). -/
  | fawSub (r : BitVec 1) (u : BitVec 1) (s : BitVec 1) (m : BitVec 2) (b : BitVec 6) (a : BitVec 6) (d : BitVec 6)
  /-- FAW_MUL (R187). -/
  | fawMul (r : BitVec 1) (u : BitVec 1) (s : BitVec 1) (m : BitVec 2) (b : BitVec 6) (a : BitVec 6) (d : BitVec 6)
  /-- FAW_DIV (R187). -/
  | fawDiv (r : BitVec 1) (u : BitVec 1) (s : BitVec 1) (m : BitVec 2) (b : BitVec 6) (a : BitVec 6) (d : BitVec 6)
  /-- FAW_MIN (R187). -/
  | fawMin (r : BitVec 1) (u : BitVec 1) (s : BitVec 1) (b : BitVec 6) (a : BitVec 6) (d : BitVec 6)
  /-- FAW_MAX (R187). -/
  | fawMax (r : BitVec 1) (u : BitVec 1) (s : BitVec 1) (b : BitVec 6) (a : BitVec 6) (d : BitVec 6)
  /-- FAW_SQRT (R187). -/
  | fawSqrt (r : BitVec 1) (u : BitVec 1) (s : BitVec 1) (m : BitVec 2) (a : BitVec 6) (d : BitVec 6)
  /-- FAW_CPSGN (R187). -/
  | fawCpsgn (r : BitVec 1) (u : BitVec 1) (s : BitVec 1) (b : BitVec 6) (a : BitVec 6) (d : BitVec 6)
  /-- RCP (R189). -/
  | rcp (r : BitVec 1) (u : BitVec 1) (t : BitVec 2) (a : BitVec 6) (d : BitVec 6)
  /-- RSQ (R189). -/
  | rsq (r : BitVec 1) (u : BitVec 1) (t : BitVec 2) (a : BitVec 6) (d : BitVec 6)
  /-- EXP2 (R189). -/
  | exp2 (r : BitVec 1) (u : BitVec 1) (t : BitVec 2) (a : BitVec 6) (d : BitVec 6)
  /-- LOG2 (R189). -/
  | log2 (r : BitVec 1) (u : BitVec 1) (t : BitVec 2) (a : BitVec 6) (d : BitVec 6)
  /-- SIN (R189). -/
  | sin (r : BitVec 1) (u : BitVec 1) (t : BitVec 2) (a : BitVec 6) (d : BitVec 6)
  /-- COS (R189). -/
  | cos (r : BitVec 1) (u : BitVec 1) (t : BitVec 2) (a : BitVec 6) (d : BitVec 6)
  /-- TANH (R189). -/
  | tanh (r : BitVec 1) (u : BitVec 1) (t : BitVec 2) (a : BitVec 6) (d : BitVec 6)
  /-- FSPEC_CMP (R190). -/
  | fspecCmp (r : BitVec 1) (u : BitVec 1) (t : BitVec 2) (b : BitVec 6) (a : BitVec 6) (c : BitVec 3) (p : BitVec 3)
  /-- FMA (R188). -/
  | fma (m : BitVec 2) (s : BitVec 1) (c : BitVec 5) (b : BitVec 6) (a : BitVec 6) (d : BitVec 6)
  /-- CVT (R191). -/
  | cvt (r : BitVec 1) (u : BitVec 1) (t : BitVec 3) (e : BitVec 1) (m : BitVec 2) (s : BitVec 4) (a : BitVec 6) (d : BitVec 6)
  /-- CVTS (R191). -/
  | cvts (r : BitVec 1) (u : BitVec 1) (t : BitVec 3) (s : BitVec 4) (a : BitVec 6) (d : BitVec 6)
  /-- CVTW (R191). -/
  | cvtw (r : BitVec 1) (u : BitVec 1) (t : BitVec 3) (s : BitVec 4) (a : BitVec 6) (d : BitVec 6)
  /-- NPK (R192). -/
  | npk (r : BitVec 1) (u : BitVec 1) (s : BitVec 1) (m : BitVec 2) (f : BitVec 5) (a : BitVec 6) (d : BitVec 6)
  /-- NUNP (R192). -/
  | nunp (r : BitVec 1) (u : BitVec 1) (s : BitVec 1) (f : BitVec 5) (a : BitVec 6) (d : BitVec 6)
  /-- QNT (R192). -/
  | qnt (r : BitVec 1) (u : BitVec 1) (s : BitVec 1) (b : BitVec 6) (a : BitVec 6) (d : BitVec 6)
  /-- DQNT (R192). -/
  | dqnt (r : BitVec 1) (u : BitVec 1) (s : BitVec 1) (m : BitVec 2) (b : BitVec 6) (a : BitVec 6) (d : BitVec 6)
  /-- TOE8 (R192). -/
  | toe8 (r : BitVec 1) (u : BitVec 1) (s : BitVec 1) (a : BitVec 6) (d : BitVec 6)
  /-- FRE8 (R192). -/
  | fre8 (r : BitVec 1) (u : BitVec 1) (s : BitVec 1) (m : BitVec 2) (a : BitVec 6) (d : BitVec 6)
  /-- SHFL (R194). -/
  | shfl (r : BitVec 1) (u : BitVec 1) (w : BitVec 2) (b : BitVec 6) (a : BitVec 6) (d : BitVec 6)
  /-- SHFLX (R194). -/
  | shflx (r : BitVec 1) (u : BitVec 1) (w : BitVec 2) (b : BitVec 6) (a : BitVec 6) (d : BitVec 6)
  /-- SHFLU (R194). -/
  | shflu (r : BitVec 1) (u : BitVec 1) (w : BitVec 2) (b : BitVec 6) (a : BitVec 6) (d : BitVec 6)
  /-- SHFLD (R194). -/
  | shfld (r : BitVec 1) (u : BitVec 1) (w : BitVec 2) (b : BitVec 6) (a : BitVec 6) (d : BitVec 6)
  /-- VOTE_ANY (R195). -/
  | voteAny (r : BitVec 1) (u : BitVec 1) (s : BitVec 3) (p : BitVec 3)
  /-- VOTE_ALL (R195). -/
  | voteAll (r : BitVec 1) (u : BitVec 1) (s : BitVec 3) (p : BitVec 3)
  /-- VOTE_BALLOT (R195). -/
  | voteBallot (r : BitVec 1) (u : BitVec 1) (s : BitVec 3) (d : BitVec 6)
  /-- MATCH (R196). -/
  | matchLanes (r : BitVec 1) (u : BitVec 1) (w : BitVec 2) (b : BitVec 6) (a : BitVec 6) (d : BitVec 6)
  /-- RDC (R197). -/
  | rdc (r : BitVec 1) (u : BitVec 1) (o : BitVec 3) (t : BitVec 4) (a : BitVec 6) (d : BitVec 6)
  /-- SCAN (R197). -/
  | scan (r : BitVec 1) (u : BitVec 1) (o : BitVec 3) (t : BitVec 4) (a : BitVec 6) (d : BitVec 6)
  /-- XI_SHFL (R194). -/
  | xiShfl (w : BitVec 2) (l : BitVec 6) (s : BitVec 3) (a : BitVec 6) (d : BitVec 6)
  /-- XI_SHFLX (R194). -/
  | xiShflx (w : BitVec 2) (l : BitVec 6) (a : BitVec 6) (d : BitVec 6)
  /-- XI_SHFLU (R194). -/
  | xiShflu (w : BitVec 2) (l : BitVec 6) (a : BitVec 6) (d : BitVec 6)
  /-- XI_SHFLD (R194). -/
  | xiShfld (w : BitVec 2) (l : BitVec 6) (a : BitVec 6) (d : BitVec 6)
  /-- LU (R79). -/
  | lu (i : BitVec 20) (d : BitVec 6)
  /-- ATOM (R208). -/
  | atom (r : BitVec 1) (u : BitVec 1) (t : BitVec 3) (o : BitVec 3) (b : BitVec 6) (a : BitVec 6) (d : BitVec 6)
  /-- RED_D (R210). -/
  | redD (r : BitVec 1) (u : BitVec 1) (t : BitVec 3) (o : BitVec 3) (b : BitVec 6) (a : BitVec 6)
  /-- LD8 (R206). -/
  | ld8 (h : BitVec 2) (o : BitVec 12) (b : BitVec 6) (d : BitVec 6)
  /-- LD16 (R206). -/
  | ld16 (h : BitVec 2) (o : BitVec 12) (b : BitVec 6) (d : BitVec 6)
  /-- LD32 (R206). -/
  | ld32 (h : BitVec 2) (o : BitVec 12) (b : BitVec 6) (d : BitVec 6)
  /-- LD64 (R206). -/
  | ld64 (h : BitVec 2) (o : BitVec 12) (b : BitVec 6) (d : BitVec 6)
  /-- LDV_128 (R206). -/
  | ldv128 (h : BitVec 2) (o : BitVec 12) (b : BitVec 6) (d : BitVec 5)
  /-- LDV_256 (R206). -/
  | ldv256 (h : BitVec 2) (o : BitVec 12) (b : BitVec 6) (d : BitVec 4)
  /-- LDV_512 (R206). -/
  | ldv512 (h : BitVec 2) (o : BitVec 12) (b : BitVec 6) (d : BitVec 3)
  /-- ST8 (R206). -/
  | st8 (h : BitVec 2) (o : BitVec 12) (b : BitVec 6) (d : BitVec 6)
  /-- ST16 (R206). -/
  | st16 (h : BitVec 2) (o : BitVec 12) (b : BitVec 6) (d : BitVec 6)
  /-- ST32 (R206). -/
  | st32 (h : BitVec 2) (o : BitVec 12) (b : BitVec 6) (d : BitVec 6)
  /-- ST64 (R206). -/
  | st64 (h : BitVec 2) (o : BitVec 12) (b : BitVec 6) (d : BitVec 6)
  /-- STV_128 (R206). -/
  | stv128 (h : BitVec 2) (o : BitVec 12) (b : BitVec 6) (d : BitVec 5)
  /-- STV_256 (R206). -/
  | stv256 (h : BitVec 2) (o : BitVec 12) (b : BitVec 6) (d : BitVec 4)
  /-- STV_512 (R206). -/
  | stv512 (h : BitVec 2) (o : BitVec 12) (b : BitVec 6) (d : BitVec 3)
  /-- MOVS (R223). -/
  | movs (s : BitVec 12) (d : BitVec 6)
  /-- SETS_STKLIM (R169). -/
  | setsStklim (a : BitVec 6)
  /-- SETS_LEPC (R172). -/
  | setsLepc (a : BitVec 6)
  /-- SETS_LFLAGS (R180). -/
  | setsLflags (a : BitVec 6)
  /-- SETS_BMODE (R246). -/
  | setsBmode (a : BitVec 6)
  /-- TRAP (R170). -/
  | trap (n : BitVec 6)
  /-- JMPR (R168). -/
  | jmpr (a : BitVec 6)
  /-- RET (R168). -/
  | ret (a : BitVec 6)
  /-- ENTER (R169). -/
  | enter (n : BitVec 6)
  /-- LEAVE (R169). -/
  | leave (n : BitVec 6)
  /-- PPACK (R170). -/
  | ppack (d : BitVec 6)
  /-- PUNPK (R170). -/
  | punpk (a : BitVec 6)
  /-- PFI (R129). -/
  | pfi (o : BitVec 6)
  /-- PRF_L1 (R221). -/
  | prfL1 (a : BitVec 6)
  /-- PRF_MSC (R221). -/
  | prfMsc (a : BitVec 6)
  /-- STP (R215). -/
  | stp (f : BitVec 5) (a : BitVec 6) (d : BitVec 6)
  /-- PUSH_CE (R217). -/
  | pushCe (p : BitVec 3) (d : BitVec 6)
  /-- PUSH_XE (R217). -/
  | pushXe (p : BitVec 3) (d : BitVec 6)
  /-- PUSH_PG (R217). -/
  | pushPg (p : BitVec 3) (d : BitVec 6)
  /-- BARA (R307). -/
  | bara (b : BitVec 4)
  /-- BARW (R308). -/
  | barw (b : BitVec 4)
  /-- BARAW (R307). -/
  | baraw (b : BitVec 4)
  /-- VGET (R173). -/
  | vget (n : BitVec 3) (d : BitVec 6)
  /-- VPUT (R173). -/
  | vput (n : BitVec 3) (a : BitVec 6)
  /-- BRA (R167). -/
  | bra (o : BitVec 22)
  /-- BRC (R167). -/
  | brc (o : BitVec 22) (p : BitVec 3)
  /-- BRC_F (R167). -/
  | brcF (o : BitVec 22) (p : BitVec 3)
  /-- CALL (R167). -/
  | call (o : BitVec 22)
  /-- QRN (R341). -/
  | qrn (r : BitVec 1) (u : BitVec 1) (b : BitVec 6) (a : BitVec 6) (d : BitVec 6)
  /-- QRNF (R341). -/
  | qrnf (r : BitVec 1) (u : BitVec 1) (b : BitVec 6) (a : BitVec 6) (d : BitVec 6)
  /-- QRSEED (R341). -/
  | qrseed (r : BitVec 1) (u : BitVec 1) (b : BitVec 6) (a : BitVec 6) (d : BitVec 6)
  /-- LC_MOV (R186). -/
  | lcMov (b : BitVec 5) (d : BitVec 6)
  /-- LC_ADD_I32 (R186). -/
  | lcAddI32 (b : BitVec 5) (d : BitVec 6)
  /-- LC_SUB_I32 (R186). -/
  | lcSubI32 (b : BitVec 5) (d : BitVec 6)
  /-- LC_AND (R186). -/
  | lcAnd (b : BitVec 5) (d : BitVec 6)
  /-- LC_OR (R186). -/
  | lcOr (b : BitVec 5) (d : BitVec 6)
  /-- LC_XOR (R186). -/
  | lcXor (b : BitVec 5) (d : BitVec 6)
  /-- LC_SHL_I32 (R186). -/
  | lcShlI32 (b : BitVec 5) (d : BitVec 6)
  /-- LC_SHR_N32 (R186). -/
  | lcShrN32 (b : BitVec 5) (d : BitVec 6)
  /-- LC_SHRA_I32 (R186). -/
  | lcShraI32 (b : BitVec 5) (d : BitVec 6)
  /-- LC_ADD_F32 (R186). -/
  | lcAddF32 (b : BitVec 5) (d : BitVec 6)
  /-- LC_SUB_F32 (R186). -/
  | lcSubF32 (b : BitVec 5) (d : BitVec 6)
  /-- LC_MUL_F32 (R186). -/
  | lcMulF32 (b : BitVec 5) (d : BitVec 6)
  /-- LC_MIN_F32 (R186). -/
  | lcMinF32 (b : BitVec 5) (d : BitVec 6)
  /-- LC_MAX_F32 (R186). -/
  | lcMaxF32 (b : BitVec 5) (d : BitVec 6)
  /-- LC_ADD_I64 (R186). -/
  | lcAddI64 (b : BitVec 5) (d : BitVec 6)
  /-- LC_NEG_F32 (R186). -/
  | lcNegF32 (b : BitVec 5) (d : BitVec 6)
  /-- SALU_ADD (R147). -/
  | saluAdd (b : BitVec 5) (a : BitVec 5) (d : BitVec 5)
  /-- SALU_SUB (R147). -/
  | saluSub (b : BitVec 5) (a : BitVec 5) (d : BitVec 5)
  /-- SALU_AND (R147). -/
  | saluAnd (b : BitVec 5) (a : BitVec 5) (d : BitVec 5)
  /-- SALU_OR (R147). -/
  | saluOr (b : BitVec 5) (a : BitVec 5) (d : BitVec 5)
  /-- SALU_XOR (R147). -/
  | saluXor (b : BitVec 5) (a : BitVec 5) (d : BitVec 5)
  /-- SALU_SHL (R147). -/
  | saluShl (b : BitVec 5) (a : BitVec 5) (d : BitVec 5)
  /-- SALU_SHR (R147). -/
  | saluShr (b : BitVec 5) (a : BitVec 5) (d : BitVec 5)
  /-- SALU_SHRA (R147). -/
  | saluShra (b : BitVec 5) (a : BitVec 5) (d : BitVec 5)
  /-- SMUL_MUL (R147). -/
  | smulMul (b : BitVec 5) (a : BitVec 5) (d : BitVec 5)
  /-- SMUL_MULHS (R147). -/
  | smulMulhs (b : BitVec 5) (a : BitVec 5) (d : BitVec 5)
  /-- SMUL_MULHU (R147). -/
  | smulMulhu (b : BitVec 5) (a : BitVec 5) (d : BitVec 5)
  /-- SMUL_DIV (R147). -/
  | smulDiv (b : BitVec 5) (a : BitVec 5) (d : BitVec 5)
  /-- SMUL_DIVU (R147). -/
  | smulDivu (b : BitVec 5) (a : BitVec 5) (d : BitVec 5)
  /-- SMUL_REM (R147). -/
  | smulRem (b : BitVec 5) (a : BitVec 5) (d : BitVec 5)
  /-- SMUL_REMU (R147). -/
  | smulRemu (b : BitVec 5) (a : BitVec 5) (d : BitVec 5)
  /-- SCMP_MIN (R147). -/
  | scmpMin (b : BitVec 5) (a : BitVec 5) (d : BitVec 5)
  /-- SCMP_MAX (R147). -/
  | scmpMax (b : BitVec 5) (a : BitVec 5) (d : BitVec 5)
  /-- SCMP_MINU (R147). -/
  | scmpMinu (b : BitVec 5) (a : BitVec 5) (d : BitVec 5)
  /-- SCMP_MAXU (R147). -/
  | scmpMaxu (b : BitVec 5) (a : BitVec 5) (d : BitVec 5)
  /-- SCMP_SLT (R147). -/
  | scmpSlt (b : BitVec 5) (a : BitVec 5) (d : BitVec 5)
  /-- SCMP_SLTU (R147). -/
  | scmpSltu (b : BitVec 5) (a : BitVec 5) (d : BitVec 5)
  /-- SCMP_SEQ (R147). -/
  | scmpSeq (b : BitVec 5) (a : BitVec 5) (d : BitVec 5)
  /-- SLD (R148). -/
  | sld (i : BitVec 8) (f : BitVec 3) (a : BitVec 5) (d : BitVec 5)
  /-- SST (R148). -/
  | sst (i : BitVec 8) (w : BitVec 2) (b : BitVec 5) (a : BitVec 5)
  /-- SI_ADD (R147). -/
  | siAdd (i : BitVec 16) (a : BitVec 5) (d : BitVec 5)
  /-- SI_AND (R147). -/
  | siAnd (i : BitVec 16) (a : BitVec 5) (d : BitVec 5)
  /-- SI_OR (R147). -/
  | siOr (i : BitVec 16) (a : BitVec 5) (d : BitVec 5)
  /-- SI_XOR (R147). -/
  | siXor (i : BitVec 16) (a : BitVec 5) (d : BitVec 5)
  /-- SHIFT_SHL (R147). -/
  | shiftShl (n : BitVec 6) (a : BitVec 5) (d : BitVec 5)
  /-- SHIFT_SHR (R147). -/
  | shiftShr (n : BitVec 6) (a : BitVec 5) (d : BitVec 5)
  /-- SHIFT_SHRA (R147). -/
  | shiftShra (n : BitVec 6) (a : BitVec 5) (d : BitVec 5)
  /-- SHIFT_ROL (R147). -/
  | shiftRol (n : BitVec 6) (a : BitVec 5) (d : BitVec 5)
  /-- ADDHI (R147). -/
  | addhi (i : BitVec 16) (a : BitVec 5) (d : BitVec 5)
  /-- BZ (R149). -/
  | bz (i : BitVec 16) (a : BitVec 5)
  /-- BNZ (R149). -/
  | bnz (i : BitVec 16) (a : BitVec 5)
  /-- BLTZ (R149). -/
  | bltz (i : BitVec 16) (a : BitVec 5)
  /-- BGEZ (R149). -/
  | bgez (i : BitVec 16) (a : BitVec 5)
  /-- BGTZ (R149). -/
  | bgtz (i : BitVec 16) (a : BitVec 5)
  /-- BLEZ (R149). -/
  | blez (i : BitVec 16) (a : BitVec 5)
  /-- JMP (R149). -/
  | jmp (o : BitVec 22)
  /-- JUMP_CALL (R149). -/
  | jumpCall (o : BitVec 22)
  /-- SCTL_JMPR (R149). -/
  | sctlJmpr (a : BitVec 5)
  /-- SCTL_MOVS (R105). -/
  | sctlMovs (s : BitVec 8) (d : BitVec 5)
  /-- MOVS_TFLAGSC (R281). -/
  | movsTflagsc (d : BitVec 5)
  /-- SCTL_TRAP (R150). -/
  | sctlTrap (n : BitVec 8)
  /-- SCTL_TRET (R151). -/
  | sctlTret (a : BitVec 5)
  /-- LOOP (R153). -/
  | loop (n : BitVec 5) (b : BitVec 5) (a : BitVec 5)
  /-- BARI (R306). -/
  | bari (c : BitVec 11) (b : BitVec 4)
  /-- BAR_BARA (R307). -/
  | barBara (f : BitVec 1) (b : BitVec 4)
  /-- BAR_BARW (R308). -/
  | barBarw (f : BitVec 1) (b : BitVec 4)
  /-- BAR_BARAW (R307). -/
  | barBaraw (f : BitVec 1) (b : BitVec 4)
  /-- SX_PUSH_CE (R152). -/
  | sxPushCe (f : BitVec 3) (d : BitVec 5)
  /-- SX_PUSH_XE (R152). -/
  | sxPushXe (f : BitVec 3) (d : BitVec 5)
  /-- SX_PUSH_PG (R152). -/
  | sxPushPg (f : BitVec 3) (d : BitVec 5)
  /-- TMUL (R291). -/
  | tmul (c : BitVec 2) (m : BitVec 5) (b : BitVec 4) (a : BitVec 4) (d : BitVec 4)
  /-- TMAC (R291). -/
  | tmac (c : BitVec 2) (m : BitVec 5) (x : BitVec 4) (b : BitVec 4) (a : BitVec 4) (d : BitVec 4)
  /-- TCMUL (R291). -/
  | tcmul (c : BitVec 2) (m : BitVec 5) (b : BitVec 4) (a : BitVec 4) (d : BitVec 4)
  /-- TCMUL_ADDEND (R291). -/
  | tcmulAddend (c : BitVec 2) (m : BitVec 5) (x : BitVec 4) (b : BitVec 4) (a : BitVec 4) (d : BitVec 4)
  /-- TBP (R292). -/
  | tbp (c : BitVec 2) (m : BitVec 5) (b : BitVec 4) (a : BitVec 4) (d : BitVec 4)
  /-- TSCA (R293). -/
  | tsca (c : BitVec 2) (m : BitVec 5) (x : BitVec 4) (b : BitVec 4) (a : BitVec 4) (d : BitVec 4)
  /-- TADD (R294). -/
  | tadd (c : BitVec 2) (m : BitVec 5) (b : BitVec 4) (a : BitVec 4) (d : BitVec 4)
  /-- TSUB (R294). -/
  | tsub (c : BitVec 2) (m : BitVec 5) (b : BitVec 4) (a : BitVec 4) (d : BitVec 4)
  /-- TTR (R295). -/
  | ttr (c : BitVec 2) (m : BitVec 5) (a : BitVec 4) (d : BitVec 4)
  /-- THAD (R294). -/
  | thad (c : BitVec 2) (m : BitVec 5) (b : BitVec 4) (a : BitVec 4) (d : BitVec 4)
  /-- TCVT (R296). -/
  | tcvt (m : BitVec 5) (a : BitVec 4) (d : BitVec 4)
  /-- TFORCE (R300). -/
  | tforce (a : BitVec 4)
  /-- TDROP (R300). -/
  | tdrop (d : BitVec 4)
  /-- TLD (R289). -/
  | tld (m : BitVec 5) (b : BitVec 4) (a : BitVec 4) (d : BitVec 4)
  /-- TST (R297). -/
  | tst (m : BitVec 5) (b : BitVec 4) (a : BitVec 4) (d : BitVec 4)
  /-- ACQ (R259). -/
  | acq (n : BitVec 4) (a : BitVec 4)
  /-- REL (R259). -/
  | rel (a : BitVec 4)
  /-- TSTAT (R301). -/
  | tstat (a : BitVec 4) (d : BitVec 4)
  /-- TZERO (R290). -/
  | tzero (m : BitVec 5) (b : BitVec 4) (d : BitVec 4)
  /-- TFILL (R290). -/
  | tfill (m : BitVec 5) (b : BitVec 4) (a : BitVec 4) (d : BitVec 4)
  /-- VIEW (R368). -/
  | view (a : BitVec 5) (d : BitVec 5)
  /-- JOIN (R368). -/
  | join (a : BitVec 5)
  /-- VWAIT (R368). -/
  | vwait (a : BitVec 5)
  /-- SC_MOV (R86). -/
  | scMov (b : BitVec 5) (d : BitVec 5)
  /-- SC_ADD (R86). -/
  | scAdd (b : BitVec 5) (d : BitVec 5)
  /-- SC_SUB (R86). -/
  | scSub (b : BitVec 5) (d : BitVec 5)
  /-- SC_AND (R86). -/
  | scAnd (b : BitVec 5) (d : BitVec 5)
  /-- SC_OR (R86). -/
  | scOr (b : BitVec 5) (d : BitVec 5)
  /-- SC_XOR (R86). -/
  | scXor (b : BitVec 5) (d : BitVec 5)
  /-- SC_SHL (R86). -/
  | scShl (b : BitVec 5) (d : BitVec 5)
  /-- SC_SHR (R86). -/
  | scShr (b : BitVec 5) (d : BitVec 5)
  /-- SC_SHRA (R86). -/
  | scShra (b : BitVec 5) (d : BitVec 5)
  /-- SC_MUL (R86). -/
  | scMul (b : BitVec 5) (d : BitVec 5)
  /-- SC_MIN (R86). -/
  | scMin (b : BitVec 5) (d : BitVec 5)
  /-- SC_MAX (R86). -/
  | scMax (b : BitVec 5) (d : BitVec 5)
  /-- SC_MINU (R86). -/
  | scMinu (b : BitVec 5) (d : BitVec 5)
  /-- SC_MAXU (R86). -/
  | scMaxu (b : BitVec 5) (d : BitVec 5)
  /-- SC_NEG (R86). -/
  | scNeg (b : BitVec 5) (d : BitVec 5)
  /-- SC_NOT (R86). -/
  | scNot (b : BitVec 5) (d : BitVec 5)
  /-- NOP (R170). -/
  | nop
  /-- YLD (R162). -/
  | yld
  /-- EXIT (R170). -/
  | exit
  /-- FENCE_C (R219). -/
  | fenceC
  /-- FENCE_D (R219). -/
  | fenceD
  /-- FENCE_S (R219). -/
  | fenceS
  /-- TRET (R173). -/
  | tret
  /-- SCTL_RET (R149). -/
  | sctlRet
  /-- SCTL_EXIT (R150). -/
  | sctlExit
  /-- SCTL_NOP (R150). -/
  | sctlNop
  /-- SCTL_FENCE_C (R238). -/
  | sctlFenceC
  /-- SCTL_FENCE_D (R238). -/
  | sctlFenceD
  /-- SCTL_FENCE_S (R238). -/
  | sctlFenceS
  /-- CBAR (R309). -/
  | cbar
  /-- GBAR (R310). -/
  | gbar
  /-- BREAKPOINT_MATCH (R132). -/
  | breakpointMatch
  /-- RELEASE_WAIT_END (R305). -/
  | releaseWaitEnd
  /-- LAUNCH (R112). -/
  | launch
  /-- CREATE (R101). -/
  | create
  /-- UPDATE (R102). -/
  | update
  /-- MOVE (R104). -/
  | move
  /-- RESUME (R98). -/
  | resume
  /-- DESTROY (R99). -/
  | destroy
  /-- CAPSTART (R120). -/
  | capstart
  /-- CAPSTOP (R120). -/
  | capstop
  /-- CAPSTOP_COMPLETE (R122). -/
  | capstopComplete
  /-- ETHERNET_FRAME (R119). -/
  | ethernetFrame
  /-- QTAIL_WRITE (R110). -/
  | qtailWrite
  /-- QUEUE_ENABLE (R110). -/
  | queueEnable
  /-- QUEUE_DISABLE (R110). -/
  | queueDisable
  /-- ERR_CLEAR (R397). -/
  | errClear
  /-- VECTOR_UNMASK (R116). -/
  | vectorUnmask
  /-- TLBINV (R319). -/
  | tlbinv
  /-- MBDOOR (R389). -/
  | mbdoor
  /-- REGISTER_WRITE (R9). -/
  | registerWrite
  /-- STOP_SLOT_FREE (R134). -/
  | stopSlotFree
  /-- STOP_SLOT_SCAN (R133). -/
  | stopSlotScan
  /-- DEPENDENCE_REREAD (R113). -/
  | dependenceReread
  /-- TEAM_PLACEMENT (R118). -/
  | teamPlacement
  /-- LOADING_COMPLETE (R136). -/
  | loadingComplete
  /-- QUANTUM_EXPIRY (R142). -/
  | quantumExpiry
  /-- SWAP_OUT (R143). -/
  | swapOut
  /-- EXIT_ACTIONS (R155). -/
  | exitActions
  /-- GRID_END (R115). -/
  | gridEnd
  /-- CONTEXT_LOADED (R98). -/
  | contextLoaded
  /-- ERASURE_COMPLETE (R99). -/
  | erasureComplete
  /-- FORCE_EVALUATION (R276). -/
  | forceEvaluation
  /-- ACQ_GRANT (R259). -/
  | acqGrant
  /-- WAITING_ACCESS_PERFORM (R160). -/
  | waitingAccessPerform
  /-- BANK_MODE_SWITCH (R246). -/
  | bankModeSwitch
  /-- COPY (R254). -/
  | copy
  /-- COPY2D (R254). -/
  | copy2d
  /-- GATHER (R254). -/
  | gather
  /-- SCATTER (R254). -/
  | scatter
  /-- FILL (R254). -/
  | fill
  /-- PLANES (R255). -/
  | planes
  /-- PG_MOVE (R329). -/
  | pgMove
  /-- PG_PIN (R329). -/
  | pgPin
  /-- PG_CLRCNT (R329). -/
  | pgClrcnt
  /-- DEMOTION (R326). -/
  | demotion
  /-- PAGE_READBACK (R327). -/
  | pageReadback
  /-- FORWARDED_ACCESS (R322). -/
  | forwardedAccess
  /-- REGENERATION_COMPLETE (R330). -/
  | regenerationComplete
  /-- ALLRED (R360). -/
  | allred
  /-- REDSCAT (R360). -/
  | redscat
  /-- ALLGATH (R360). -/
  | allgath
  /-- BCAST (R360). -/
  | bcast
  /-- SEND (R360). -/
  | send
  /-- RECV (R360). -/
  | recv
  /-- COLLECTIVE_BEGIN (R359). -/
  | collectiveBegin
  /-- COLLECTIVE_COMPLETE (R362). -/
  | collectiveComplete
  /-- TICK_BOUNDARY (R347). -/
  | tickBoundary
  /-- RAISE_SUSPICION (R353). -/
  | raiseSuspicion
  /-- VIEW_INSTALLATION (R355). -/
  | viewInstallation
  /-- JOIN_NOTICE (R357). -/
  | joinNotice
  /-- VIEWREC (R357). -/
  | viewrec
  /-- SERVO_OFFSET_EXCEEDED (R345). -/
  | servoOffsetExceeded
  /-- PORT_ENABLE (R350). -/
  | portEnable
  /-- PORT_UP (R350). -/
  | portUp
  /-- TRAINING_TIMEOUT (R350). -/
  | trainingTimeout
  /-- LOSS_OF_SIGNAL (R350). -/
  | lossOfSignal
  /-- PORT_DISABLE (R350). -/
  | portDisable
  /-- CHIP_STOP (R370). -/
  | chipStop
  /-- MODULE_RESET (R390). -/
  | moduleReset
  /-- WARM_RESET (R390). -/
  | warmReset
  /-- LIFE_CYCLE_CHANGE (R390). -/
  | lifeCycleChange
  /-- HOST_ACCESS (R240). -/
  | hostAccess
  /-- ROLLBACK (R375). -/
  | rollback
  /-- AUDIT_REPLAY (R378). -/
  | auditReplay
  /-- SOFT_REPAIR (R379). -/
  | softRepair
  /-- REPAIR_QUIESCE_END (R379). -/
  | repairQuiesceEnd
  /-- HARD_REPAIR (R379). -/
  | hardRepair
  /-- AGEING_THRESHOLD (R380). -/
  | ageingThreshold
  /-- LOAD_REQUEST (R125). -/
  | loadRequest
  /-- TRANSLATION (R127). -/
  | translation
  /-- UNLOAD_REQUEST (R125). -/
  | unloadRequest
  /-- STAGE_IMAGE (R383). -/
  | stageImage
  /-- HAND_OVER (R384). -/
  | handOver
  /-- HEARTBEAT (R385). -/
  | heartbeat
  /-- HEARTBEAT_WINDOW_END (R385). -/
  | heartbeatWindowEnd
  /-- UNDEFINED_INSTRUCTION (R95). -/
  | undefinedInstruction
  /-- HOST_BRIDGE_ERROR (R323). -/
  | hostBridgeError
  /-- INDIRECTION_ENTRY_WRITE (R321). -/
  | indirectionEntryWrite
  /-- FIRMWARE_VIEW_INSTALL (R351). -/
  | firmwareViewInstall
  /-- SERVO_OFFSET_RESTORED (R345). -/
  | servoOffsetRestored
  deriving DecidableEq, Repr

end Sys2Proof
end

