-- ==== Sys2Proof/WellFormed.lean ====
section
/-! DEFINITION. Which instructions are well formed: the conditions on field values that the encoding tables
of R73 to R92 state beyond a field's width. A word whose fields break one of them is unassigned or undefined
(R94) and never decodes. -/

namespace Sys2Proof

/-- Width in bits of a width code (R70). -/
def widthOf (w : BitVec 2) : Nat := 8 * 2 ^ w.toNat

/-- Width in bits of a lane type code 0 to 11 (R70). -/
def typeWidth (t : Nat) : Nat :=
  match t with
  | 0 | 4 => 8
  | 1 | 5 | 8 | 9 => 16
  | 2 | 6 | 10 => 32
  | _ => 64

/-- CVT, form 0 (R76): two distinct lane types, and no integer source with a narrower integer destination. -/
def cvtOk (d s : Nat) : Bool :=
  decide (d ≤ 11 ∧ s ≤ 11 ∧ d ≠ s ∧ ¬ (s < 8 ∧ d < 8 ∧ typeWidth d < typeWidth s))

/-- CVTS and CVTW (R76): an integer source and a narrower integer destination. -/
def narrowsOk (d s : Nat) : Bool := decide (s < 8 ∧ d < 8 ∧ typeWidth d < typeWidth s)

/-- The formats that NPK and NUNP accept (R77). -/
def packFormat (f : Nat) : Bool := decide ((5 ≤ f ∧ f ≤ 9) ∨ (0x0C ≤ f ∧ f ≤ 0x11))

/-- The formats of block products (R90). -/
def blockFormat (f : Nat) : Bool := decide ((5 ≤ f ∧ f ≤ 9) ∨ f = 0x0C ∨ f = 0x12)

/-- The formats of tile sums (R90). -/
def sumFormat (f : Nat) : Bool :=
  decide (f = 0 ∨ f = 1 ∨ f = 0x0A ∨ f = 0x13 ∨ f = 0x14)

/-- Special-register selectors that MOVS reads in lane code (R82, R224, R241, R246, R387). -/
def laneSelector (s : Nat) : Bool :=
  decide (s ≤ 0x0E ∨ (0x14 ≤ s ∧ s ≤ 0x1A) ∨ s = 0x23 ∨ (0x40 ≤ s ∧ s ≤ 0x5F))

/-- Selectors that MOVS reads in sequencer code (R87, R224, R241, R246, R281, R387), but for %tflagsc
(0x1E), whose MOVS is the row MOVS_TFLAGSC. -/
def seqSelector (s : Nat) : Bool :=
  decide ((4 ≤ s ∧ s ≤ 0x0D) ∨ (0x10 ≤ s ∧ s ≤ 0x13) ∨ (0x19 ≤ s ∧ s ≤ 0x1D) ∨ (0x1F ≤ s ∧ s ≤ 0x23))

/-- The well-formed instructions. Events carry no encoding and are all well formed. -/
def Instr.wf (i : Instr) : Bool :=
  match i with
  | .add _ _ _ _ _ _ => true
  | .sub _ _ _ _ _ _ => true
  | .mul _ _ _ _ _ _ => true
  | .mulh _ _ _ _ _ _ => true
  | .min _ _ _ _ _ _ => true
  | .max _ _ _ _ _ _ => true
  | .adds _ _ _ _ _ _ => true
  | .subs _ _ _ _ _ _ => true
  | .and _ _ _ _ _ => true
  | .or _ _ _ _ _ => true
  | .xor _ _ _ _ _ => true
  | .andn _ _ _ _ _ => true
  | .shl _ _ _ _ _ _ => true
  | .shr _ _ t _ _ _ => decide (4 ≤ t.toNat)
  | .shra _ _ t _ _ _ => decide (t.toNat < 4)
  | .rol _ _ _ _ _ _ => true
  | .sel _ _ _ _ _ _ => true
  | .div _ _ _ _ _ _ => true
  | .rem _ _ _ _ _ _ => true
  | .clz _ _ _ _ _ => true
  | .popc _ _ _ _ _ => true
  | .brev _ _ _ _ _ => true
  | .abs _ _ _ _ _ => true
  | .absd _ _ _ _ _ _ => true
  | .cmp _ _ _ _ _ c _ => decide (c.toNat ≤ 5)
  | .addi _ _ _ _ => true
  | .logiAnd _ _ _ => true
  | .logiOr _ _ _ => true
  | .logiXor _ _ _ => true
  | .logiAndn _ _ _ => true
  | .shfiShl w n _ _ => decide (n.toNat < widthOf w)
  | .shfiShr w n _ _ => decide (n.toNat < widthOf w)
  | .shfiShra w n _ _ => decide (n.toNat < widthOf w)
  | .shfiRol w n _ _ => decide (n.toNat < widthOf w)
  | .cmpi _ _ _ _ _ => true
  | .fahAdd _ _ _ _ _ _ _ => true
  | .fahSub _ _ _ _ _ _ _ => true
  | .fahMul _ _ _ _ _ _ _ => true
  | .fahDiv _ _ _ _ _ _ _ => true
  | .fahMin _ _ _ _ _ _ => true
  | .fahMax _ _ _ _ _ _ => true
  | .fahSqrt _ _ _ _ _ _ => true
  | .fahCpsgn _ _ _ _ _ _ => true
  | .fawAdd _ _ _ _ _ _ _ => true
  | .fawSub _ _ _ _ _ _ _ => true
  | .fawMul _ _ _ _ _ _ _ => true
  | .fawDiv _ _ _ _ _ _ _ => true
  | .fawMin _ _ _ _ _ _ => true
  | .fawMax _ _ _ _ _ _ => true
  | .fawSqrt _ _ _ _ _ _ => true
  | .fawCpsgn _ _ _ _ _ _ => true
  | .rcp _ _ t _ _ => decide (t.toNat ≤ 2)
  | .rsq _ _ t _ _ => decide (t.toNat ≤ 2)
  | .exp2 _ _ t _ _ => decide (t.toNat ≤ 2)
  | .log2 _ _ t _ _ => decide (t.toNat ≤ 2)
  | .sin _ _ t _ _ => decide (t.toNat ≤ 2)
  | .cos _ _ t _ _ => decide (t.toNat ≤ 2)
  | .tanh _ _ t _ _ => decide (t.toNat ≤ 2)
  | .fspecCmp _ _ _ _ _ c _ => decide (c.toNat ≤ 6)
  | .fma _ _ _ _ _ _ => true
  | .cvt _ _ t e _ s _ _ => cvtOk (e ++ t).toNat s.toNat
  | .cvts _ _ t s _ _ => narrowsOk t.toNat s.toNat
  | .cvtw _ _ t s _ _ => narrowsOk t.toNat s.toNat
  | .npk _ _ _ _ f _ _ => packFormat f.toNat
  | .nunp _ _ _ f _ _ => packFormat f.toNat
  | .qnt _ _ _ _ _ _ => true
  | .dqnt _ _ _ _ _ _ _ => true
  | .toe8 _ _ _ _ _ => true
  | .fre8 _ _ _ _ _ _ => true
  | .shfl _ _ _ _ _ _ => true
  | .shflx _ _ _ _ _ _ => true
  | .shflu _ _ _ _ _ _ => true
  | .shfld _ _ _ _ _ _ => true
  | .voteAny _ _ _ _ => true
  | .voteAll _ _ _ _ => true
  | .voteBallot _ _ _ _ => true
  | .matchLanes _ _ _ _ _ _ => true
  | .rdc _ _ o t _ _ => decide (o.toNat ≤ 5 ∧ t.toNat ≤ 11 ∧ (3 ≤ o.toNat → t.toNat < 8))
  | .scan _ _ o t _ _ => decide (o.toNat ≤ 5 ∧ t.toNat ≤ 11 ∧ (3 ≤ o.toNat → t.toNat < 8))
  | .xiShfl w _ s _ _ => decide (s.toNat < 64 / widthOf w)
  | .xiShflx _ _ _ _ => true
  | .xiShflu _ _ _ _ => true
  | .xiShfld _ _ _ _ => true
  | .lu _ _ => true
  | .atom _ _ t o _ _ _ => decide (t.toNat ≤ 5 ∧ (4 ≤ t.toNat → o.toNat ≤ 2))
  | .redD _ _ t o _ _ => decide (o.toNat ≤ 5 ∧ t.toNat ≤ 5 ∧ (4 ≤ t.toNat → o.toNat ≤ 2))
  | .ld8 _ _ _ _ => true
  | .ld16 _ _ _ _ => true
  | .ld32 _ _ _ _ => true
  | .ld64 _ _ _ _ => true
  | .ldv128 _ _ _ _ => true
  | .ldv256 _ _ _ _ => true
  | .ldv512 _ _ _ _ => true
  | .st8 _ _ _ _ => true
  | .st16 _ _ _ _ => true
  | .st32 _ _ _ _ => true
  | .st64 _ _ _ _ => true
  | .stv128 _ _ _ _ => true
  | .stv256 _ _ _ _ => true
  | .stv512 _ _ _ _ => true
  | .movs s _ => laneSelector s.toNat
  | .setsStklim _ => true
  | .setsLepc _ => true
  | .setsLflags _ => true
  | .setsBmode _ => true
  | .trap _ => true
  | .jmpr _ => true
  | .ret _ => true
  | .enter _ => true
  | .leave _ => true
  | .ppack _ => true
  | .punpk _ => true
  | .pfi _ => true
  | .prfL1 _ => true
  | .prfMsc _ => true
  | .stp f _ _ => decide (f.toNat ≤ 0x12)
  | .pushCe _ _ => true
  | .pushXe _ _ => true
  | .pushPg _ _ => true
  | .bara _ => true
  | .barw _ => true
  | .baraw _ => true
  | .vget _ _ => true
  | .vput _ _ => true
  | .bra _ => true
  | .brc _ p => decide (p.toNat ≠ 0)
  | .brcF _ p => decide (p.toNat ≠ 0)
  | .call _ => true
  | .qrn _ _ _ _ _ => true
  | .qrnf _ _ _ _ _ => true
  | .qrseed _ _ _ _ _ => true
  | .lcMov b d => decide (¬ (b.toNat = 0 ∧ d.toNat = 0))
  | .lcAddI32 _ _ => true
  | .lcSubI32 _ _ => true
  | .lcAnd _ _ => true
  | .lcOr _ _ => true
  | .lcXor _ _ => true
  | .lcShlI32 _ _ => true
  | .lcShrN32 _ _ => true
  | .lcShraI32 _ _ => true
  | .lcAddF32 _ _ => true
  | .lcSubF32 _ _ => true
  | .lcMulF32 _ _ => true
  | .lcMinF32 _ _ => true
  | .lcMaxF32 _ _ => true
  | .lcAddI64 _ _ => true
  | .lcNegF32 _ _ => true
  | .saluAdd _ _ _ => true
  | .saluSub _ _ _ => true
  | .saluAnd _ _ _ => true
  | .saluOr _ _ _ => true
  | .saluXor _ _ _ => true
  | .saluShl _ _ _ => true
  | .saluShr _ _ _ => true
  | .saluShra _ _ _ => true
  | .smulMul _ _ _ => true
  | .smulMulhs _ _ _ => true
  | .smulMulhu _ _ _ => true
  | .smulDiv _ _ _ => true
  | .smulDivu _ _ _ => true
  | .smulRem _ _ _ => true
  | .smulRemu _ _ _ => true
  | .scmpMin _ _ _ => true
  | .scmpMax _ _ _ => true
  | .scmpMinu _ _ _ => true
  | .scmpMaxu _ _ _ => true
  | .scmpSlt _ _ _ => true
  | .scmpSltu _ _ _ => true
  | .scmpSeq _ _ _ => true
  | .sld _ f _ _ => decide (f.toNat ≤ 6)
  | .sst _ _ _ _ => true
  | .siAdd _ _ _ => true
  | .siAnd _ _ _ => true
  | .siOr _ _ _ => true
  | .siXor _ _ _ => true
  | .shiftShl _ _ _ => true
  | .shiftShr _ _ _ => true
  | .shiftShra _ _ _ => true
  | .shiftRol _ _ _ => true
  | .addhi _ _ _ => true
  | .bz _ _ => true
  | .bnz _ _ => true
  | .bltz _ _ => true
  | .bgez _ _ => true
  | .bgtz _ _ => true
  | .blez _ _ => true
  | .jmp _ => true
  | .jumpCall _ => true
  | .sctlJmpr _ => true
  | .sctlMovs s _ => seqSelector s.toNat
  | .movsTflagsc _ => true
  | .sctlTrap _ => true
  | .sctlTret _ => true
  | .loop _ _ _ => true
  | .bari _ _ => true
  | .barBara _ _ => true
  | .barBarw _ _ => true
  | .barBaraw _ _ => true
  | .sxPushCe _ d => decide (d.toNat ≤ 24)
  | .sxPushXe _ d => decide (d.toNat ≤ 24)
  | .sxPushPg _ d => decide (d.toNat ≤ 24)
  | .tmul c m _ _ _ => decide (c.toNat ≤ 1 ∧ m.toNat ≤ 0x12)
  | .tmac c m _ _ _ _ => decide (c.toNat ≤ 1 ∧ m.toNat ≤ 0x12)
  | .tcmul c m _ _ _ => decide (c.toNat ≤ 1 ∧ 0x13 ≤ m.toNat ∧ m.toNat ≤ 0x17)
  | .tcmulAddend c m _ _ _ _ => decide (c.toNat ≤ 1 ∧ 0x13 ≤ m.toNat ∧ m.toNat ≤ 0x17)
  | .tbp c m _ _ _ => decide (c.toNat ≤ 1) && blockFormat m.toNat
  | .tsca c m _ _ _ _ => decide (c.toNat ≤ 1) && blockFormat m.toNat
  | .tadd c m _ _ _ => decide (c.toNat ≤ 1) && sumFormat m.toNat
  | .tsub c m _ _ _ => decide (c.toNat ≤ 1) && sumFormat m.toNat
  | .ttr c m _ _ => decide (c.toNat ≤ 1 ∧ m.toNat ≤ 0x17)
  | .thad c m _ _ _ => decide (c.toNat ≤ 1) && sumFormat m.toNat
  | .tcvt m _ _ => decide (m.toNat ≤ 0x17)
  | .tforce _ => true
  | .tdrop _ => true
  | .tld m _ _ _ => decide (m.toNat ≤ 0x17)
  | .tst m _ _ _ => decide (m.toNat ≤ 0x17)
  | .acq _ _ => true
  | .rel _ => true
  | .tstat _ _ => true
  | .tzero m _ _ => decide (m.toNat ≤ 0x17)
  | .tfill m _ _ _ => decide (m.toNat ≤ 0x17)
  | .view _ _ => true
  | .join _ => true
  | .vwait _ => true
  | .scMov b d => decide (¬ (b.toNat = 0 ∧ d.toNat = 0))
  | .scAdd _ _ => true
  | .scSub _ _ => true
  | .scAnd _ _ => true
  | .scOr _ _ => true
  | .scXor _ _ => true
  | .scShl _ _ => true
  | .scShr _ _ => true
  | .scShra _ _ => true
  | .scMul _ _ => true
  | .scMin _ _ => true
  | .scMax _ _ => true
  | .scMinu _ _ => true
  | .scMaxu _ _ => true
  | .scNeg _ _ => true
  | .scNot _ _ => true
  | .nop => true
  | .yld => true
  | .exit => true
  | .fenceC => true
  | .fenceD => true
  | .fenceS => true
  | .tret => true
  | .sctlRet => true
  | .sctlExit => true
  | .sctlNop => true
  | .sctlFenceC => true
  | .sctlFenceD => true
  | .sctlFenceS => true
  | .cbar => true
  | .gbar => true
  | .breakpointMatch => true
  | .releaseWaitEnd => true
  | .launch => true
  | .create => true
  | .update => true
  | .move => true
  | .resume => true
  | .destroy => true
  | .capstart => true
  | .capstop => true
  | .capstopComplete => true
  | .ethernetFrame => true
  | .qtailWrite => true
  | .queueEnable => true
  | .queueDisable => true
  | .errClear => true
  | .vectorUnmask => true
  | .tlbinv => true
  | .mbdoor => true
  | .registerWrite => true
  | .stopSlotFree => true
  | .stopSlotScan => true
  | .dependenceReread => true
  | .teamPlacement => true
  | .loadingComplete => true
  | .quantumExpiry => true
  | .swapOut => true
  | .exitActions => true
  | .gridEnd => true
  | .contextLoaded => true
  | .erasureComplete => true
  | .forceEvaluation => true
  | .acqGrant => true
  | .waitingAccessPerform => true
  | .bankModeSwitch => true
  | .copy => true
  | .copy2d => true
  | .gather => true
  | .scatter => true
  | .fill => true
  | .planes => true
  | .pgMove => true
  | .pgPin => true
  | .pgClrcnt => true
  | .demotion => true
  | .pageReadback => true
  | .forwardedAccess => true
  | .regenerationComplete => true
  | .allred => true
  | .redscat => true
  | .allgath => true
  | .bcast => true
  | .send => true
  | .recv => true
  | .collectiveBegin => true
  | .collectiveComplete => true
  | .tickBoundary => true
  | .raiseSuspicion => true
  | .viewInstallation => true
  | .joinNotice => true
  | .viewrec => true
  | .servoOffsetExceeded => true
  | .portEnable => true
  | .portUp => true
  | .trainingTimeout => true
  | .lossOfSignal => true
  | .portDisable => true
  | .chipStop => true
  | .moduleReset => true
  | .warmReset => true
  | .lifeCycleChange => true
  | .hostAccess => true
  | .rollback => true
  | .auditReplay => true
  | .softRepair => true
  | .repairQuiesceEnd => true
  | .hardRepair => true
  | .ageingThreshold => true
  | .loadRequest => true
  | .translation => true
  | .unloadRequest => true
  | .stageImage => true
  | .handOver => true
  | .heartbeat => true
  | .heartbeatWindowEnd => true
  | .undefinedInstruction => true
  | .hostBridgeError => true
  | .indirectionEntryWrite => true
  | .firmwareViewInstall => true
  | .servoOffsetRestored => true

/-- The instruction stream that a constructor belongs to (R65, R72, R87). -/
inductive Stream where
  | lane | seq | event
  deriving DecidableEq, Repr

/-- Lane instruction, sequencer instruction or event of the part. -/
def Instr.stream (i : Instr) : Stream :=
  match i with
  | .add _ _ _ _ _ _ => .lane
  | .sub _ _ _ _ _ _ => .lane
  | .mul _ _ _ _ _ _ => .lane
  | .mulh _ _ _ _ _ _ => .lane
  | .min _ _ _ _ _ _ => .lane
  | .max _ _ _ _ _ _ => .lane
  | .adds _ _ _ _ _ _ => .lane
  | .subs _ _ _ _ _ _ => .lane
  | .and _ _ _ _ _ => .lane
  | .or _ _ _ _ _ => .lane
  | .xor _ _ _ _ _ => .lane
  | .andn _ _ _ _ _ => .lane
  | .shl _ _ _ _ _ _ => .lane
  | .shr _ _ _ _ _ _ => .lane
  | .shra _ _ _ _ _ _ => .lane
  | .rol _ _ _ _ _ _ => .lane
  | .sel _ _ _ _ _ _ => .lane
  | .div _ _ _ _ _ _ => .lane
  | .rem _ _ _ _ _ _ => .lane
  | .clz _ _ _ _ _ => .lane
  | .popc _ _ _ _ _ => .lane
  | .brev _ _ _ _ _ => .lane
  | .abs _ _ _ _ _ => .lane
  | .absd _ _ _ _ _ _ => .lane
  | .cmp _ _ _ _ _ _ _ => .lane
  | .addi _ _ _ _ => .lane
  | .logiAnd _ _ _ => .lane
  | .logiOr _ _ _ => .lane
  | .logiXor _ _ _ => .lane
  | .logiAndn _ _ _ => .lane
  | .shfiShl _ _ _ _ => .lane
  | .shfiShr _ _ _ _ => .lane
  | .shfiShra _ _ _ _ => .lane
  | .shfiRol _ _ _ _ => .lane
  | .cmpi _ _ _ _ _ => .lane
  | .fahAdd _ _ _ _ _ _ _ => .lane
  | .fahSub _ _ _ _ _ _ _ => .lane
  | .fahMul _ _ _ _ _ _ _ => .lane
  | .fahDiv _ _ _ _ _ _ _ => .lane
  | .fahMin _ _ _ _ _ _ => .lane
  | .fahMax _ _ _ _ _ _ => .lane
  | .fahSqrt _ _ _ _ _ _ => .lane
  | .fahCpsgn _ _ _ _ _ _ => .lane
  | .fawAdd _ _ _ _ _ _ _ => .lane
  | .fawSub _ _ _ _ _ _ _ => .lane
  | .fawMul _ _ _ _ _ _ _ => .lane
  | .fawDiv _ _ _ _ _ _ _ => .lane
  | .fawMin _ _ _ _ _ _ => .lane
  | .fawMax _ _ _ _ _ _ => .lane
  | .fawSqrt _ _ _ _ _ _ => .lane
  | .fawCpsgn _ _ _ _ _ _ => .lane
  | .rcp _ _ _ _ _ => .lane
  | .rsq _ _ _ _ _ => .lane
  | .exp2 _ _ _ _ _ => .lane
  | .log2 _ _ _ _ _ => .lane
  | .sin _ _ _ _ _ => .lane
  | .cos _ _ _ _ _ => .lane
  | .tanh _ _ _ _ _ => .lane
  | .fspecCmp _ _ _ _ _ _ _ => .lane
  | .fma _ _ _ _ _ _ => .lane
  | .cvt _ _ _ _ _ _ _ _ => .lane
  | .cvts _ _ _ _ _ _ => .lane
  | .cvtw _ _ _ _ _ _ => .lane
  | .npk _ _ _ _ _ _ _ => .lane
  | .nunp _ _ _ _ _ _ => .lane
  | .qnt _ _ _ _ _ _ => .lane
  | .dqnt _ _ _ _ _ _ _ => .lane
  | .toe8 _ _ _ _ _ => .lane
  | .fre8 _ _ _ _ _ _ => .lane
  | .shfl _ _ _ _ _ _ => .lane
  | .shflx _ _ _ _ _ _ => .lane
  | .shflu _ _ _ _ _ _ => .lane
  | .shfld _ _ _ _ _ _ => .lane
  | .voteAny _ _ _ _ => .lane
  | .voteAll _ _ _ _ => .lane
  | .voteBallot _ _ _ _ => .lane
  | .matchLanes _ _ _ _ _ _ => .lane
  | .rdc _ _ _ _ _ _ => .lane
  | .scan _ _ _ _ _ _ => .lane
  | .xiShfl _ _ _ _ _ => .lane
  | .xiShflx _ _ _ _ => .lane
  | .xiShflu _ _ _ _ => .lane
  | .xiShfld _ _ _ _ => .lane
  | .lu _ _ => .lane
  | .atom _ _ _ _ _ _ _ => .lane
  | .redD _ _ _ _ _ _ => .lane
  | .ld8 _ _ _ _ => .lane
  | .ld16 _ _ _ _ => .lane
  | .ld32 _ _ _ _ => .lane
  | .ld64 _ _ _ _ => .lane
  | .ldv128 _ _ _ _ => .lane
  | .ldv256 _ _ _ _ => .lane
  | .ldv512 _ _ _ _ => .lane
  | .st8 _ _ _ _ => .lane
  | .st16 _ _ _ _ => .lane
  | .st32 _ _ _ _ => .lane
  | .st64 _ _ _ _ => .lane
  | .stv128 _ _ _ _ => .lane
  | .stv256 _ _ _ _ => .lane
  | .stv512 _ _ _ _ => .lane
  | .movs _ _ => .lane
  | .setsStklim _ => .lane
  | .setsLepc _ => .lane
  | .setsLflags _ => .lane
  | .setsBmode _ => .lane
  | .trap _ => .lane
  | .jmpr _ => .lane
  | .ret _ => .lane
  | .enter _ => .lane
  | .leave _ => .lane
  | .ppack _ => .lane
  | .punpk _ => .lane
  | .pfi _ => .lane
  | .prfL1 _ => .lane
  | .prfMsc _ => .lane
  | .stp _ _ _ => .lane
  | .pushCe _ _ => .lane
  | .pushXe _ _ => .lane
  | .pushPg _ _ => .lane
  | .bara _ => .lane
  | .barw _ => .lane
  | .baraw _ => .lane
  | .vget _ _ => .lane
  | .vput _ _ => .lane
  | .bra _ => .lane
  | .brc _ _ => .lane
  | .brcF _ _ => .lane
  | .call _ => .lane
  | .qrn _ _ _ _ _ => .lane
  | .qrnf _ _ _ _ _ => .lane
  | .qrseed _ _ _ _ _ => .lane
  | .lcMov _ _ => .lane
  | .lcAddI32 _ _ => .lane
  | .lcSubI32 _ _ => .lane
  | .lcAnd _ _ => .lane
  | .lcOr _ _ => .lane
  | .lcXor _ _ => .lane
  | .lcShlI32 _ _ => .lane
  | .lcShrN32 _ _ => .lane
  | .lcShraI32 _ _ => .lane
  | .lcAddF32 _ _ => .lane
  | .lcSubF32 _ _ => .lane
  | .lcMulF32 _ _ => .lane
  | .lcMinF32 _ _ => .lane
  | .lcMaxF32 _ _ => .lane
  | .lcAddI64 _ _ => .lane
  | .lcNegF32 _ _ => .lane
  | .saluAdd _ _ _ => .seq
  | .saluSub _ _ _ => .seq
  | .saluAnd _ _ _ => .seq
  | .saluOr _ _ _ => .seq
  | .saluXor _ _ _ => .seq
  | .saluShl _ _ _ => .seq
  | .saluShr _ _ _ => .seq
  | .saluShra _ _ _ => .seq
  | .smulMul _ _ _ => .seq
  | .smulMulhs _ _ _ => .seq
  | .smulMulhu _ _ _ => .seq
  | .smulDiv _ _ _ => .seq
  | .smulDivu _ _ _ => .seq
  | .smulRem _ _ _ => .seq
  | .smulRemu _ _ _ => .seq
  | .scmpMin _ _ _ => .seq
  | .scmpMax _ _ _ => .seq
  | .scmpMinu _ _ _ => .seq
  | .scmpMaxu _ _ _ => .seq
  | .scmpSlt _ _ _ => .seq
  | .scmpSltu _ _ _ => .seq
  | .scmpSeq _ _ _ => .seq
  | .sld _ _ _ _ => .seq
  | .sst _ _ _ _ => .seq
  | .siAdd _ _ _ => .seq
  | .siAnd _ _ _ => .seq
  | .siOr _ _ _ => .seq
  | .siXor _ _ _ => .seq
  | .shiftShl _ _ _ => .seq
  | .shiftShr _ _ _ => .seq
  | .shiftShra _ _ _ => .seq
  | .shiftRol _ _ _ => .seq
  | .addhi _ _ _ => .seq
  | .bz _ _ => .seq
  | .bnz _ _ => .seq
  | .bltz _ _ => .seq
  | .bgez _ _ => .seq
  | .bgtz _ _ => .seq
  | .blez _ _ => .seq
  | .jmp _ => .seq
  | .jumpCall _ => .seq
  | .sctlJmpr _ => .seq
  | .sctlMovs _ _ => .seq
  | .movsTflagsc _ => .seq
  | .sctlTrap _ => .seq
  | .sctlTret _ => .seq
  | .loop _ _ _ => .seq
  | .bari _ _ => .seq
  | .barBara _ _ => .seq
  | .barBarw _ _ => .seq
  | .barBaraw _ _ => .seq
  | .sxPushCe _ _ => .seq
  | .sxPushXe _ _ => .seq
  | .sxPushPg _ _ => .seq
  | .tmul _ _ _ _ _ => .seq
  | .tmac _ _ _ _ _ _ => .seq
  | .tcmul _ _ _ _ _ => .seq
  | .tcmulAddend _ _ _ _ _ _ => .seq
  | .tbp _ _ _ _ _ => .seq
  | .tsca _ _ _ _ _ _ => .seq
  | .tadd _ _ _ _ _ => .seq
  | .tsub _ _ _ _ _ => .seq
  | .ttr _ _ _ _ => .seq
  | .thad _ _ _ _ _ => .seq
  | .tcvt _ _ _ => .seq
  | .tforce _ => .seq
  | .tdrop _ => .seq
  | .tld _ _ _ _ => .seq
  | .tst _ _ _ _ => .seq
  | .acq _ _ => .seq
  | .rel _ => .seq
  | .tstat _ _ => .seq
  | .tzero _ _ _ => .seq
  | .tfill _ _ _ _ => .seq
  | .view _ _ => .seq
  | .join _ => .seq
  | .vwait _ => .seq
  | .scMov _ _ => .seq
  | .scAdd _ _ => .seq
  | .scSub _ _ => .seq
  | .scAnd _ _ => .seq
  | .scOr _ _ => .seq
  | .scXor _ _ => .seq
  | .scShl _ _ => .seq
  | .scShr _ _ => .seq
  | .scShra _ _ => .seq
  | .scMul _ _ => .seq
  | .scMin _ _ => .seq
  | .scMax _ _ => .seq
  | .scMinu _ _ => .seq
  | .scMaxu _ _ => .seq
  | .scNeg _ _ => .seq
  | .scNot _ _ => .seq
  | .nop => .lane
  | .yld => .lane
  | .exit => .lane
  | .fenceC => .lane
  | .fenceD => .lane
  | .fenceS => .lane
  | .tret => .lane
  | .sctlRet => .seq
  | .sctlExit => .seq
  | .sctlNop => .seq
  | .sctlFenceC => .seq
  | .sctlFenceD => .seq
  | .sctlFenceS => .seq
  | .cbar => .seq
  | .gbar => .seq
  | .breakpointMatch => .event
  | .releaseWaitEnd => .event
  | .launch => .event
  | .create => .event
  | .update => .event
  | .move => .event
  | .resume => .event
  | .destroy => .event
  | .capstart => .event
  | .capstop => .event
  | .capstopComplete => .event
  | .ethernetFrame => .event
  | .qtailWrite => .event
  | .queueEnable => .event
  | .queueDisable => .event
  | .errClear => .event
  | .vectorUnmask => .event
  | .tlbinv => .event
  | .mbdoor => .event
  | .registerWrite => .event
  | .stopSlotFree => .event
  | .stopSlotScan => .event
  | .dependenceReread => .event
  | .teamPlacement => .event
  | .loadingComplete => .event
  | .quantumExpiry => .event
  | .swapOut => .event
  | .exitActions => .event
  | .gridEnd => .event
  | .contextLoaded => .event
  | .erasureComplete => .event
  | .forceEvaluation => .event
  | .acqGrant => .event
  | .waitingAccessPerform => .event
  | .bankModeSwitch => .event
  | .copy => .event
  | .copy2d => .event
  | .gather => .event
  | .scatter => .event
  | .fill => .event
  | .planes => .event
  | .pgMove => .event
  | .pgPin => .event
  | .pgClrcnt => .event
  | .demotion => .event
  | .pageReadback => .event
  | .forwardedAccess => .event
  | .regenerationComplete => .event
  | .allred => .event
  | .redscat => .event
  | .allgath => .event
  | .bcast => .event
  | .send => .event
  | .recv => .event
  | .collectiveBegin => .event
  | .collectiveComplete => .event
  | .tickBoundary => .event
  | .raiseSuspicion => .event
  | .viewInstallation => .event
  | .joinNotice => .event
  | .viewrec => .event
  | .servoOffsetExceeded => .event
  | .portEnable => .event
  | .portUp => .event
  | .trainingTimeout => .event
  | .lossOfSignal => .event
  | .portDisable => .event
  | .chipStop => .event
  | .moduleReset => .event
  | .warmReset => .event
  | .lifeCycleChange => .event
  | .hostAccess => .event
  | .rollback => .event
  | .auditReplay => .event
  | .softRepair => .event
  | .repairQuiesceEnd => .event
  | .hardRepair => .event
  | .ageingThreshold => .event
  | .loadRequest => .event
  | .translation => .event
  | .unloadRequest => .event
  | .stageImage => .event
  | .handOver => .event
  | .heartbeat => .event
  | .heartbeatWindowEnd => .event
  | .undefinedInstruction => .event
  | .hostBridgeError => .event
  | .indirectionEntryWrite => .event
  | .firmwareViewInstall => .event
  | .servoOffsetRestored => .event

/-- Length in bytes of an instruction (R65): 2 for the compact forms, 4 otherwise. Events have none. -/
def Instr.length (i : Instr) : Nat :=
  match i with
  | .add _ _ _ _ _ _ => 4
  | .sub _ _ _ _ _ _ => 4
  | .mul _ _ _ _ _ _ => 4
  | .mulh _ _ _ _ _ _ => 4
  | .min _ _ _ _ _ _ => 4
  | .max _ _ _ _ _ _ => 4
  | .adds _ _ _ _ _ _ => 4
  | .subs _ _ _ _ _ _ => 4
  | .and _ _ _ _ _ => 4
  | .or _ _ _ _ _ => 4
  | .xor _ _ _ _ _ => 4
  | .andn _ _ _ _ _ => 4
  | .shl _ _ _ _ _ _ => 4
  | .shr _ _ _ _ _ _ => 4
  | .shra _ _ _ _ _ _ => 4
  | .rol _ _ _ _ _ _ => 4
  | .sel _ _ _ _ _ _ => 4
  | .div _ _ _ _ _ _ => 4
  | .rem _ _ _ _ _ _ => 4
  | .clz _ _ _ _ _ => 4
  | .popc _ _ _ _ _ => 4
  | .brev _ _ _ _ _ => 4
  | .abs _ _ _ _ _ => 4
  | .absd _ _ _ _ _ _ => 4
  | .cmp _ _ _ _ _ _ _ => 4
  | .addi _ _ _ _ => 4
  | .logiAnd _ _ _ => 4
  | .logiOr _ _ _ => 4
  | .logiXor _ _ _ => 4
  | .logiAndn _ _ _ => 4
  | .shfiShl _ _ _ _ => 4
  | .shfiShr _ _ _ _ => 4
  | .shfiShra _ _ _ _ => 4
  | .shfiRol _ _ _ _ => 4
  | .cmpi _ _ _ _ _ => 4
  | .fahAdd _ _ _ _ _ _ _ => 4
  | .fahSub _ _ _ _ _ _ _ => 4
  | .fahMul _ _ _ _ _ _ _ => 4
  | .fahDiv _ _ _ _ _ _ _ => 4
  | .fahMin _ _ _ _ _ _ => 4
  | .fahMax _ _ _ _ _ _ => 4
  | .fahSqrt _ _ _ _ _ _ => 4
  | .fahCpsgn _ _ _ _ _ _ => 4
  | .fawAdd _ _ _ _ _ _ _ => 4
  | .fawSub _ _ _ _ _ _ _ => 4
  | .fawMul _ _ _ _ _ _ _ => 4
  | .fawDiv _ _ _ _ _ _ _ => 4
  | .fawMin _ _ _ _ _ _ => 4
  | .fawMax _ _ _ _ _ _ => 4
  | .fawSqrt _ _ _ _ _ _ => 4
  | .fawCpsgn _ _ _ _ _ _ => 4
  | .rcp _ _ _ _ _ => 4
  | .rsq _ _ _ _ _ => 4
  | .exp2 _ _ _ _ _ => 4
  | .log2 _ _ _ _ _ => 4
  | .sin _ _ _ _ _ => 4
  | .cos _ _ _ _ _ => 4
  | .tanh _ _ _ _ _ => 4
  | .fspecCmp _ _ _ _ _ _ _ => 4
  | .fma _ _ _ _ _ _ => 4
  | .cvt _ _ _ _ _ _ _ _ => 4
  | .cvts _ _ _ _ _ _ => 4
  | .cvtw _ _ _ _ _ _ => 4
  | .npk _ _ _ _ _ _ _ => 4
  | .nunp _ _ _ _ _ _ => 4
  | .qnt _ _ _ _ _ _ => 4
  | .dqnt _ _ _ _ _ _ _ => 4
  | .toe8 _ _ _ _ _ => 4
  | .fre8 _ _ _ _ _ _ => 4
  | .shfl _ _ _ _ _ _ => 4
  | .shflx _ _ _ _ _ _ => 4
  | .shflu _ _ _ _ _ _ => 4
  | .shfld _ _ _ _ _ _ => 4
  | .voteAny _ _ _ _ => 4
  | .voteAll _ _ _ _ => 4
  | .voteBallot _ _ _ _ => 4
  | .matchLanes _ _ _ _ _ _ => 4
  | .rdc _ _ _ _ _ _ => 4
  | .scan _ _ _ _ _ _ => 4
  | .xiShfl _ _ _ _ _ => 4
  | .xiShflx _ _ _ _ => 4
  | .xiShflu _ _ _ _ => 4
  | .xiShfld _ _ _ _ => 4
  | .lu _ _ => 4
  | .atom _ _ _ _ _ _ _ => 4
  | .redD _ _ _ _ _ _ => 4
  | .ld8 _ _ _ _ => 4
  | .ld16 _ _ _ _ => 4
  | .ld32 _ _ _ _ => 4
  | .ld64 _ _ _ _ => 4
  | .ldv128 _ _ _ _ => 4
  | .ldv256 _ _ _ _ => 4
  | .ldv512 _ _ _ _ => 4
  | .st8 _ _ _ _ => 4
  | .st16 _ _ _ _ => 4
  | .st32 _ _ _ _ => 4
  | .st64 _ _ _ _ => 4
  | .stv128 _ _ _ _ => 4
  | .stv256 _ _ _ _ => 4
  | .stv512 _ _ _ _ => 4
  | .movs _ _ => 4
  | .setsStklim _ => 4
  | .setsLepc _ => 4
  | .setsLflags _ => 4
  | .setsBmode _ => 4
  | .trap _ => 4
  | .jmpr _ => 4
  | .ret _ => 4
  | .enter _ => 4
  | .leave _ => 4
  | .ppack _ => 4
  | .punpk _ => 4
  | .pfi _ => 4
  | .prfL1 _ => 4
  | .prfMsc _ => 4
  | .stp _ _ _ => 4
  | .pushCe _ _ => 4
  | .pushXe _ _ => 4
  | .pushPg _ _ => 4
  | .bara _ => 4
  | .barw _ => 4
  | .baraw _ => 4
  | .vget _ _ => 4
  | .vput _ _ => 4
  | .bra _ => 4
  | .brc _ _ => 4
  | .brcF _ _ => 4
  | .call _ => 4
  | .qrn _ _ _ _ _ => 4
  | .qrnf _ _ _ _ _ => 4
  | .qrseed _ _ _ _ _ => 4
  | .lcMov _ _ => 2
  | .lcAddI32 _ _ => 2
  | .lcSubI32 _ _ => 2
  | .lcAnd _ _ => 2
  | .lcOr _ _ => 2
  | .lcXor _ _ => 2
  | .lcShlI32 _ _ => 2
  | .lcShrN32 _ _ => 2
  | .lcShraI32 _ _ => 2
  | .lcAddF32 _ _ => 2
  | .lcSubF32 _ _ => 2
  | .lcMulF32 _ _ => 2
  | .lcMinF32 _ _ => 2
  | .lcMaxF32 _ _ => 2
  | .lcAddI64 _ _ => 2
  | .lcNegF32 _ _ => 2
  | .saluAdd _ _ _ => 4
  | .saluSub _ _ _ => 4
  | .saluAnd _ _ _ => 4
  | .saluOr _ _ _ => 4
  | .saluXor _ _ _ => 4
  | .saluShl _ _ _ => 4
  | .saluShr _ _ _ => 4
  | .saluShra _ _ _ => 4
  | .smulMul _ _ _ => 4
  | .smulMulhs _ _ _ => 4
  | .smulMulhu _ _ _ => 4
  | .smulDiv _ _ _ => 4
  | .smulDivu _ _ _ => 4
  | .smulRem _ _ _ => 4
  | .smulRemu _ _ _ => 4
  | .scmpMin _ _ _ => 4
  | .scmpMax _ _ _ => 4
  | .scmpMinu _ _ _ => 4
  | .scmpMaxu _ _ _ => 4
  | .scmpSlt _ _ _ => 4
  | .scmpSltu _ _ _ => 4
  | .scmpSeq _ _ _ => 4
  | .sld _ _ _ _ => 4
  | .sst _ _ _ _ => 4
  | .siAdd _ _ _ => 4
  | .siAnd _ _ _ => 4
  | .siOr _ _ _ => 4
  | .siXor _ _ _ => 4
  | .shiftShl _ _ _ => 4
  | .shiftShr _ _ _ => 4
  | .shiftShra _ _ _ => 4
  | .shiftRol _ _ _ => 4
  | .addhi _ _ _ => 4
  | .bz _ _ => 4
  | .bnz _ _ => 4
  | .bltz _ _ => 4
  | .bgez _ _ => 4
  | .bgtz _ _ => 4
  | .blez _ _ => 4
  | .jmp _ => 4
  | .jumpCall _ => 4
  | .sctlJmpr _ => 4
  | .sctlMovs _ _ => 4
  | .movsTflagsc _ => 4
  | .sctlTrap _ => 4
  | .sctlTret _ => 4
  | .loop _ _ _ => 4
  | .bari _ _ => 4
  | .barBara _ _ => 4
  | .barBarw _ _ => 4
  | .barBaraw _ _ => 4
  | .sxPushCe _ _ => 4
  | .sxPushXe _ _ => 4
  | .sxPushPg _ _ => 4
  | .tmul _ _ _ _ _ => 4
  | .tmac _ _ _ _ _ _ => 4
  | .tcmul _ _ _ _ _ => 4
  | .tcmulAddend _ _ _ _ _ _ => 4
  | .tbp _ _ _ _ _ => 4
  | .tsca _ _ _ _ _ _ => 4
  | .tadd _ _ _ _ _ => 4
  | .tsub _ _ _ _ _ => 4
  | .ttr _ _ _ _ => 4
  | .thad _ _ _ _ _ => 4
  | .tcvt _ _ _ => 4
  | .tforce _ => 4
  | .tdrop _ => 4
  | .tld _ _ _ _ => 4
  | .tst _ _ _ _ => 4
  | .acq _ _ => 4
  | .rel _ => 4
  | .tstat _ _ => 4
  | .tzero _ _ _ => 4
  | .tfill _ _ _ _ => 4
  | .view _ _ => 4
  | .join _ => 4
  | .vwait _ => 4
  | .scMov _ _ => 2
  | .scAdd _ _ => 2
  | .scSub _ _ => 2
  | .scAnd _ _ => 2
  | .scOr _ _ => 2
  | .scXor _ _ => 2
  | .scShl _ _ => 2
  | .scShr _ _ => 2
  | .scShra _ _ => 2
  | .scMul _ _ => 2
  | .scMin _ _ => 2
  | .scMax _ _ => 2
  | .scMinu _ _ => 2
  | .scMaxu _ _ => 2
  | .scNeg _ _ => 2
  | .scNot _ _ => 2
  | .nop => 4
  | .yld => 4
  | .exit => 4
  | .fenceC => 4
  | .fenceD => 4
  | .fenceS => 4
  | .tret => 4
  | .sctlRet => 4
  | .sctlExit => 4
  | .sctlNop => 4
  | .sctlFenceC => 4
  | .sctlFenceD => 4
  | .sctlFenceS => 4
  | .cbar => 4
  | .gbar => 4
  | .breakpointMatch => 0
  | .releaseWaitEnd => 0
  | .launch => 0
  | .create => 0
  | .update => 0
  | .move => 0
  | .resume => 0
  | .destroy => 0
  | .capstart => 0
  | .capstop => 0
  | .capstopComplete => 0
  | .ethernetFrame => 0
  | .qtailWrite => 0
  | .queueEnable => 0
  | .queueDisable => 0
  | .errClear => 0
  | .vectorUnmask => 0
  | .tlbinv => 0
  | .mbdoor => 0
  | .registerWrite => 0
  | .stopSlotFree => 0
  | .stopSlotScan => 0
  | .dependenceReread => 0
  | .teamPlacement => 0
  | .loadingComplete => 0
  | .quantumExpiry => 0
  | .swapOut => 0
  | .exitActions => 0
  | .gridEnd => 0
  | .contextLoaded => 0
  | .erasureComplete => 0
  | .forceEvaluation => 0
  | .acqGrant => 0
  | .waitingAccessPerform => 0
  | .bankModeSwitch => 0
  | .copy => 0
  | .copy2d => 0
  | .gather => 0
  | .scatter => 0
  | .fill => 0
  | .planes => 0
  | .pgMove => 0
  | .pgPin => 0
  | .pgClrcnt => 0
  | .demotion => 0
  | .pageReadback => 0
  | .forwardedAccess => 0
  | .regenerationComplete => 0
  | .allred => 0
  | .redscat => 0
  | .allgath => 0
  | .bcast => 0
  | .send => 0
  | .recv => 0
  | .collectiveBegin => 0
  | .collectiveComplete => 0
  | .tickBoundary => 0
  | .raiseSuspicion => 0
  | .viewInstallation => 0
  | .joinNotice => 0
  | .viewrec => 0
  | .servoOffsetExceeded => 0
  | .portEnable => 0
  | .portUp => 0
  | .trainingTimeout => 0
  | .lossOfSignal => 0
  | .portDisable => 0
  | .chipStop => 0
  | .moduleReset => 0
  | .warmReset => 0
  | .lifeCycleChange => 0
  | .hostAccess => 0
  | .rollback => 0
  | .auditReplay => 0
  | .softRepair => 0
  | .repairQuiesceEnd => 0
  | .hardRepair => 0
  | .ageingThreshold => 0
  | .loadRequest => 0
  | .translation => 0
  | .unloadRequest => 0
  | .stageImage => 0
  | .handOver => 0
  | .heartbeat => 0
  | .heartbeatWindowEnd => 0
  | .undefinedInstruction => 0
  | .hostBridgeError => 0
  | .indirectionEntryWrite => 0
  | .firmwareViewInstall => 0
  | .servoOffsetRestored => 0

end Sys2Proof
end

