-- ==== Sys2Proof/Decode.lean ====
section
/-! DEFINITION. The decoder and the encoder, from the formats and maps of R65 to R92. A word decodes under
its stream's map: the same bits mean one thing in lane code and another in sequencer code. The decoder is
total: a word that is no instruction is rejected as undefined or as reserved for a later level (R94). -/

namespace Sys2Proof

/-- Bits [lo+n-1 : lo] of a word, as a number. -/
def fld (w lo n : Nat) : Nat := w / 2 ^ lo % 2 ^ n

/-- Bits [lo+n-1 : lo] of a word, as a field. -/
def bits (w lo n : Nat) : BitVec n := BitVec.ofNat n (w / 2 ^ lo)

/-- Why a word is no instruction (R94): undefined (code 0x01) or reserved for a later level (code 0x02). -/
inductive Undecoded where
  | undefined
  | reserved
  deriving DecidableEq, Repr

/-- The fault code of R94. -/
def Undecoded.code (u : Undecoded) : BitVec 8 :=
  match u with
  | .undefined => 1
  | .reserved => 2

/-- Is this 32-bit lane word reserved for a later level? R82: SYS fn 3, and the selectors from 0x800 of
fn 0 and 1; R83: the sub-ops from 0x30. -/
def laneReserved (w : Nat) : Bool :=
  decide (fld w 0 6 = 0x3B ∧
    (fld w 30 2 = 3 ∨ (fld w 30 2 = 2 ∧ 0x30 ≤ fld w 24 6) ∨ (fld w 30 2 < 2 ∧ 0x800 ≤ fld w 18 12)))

/-- Is this sequencer word reserved? R86: a compact word with bit 15 set; R87: major 0x1F. -/
def seqReserved (w : Nat) : Bool :=
  decide ((fld w 0 1 = 0 ∧ fld w 15 1 = 1) ∨ fld w 0 6 = 0x3F)

/-- The row of a 32-bit lane word, by major and fn (R67, R72 to R83). -/
def laneRow32 (w : Nat) : Option Instr :=
  match fld w 1 5 with
  | 1 =>
    if fld w 24 3 = 0 then some (.add (bits w 31 1) (bits w 30 1) (bits w 27 3) (bits w 18 6) (bits w 12 6) (bits w 6 6)) else
    if fld w 24 3 = 1 then some (.sub (bits w 31 1) (bits w 30 1) (bits w 27 3) (bits w 18 6) (bits w 12 6) (bits w 6 6)) else
    if fld w 24 3 = 2 then some (.mul (bits w 31 1) (bits w 30 1) (bits w 27 3) (bits w 18 6) (bits w 12 6) (bits w 6 6)) else
    if fld w 24 3 = 3 then some (.mulh (bits w 31 1) (bits w 30 1) (bits w 27 3) (bits w 18 6) (bits w 12 6) (bits w 6 6)) else
    if fld w 24 3 = 4 then some (.min (bits w 31 1) (bits w 30 1) (bits w 27 3) (bits w 18 6) (bits w 12 6) (bits w 6 6)) else
    if fld w 24 3 = 5 then some (.max (bits w 31 1) (bits w 30 1) (bits w 27 3) (bits w 18 6) (bits w 12 6) (bits w 6 6)) else
    if fld w 24 3 = 6 then some (.adds (bits w 31 1) (bits w 30 1) (bits w 27 3) (bits w 18 6) (bits w 12 6) (bits w 6 6)) else
    if fld w 24 3 = 7 then some (.subs (bits w 31 1) (bits w 30 1) (bits w 27 3) (bits w 18 6) (bits w 12 6) (bits w 6 6)) else
    none
  | 2 =>
    if fld w 24 6 = 0 then some (.and (bits w 31 1) (bits w 30 1) (bits w 18 6) (bits w 12 6) (bits w 6 6)) else
    if fld w 24 6 = 1 then some (.or (bits w 31 1) (bits w 30 1) (bits w 18 6) (bits w 12 6) (bits w 6 6)) else
    if fld w 24 6 = 2 then some (.xor (bits w 31 1) (bits w 30 1) (bits w 18 6) (bits w 12 6) (bits w 6 6)) else
    if fld w 24 6 = 3 then some (.andn (bits w 31 1) (bits w 30 1) (bits w 18 6) (bits w 12 6) (bits w 6 6)) else
    if fld w 24 3 = 4 then some (.shl (bits w 31 1) (bits w 30 1) (bits w 27 3) (bits w 18 6) (bits w 12 6) (bits w 6 6)) else
    if fld w 24 3 = 5 ∧ 4 ≤ fld w 27 3 then some (.shr (bits w 31 1) (bits w 30 1) (bits w 27 3) (bits w 18 6) (bits w 12 6) (bits w 6 6)) else
    if fld w 24 3 = 5 ∧ fld w 27 3 < 4 then some (.shra (bits w 31 1) (bits w 30 1) (bits w 27 3) (bits w 18 6) (bits w 12 6) (bits w 6 6)) else
    if fld w 24 3 = 6 then some (.rol (bits w 31 1) (bits w 30 1) (bits w 27 3) (bits w 18 6) (bits w 12 6) (bits w 6 6)) else
    if fld w 24 3 = 7 then some (.sel (bits w 31 1) (bits w 30 1) (bits w 27 3) (bits w 18 6) (bits w 12 6) (bits w 6 6)) else
    none
  | 3 =>
    if fld w 18 9 = 320 ∧ fld w 29 1 = 0 then some (.abs (bits w 31 1) (bits w 30 1) (bits w 27 2) (bits w 12 6) (bits w 6 6)) else
    if fld w 18 9 = 128 then some (.clz (bits w 31 1) (bits w 30 1) (bits w 27 3) (bits w 12 6) (bits w 6 6)) else
    if fld w 18 9 = 192 then some (.popc (bits w 31 1) (bits w 30 1) (bits w 27 3) (bits w 12 6) (bits w 6 6)) else
    if fld w 18 9 = 256 then some (.brev (bits w 31 1) (bits w 30 1) (bits w 27 3) (bits w 12 6) (bits w 6 6)) else
    if fld w 24 3 = 0 then some (.div (bits w 31 1) (bits w 30 1) (bits w 27 3) (bits w 18 6) (bits w 12 6) (bits w 6 6)) else
    if fld w 24 3 = 1 then some (.rem (bits w 31 1) (bits w 30 1) (bits w 27 3) (bits w 18 6) (bits w 12 6) (bits w 6 6)) else
    if fld w 24 3 = 6 then some (.absd (bits w 31 1) (bits w 30 1) (bits w 27 3) (bits w 18 6) (bits w 12 6) (bits w 6 6)) else
    if fld w 24 3 = 7 then some (.cmp (bits w 31 1) (bits w 30 1) (bits w 27 3) (bits w 18 6) (bits w 12 6) (bits w 9 3) (bits w 6 3)) else
    none
  | 4 =>
    some (.addi (bits w 30 2) (bits w 18 12) (bits w 12 6) (bits w 6 6))
  | 5 =>
    if fld w 30 2 = 0 then some (.logiAnd (bits w 18 12) (bits w 12 6) (bits w 6 6)) else
    if fld w 30 2 = 1 then some (.logiOr (bits w 18 12) (bits w 12 6) (bits w 6 6)) else
    if fld w 30 2 = 2 then some (.logiXor (bits w 18 12) (bits w 12 6) (bits w 6 6)) else
    if fld w 30 2 = 3 then some (.logiAndn (bits w 18 12) (bits w 12 6) (bits w 6 6)) else
    none
  | 6 =>
    if fld w 24 6 = 0 then some (.shfiShl (bits w 30 2) (bits w 18 6) (bits w 12 6) (bits w 6 6)) else
    if fld w 24 6 = 1 then some (.shfiShr (bits w 30 2) (bits w 18 6) (bits w 12 6) (bits w 6 6)) else
    if fld w 24 6 = 2 then some (.shfiShra (bits w 30 2) (bits w 18 6) (bits w 12 6) (bits w 6 6)) else
    if fld w 24 6 = 3 then some (.shfiRol (bits w 30 2) (bits w 18 6) (bits w 12 6) (bits w 6 6)) else
    none
  | 7 =>
    some (.cmpi (bits w 30 2) (bits w 18 12) (bits w 12 6) (bits w 9 3) (bits w 6 3))
  | 8 =>
    if fld w 18 9 = 384 then some (.fahSqrt (bits w 31 1) (bits w 30 1) (bits w 29 1) (bits w 27 2) (bits w 12 6) (bits w 6 6)) else
    if fld w 24 5 = 4 then some (.fahMin (bits w 31 1) (bits w 30 1) (bits w 29 1) (bits w 18 6) (bits w 12 6) (bits w 6 6)) else
    if fld w 24 5 = 5 then some (.fahMax (bits w 31 1) (bits w 30 1) (bits w 29 1) (bits w 18 6) (bits w 12 6) (bits w 6 6)) else
    if fld w 24 5 = 7 then some (.fahCpsgn (bits w 31 1) (bits w 30 1) (bits w 29 1) (bits w 18 6) (bits w 12 6) (bits w 6 6)) else
    if fld w 24 3 = 0 then some (.fahAdd (bits w 31 1) (bits w 30 1) (bits w 29 1) (bits w 27 2) (bits w 18 6) (bits w 12 6) (bits w 6 6)) else
    if fld w 24 3 = 1 then some (.fahSub (bits w 31 1) (bits w 30 1) (bits w 29 1) (bits w 27 2) (bits w 18 6) (bits w 12 6) (bits w 6 6)) else
    if fld w 24 3 = 2 then some (.fahMul (bits w 31 1) (bits w 30 1) (bits w 29 1) (bits w 27 2) (bits w 18 6) (bits w 12 6) (bits w 6 6)) else
    if fld w 24 3 = 3 then some (.fahDiv (bits w 31 1) (bits w 30 1) (bits w 29 1) (bits w 27 2) (bits w 18 6) (bits w 12 6) (bits w 6 6)) else
    none
  | 9 =>
    if fld w 18 9 = 384 then some (.fawSqrt (bits w 31 1) (bits w 30 1) (bits w 29 1) (bits w 27 2) (bits w 12 6) (bits w 6 6)) else
    if fld w 24 5 = 4 then some (.fawMin (bits w 31 1) (bits w 30 1) (bits w 29 1) (bits w 18 6) (bits w 12 6) (bits w 6 6)) else
    if fld w 24 5 = 5 then some (.fawMax (bits w 31 1) (bits w 30 1) (bits w 29 1) (bits w 18 6) (bits w 12 6) (bits w 6 6)) else
    if fld w 24 5 = 7 then some (.fawCpsgn (bits w 31 1) (bits w 30 1) (bits w 29 1) (bits w 18 6) (bits w 12 6) (bits w 6 6)) else
    if fld w 24 3 = 0 then some (.fawAdd (bits w 31 1) (bits w 30 1) (bits w 29 1) (bits w 27 2) (bits w 18 6) (bits w 12 6) (bits w 6 6)) else
    if fld w 24 3 = 1 then some (.fawSub (bits w 31 1) (bits w 30 1) (bits w 29 1) (bits w 27 2) (bits w 18 6) (bits w 12 6) (bits w 6 6)) else
    if fld w 24 3 = 2 then some (.fawMul (bits w 31 1) (bits w 30 1) (bits w 29 1) (bits w 27 2) (bits w 18 6) (bits w 12 6) (bits w 6 6)) else
    if fld w 24 3 = 3 then some (.fawDiv (bits w 31 1) (bits w 30 1) (bits w 29 1) (bits w 27 2) (bits w 18 6) (bits w 12 6) (bits w 6 6)) else
    none
  | 10 =>
    if fld w 18 9 = 0 ∧ fld w 29 1 = 0 then some (.rcp (bits w 31 1) (bits w 30 1) (bits w 27 2) (bits w 12 6) (bits w 6 6)) else
    if fld w 18 9 = 64 ∧ fld w 29 1 = 0 then some (.rsq (bits w 31 1) (bits w 30 1) (bits w 27 2) (bits w 12 6) (bits w 6 6)) else
    if fld w 18 9 = 128 ∧ fld w 29 1 = 0 then some (.exp2 (bits w 31 1) (bits w 30 1) (bits w 27 2) (bits w 12 6) (bits w 6 6)) else
    if fld w 18 9 = 192 ∧ fld w 29 1 = 0 then some (.log2 (bits w 31 1) (bits w 30 1) (bits w 27 2) (bits w 12 6) (bits w 6 6)) else
    if fld w 18 9 = 256 ∧ fld w 29 1 = 0 then some (.sin (bits w 31 1) (bits w 30 1) (bits w 27 2) (bits w 12 6) (bits w 6 6)) else
    if fld w 18 9 = 320 ∧ fld w 29 1 = 0 then some (.cos (bits w 31 1) (bits w 30 1) (bits w 27 2) (bits w 12 6) (bits w 6 6)) else
    if fld w 18 9 = 384 ∧ fld w 29 1 = 0 then some (.tanh (bits w 31 1) (bits w 30 1) (bits w 27 2) (bits w 12 6) (bits w 6 6)) else
    if fld w 24 3 = 7 ∧ fld w 29 1 = 0 then some (.fspecCmp (bits w 31 1) (bits w 30 1) (bits w 27 2) (bits w 18 6) (bits w 12 6) (bits w 9 3) (bits w 6 3)) else
    none
  | 11 =>
    some (.fma (bits w 30 2) (bits w 29 1) (bits w 24 5) (bits w 18 6) (bits w 12 6) (bits w 6 6))
  | 12 =>
    if fld w 22 5 = 8 then some (.cvts (bits w 31 1) (bits w 30 1) (bits w 27 3) (bits w 18 4) (bits w 12 6) (bits w 6 6)) else
    if fld w 22 5 = 16 then some (.cvtw (bits w 31 1) (bits w 30 1) (bits w 27 3) (bits w 18 4) (bits w 12 6) (bits w 6 6)) else
    if fld w 25 2 = 0 then some (.cvt (bits w 31 1) (bits w 30 1) (bits w 27 3) (bits w 24 1) (bits w 22 2) (bits w 18 4) (bits w 12 6) (bits w 6 6)) else
    none
  | 13 =>
    if fld w 18 11 = 256 then some (.toe8 (bits w 31 1) (bits w 30 1) (bits w 29 1) (bits w 12 6) (bits w 6 6)) else
    if fld w 18 9 = 320 then some (.fre8 (bits w 31 1) (bits w 30 1) (bits w 29 1) (bits w 27 2) (bits w 12 6) (bits w 6 6)) else
    if fld w 23 6 = 2 then some (.nunp (bits w 31 1) (bits w 30 1) (bits w 29 1) (bits w 18 5) (bits w 12 6) (bits w 6 6)) else
    if fld w 24 5 = 2 then some (.qnt (bits w 31 1) (bits w 30 1) (bits w 29 1) (bits w 18 6) (bits w 12 6) (bits w 6 6)) else
    if fld w 23 4 = 0 then some (.npk (bits w 31 1) (bits w 30 1) (bits w 29 1) (bits w 27 2) (bits w 18 5) (bits w 12 6) (bits w 6 6)) else
    if fld w 24 3 = 3 then some (.dqnt (bits w 31 1) (bits w 30 1) (bits w 29 1) (bits w 27 2) (bits w 18 6) (bits w 12 6) (bits w 6 6)) else
    none
  | 14 =>
    if fld w 9 9 = 0 ∧ fld w 21 9 = 32 then some (.voteAny (bits w 31 1) (bits w 30 1) (bits w 18 3) (bits w 6 3)) else
    if fld w 9 9 = 0 ∧ fld w 21 9 = 96 then some (.voteAll (bits w 31 1) (bits w 30 1) (bits w 18 3) (bits w 6 3)) else
    if fld w 12 6 = 0 ∧ fld w 21 9 = 160 then some (.voteBallot (bits w 31 1) (bits w 30 1) (bits w 18 3) (bits w 6 6)) else
    if fld w 22 5 = 24 then some (.rdc (bits w 31 1) (bits w 30 1) (bits w 27 3) (bits w 18 4) (bits w 12 6) (bits w 6 6)) else
    if fld w 22 5 = 28 then some (.scan (bits w 31 1) (bits w 30 1) (bits w 27 3) (bits w 18 4) (bits w 12 6) (bits w 6 6)) else
    if fld w 24 3 = 0 ∧ fld w 29 1 = 0 then some (.shfl (bits w 31 1) (bits w 30 1) (bits w 27 2) (bits w 18 6) (bits w 12 6) (bits w 6 6)) else
    if fld w 24 3 = 1 ∧ fld w 29 1 = 0 then some (.shflx (bits w 31 1) (bits w 30 1) (bits w 27 2) (bits w 18 6) (bits w 12 6) (bits w 6 6)) else
    if fld w 24 3 = 2 ∧ fld w 29 1 = 0 then some (.shflu (bits w 31 1) (bits w 30 1) (bits w 27 2) (bits w 18 6) (bits w 12 6) (bits w 6 6)) else
    if fld w 24 3 = 3 ∧ fld w 29 1 = 0 then some (.shfld (bits w 31 1) (bits w 30 1) (bits w 27 2) (bits w 18 6) (bits w 12 6) (bits w 6 6)) else
    if fld w 24 3 = 5 ∧ fld w 29 1 = 0 then some (.matchLanes (bits w 31 1) (bits w 30 1) (bits w 27 2) (bits w 18 6) (bits w 12 6) (bits w 6 6)) else
    none
  | 15 =>
    if fld w 18 6 = 1 then some (.xiShflx (bits w 30 2) (bits w 24 6) (bits w 12 6) (bits w 6 6)) else
    if fld w 18 6 = 2 then some (.xiShflu (bits w 30 2) (bits w 24 6) (bits w 12 6) (bits w 6 6)) else
    if fld w 18 6 = 3 then some (.xiShfld (bits w 30 2) (bits w 24 6) (bits w 12 6) (bits w 6 6)) else
    if fld w 18 3 = 0 then some (.xiShfl (bits w 30 2) (bits w 24 6) (bits w 21 3) (bits w 12 6) (bits w 6 6)) else
    none
  | 16 =>
    some (.lu (bits w 12 20) (bits w 6 6))
  | 17 =>
    some (.atom (bits w 31 1) (bits w 30 1) (bits w 27 3) (bits w 24 3) (bits w 18 6) (bits w 12 6) (bits w 6 6))
  | 18 =>
    if fld w 6 6 = 0 then some (.redD (bits w 31 1) (bits w 30 1) (bits w 27 3) (bits w 24 3) (bits w 18 6) (bits w 12 6)) else
    none
  | 19 =>
    some (.ld8 (bits w 30 2) (bits w 18 12) (bits w 12 6) (bits w 6 6))
  | 20 =>
    some (.ld16 (bits w 30 2) (bits w 18 12) (bits w 12 6) (bits w 6 6))
  | 21 =>
    some (.ld32 (bits w 30 2) (bits w 18 12) (bits w 12 6) (bits w 6 6))
  | 22 =>
    some (.ld64 (bits w 30 2) (bits w 18 12) (bits w 12 6) (bits w 6 6))
  | 23 =>
    if fld w 6 3 = 4 then some (.ldv512 (bits w 30 2) (bits w 18 12) (bits w 12 6) (bits w 9 3)) else
    if fld w 6 2 = 2 then some (.ldv256 (bits w 30 2) (bits w 18 12) (bits w 12 6) (bits w 8 4)) else
    if fld w 6 1 = 1 then some (.ldv128 (bits w 30 2) (bits w 18 12) (bits w 12 6) (bits w 7 5)) else
    none
  | 24 =>
    some (.st8 (bits w 30 2) (bits w 18 12) (bits w 12 6) (bits w 6 6))
  | 25 =>
    some (.st16 (bits w 30 2) (bits w 18 12) (bits w 12 6) (bits w 6 6))
  | 26 =>
    some (.st32 (bits w 30 2) (bits w 18 12) (bits w 12 6) (bits w 6 6))
  | 27 =>
    some (.st64 (bits w 30 2) (bits w 18 12) (bits w 12 6) (bits w 6 6))
  | 28 =>
    if fld w 6 3 = 4 then some (.stv512 (bits w 30 2) (bits w 18 12) (bits w 12 6) (bits w 9 3)) else
    if fld w 6 2 = 2 then some (.stv256 (bits w 30 2) (bits w 18 12) (bits w 12 6) (bits w 8 4)) else
    if fld w 6 1 = 1 then some (.stv128 (bits w 30 2) (bits w 18 12) (bits w 12 6) (bits w 7 5)) else
    none
  | 29 =>
    if fld w 6 26 = 33554432 then some (.nop) else
    if fld w 6 26 = 33816576 then some (.yld) else
    if fld w 6 26 = 34078720 then some (.exit) else
    if fld w 6 26 = 36175872 then some (.fenceC) else
    if fld w 6 26 = 36179968 then some (.fenceD) else
    if fld w 6 26 = 36184064 then some (.fenceS) else
    if fld w 6 26 = 38797312 then some (.tret) else
    if fld w 6 12 = 0 ∧ fld w 22 10 = 572 then some (.bara (bits w 18 4)) else
    if fld w 6 12 = 0 ∧ fld w 22 10 = 576 then some (.barw (bits w 18 4)) else
    if fld w 6 12 = 0 ∧ fld w 22 10 = 580 then some (.baraw (bits w 18 4)) else
    if fld w 6 6 = 0 ∧ fld w 18 14 = 4110 then some (.setsStklim (bits w 12 6)) else
    if fld w 6 6 = 0 ∧ fld w 18 14 = 4117 then some (.setsLepc (bits w 12 6)) else
    if fld w 6 6 = 0 ∧ fld w 18 14 = 4119 then some (.setsLflags (bits w 12 6)) else
    if fld w 6 6 = 0 ∧ fld w 18 14 = 4122 then some (.setsBmode (bits w 12 6)) else
    if fld w 6 12 = 0 ∧ fld w 24 8 = 131 then some (.trap (bits w 18 6)) else
    if fld w 6 6 = 0 ∧ fld w 18 14 = 8448 then some (.jmpr (bits w 12 6)) else
    if fld w 6 6 = 0 ∧ fld w 18 14 = 8512 then some (.ret (bits w 12 6)) else
    if fld w 6 12 = 0 ∧ fld w 24 8 = 134 then some (.enter (bits w 18 6)) else
    if fld w 6 12 = 0 ∧ fld w 24 8 = 135 then some (.leave (bits w 18 6)) else
    if fld w 12 20 = 557056 then some (.ppack (bits w 6 6)) else
    if fld w 6 6 = 0 ∧ fld w 18 14 = 8768 then some (.punpk (bits w 12 6)) else
    if fld w 6 12 = 0 ∧ fld w 24 8 = 139 then some (.pfi (bits w 18 6)) else
    if fld w 6 6 = 0 ∧ fld w 18 14 = 8960 then some (.prfL1 (bits w 12 6)) else
    if fld w 6 6 = 0 ∧ fld w 18 14 = 8961 then some (.prfMsc (bits w 12 6)) else
    if fld w 12 9 = 0 ∧ fld w 24 8 = 142 then some (.pushCe (bits w 21 3) (bits w 6 6)) else
    if fld w 12 9 = 64 ∧ fld w 24 8 = 142 then some (.pushXe (bits w 21 3) (bits w 6 6)) else
    if fld w 12 9 = 128 ∧ fld w 24 8 = 142 then some (.pushPg (bits w 21 3) (bits w 6 6)) else
    if fld w 12 6 = 0 ∧ fld w 21 11 = 1168 then some (.vget (bits w 18 3) (bits w 6 6)) else
    if fld w 6 6 = 0 ∧ fld w 21 11 = 1176 then some (.vput (bits w 18 3) (bits w 12 6)) else
    if fld w 23 9 = 282 then some (.stp (bits w 18 5) (bits w 12 6) (bits w 6 6)) else
    if fld w 12 6 = 0 ∧ fld w 30 2 = 0 then some (.movs (bits w 18 12) (bits w 6 6)) else
    none
  | 30 =>
    if fld w 6 4 = 0 then some (.bra (bits w 10 22)) else
    if fld w 6 4 = 8 then some (.call (bits w 10 22)) else
    if fld w 9 1 = 0 then some (.brc (bits w 10 22) (bits w 6 3)) else
    if fld w 9 1 = 1 then some (.brcF (bits w 10 22) (bits w 6 3)) else
    none
  | 31 =>
    if fld w 24 6 = 0 then some (.qrn (bits w 31 1) (bits w 30 1) (bits w 18 6) (bits w 12 6) (bits w 6 6)) else
    if fld w 24 6 = 1 then some (.qrnf (bits w 31 1) (bits w 30 1) (bits w 18 6) (bits w 12 6) (bits w 6 6)) else
    if fld w 24 6 = 2 then some (.qrseed (bits w 31 1) (bits w 30 1) (bits w 18 6) (bits w 12 6) (bits w 6 6)) else
    none
  | _ => none

/-- The row of a 16-bit lane word (R68, R84). -/
def laneRow16 (w : Nat) : Option Instr :=
  match fld w 1 4 with
  | 0 => some (.lcMov (bits w 11 5) (bits w 5 6))
  | 1 => some (.lcAddI32 (bits w 11 5) (bits w 5 6))
  | 2 => some (.lcSubI32 (bits w 11 5) (bits w 5 6))
  | 3 => some (.lcAnd (bits w 11 5) (bits w 5 6))
  | 4 => some (.lcOr (bits w 11 5) (bits w 5 6))
  | 5 => some (.lcXor (bits w 11 5) (bits w 5 6))
  | 6 => some (.lcShlI32 (bits w 11 5) (bits w 5 6))
  | 7 => some (.lcShrN32 (bits w 11 5) (bits w 5 6))
  | 8 => some (.lcShraI32 (bits w 11 5) (bits w 5 6))
  | 9 => some (.lcAddF32 (bits w 11 5) (bits w 5 6))
  | 10 => some (.lcSubF32 (bits w 11 5) (bits w 5 6))
  | 11 => some (.lcMulF32 (bits w 11 5) (bits w 5 6))
  | 12 => some (.lcMinF32 (bits w 11 5) (bits w 5 6))
  | 13 => some (.lcMaxF32 (bits w 11 5) (bits w 5 6))
  | 14 => some (.lcAddI64 (bits w 11 5) (bits w 5 6))
  | 15 => some (.lcNegF32 (bits w 11 5) (bits w 5 6))
  | _ => none

/-- The row of a 32-bit sequencer word (R85, R87 to R92). -/
def seqRow32 (w : Nat) : Option Instr :=
  match fld w 1 5 with
  | 1 =>
    if fld w 21 11 = 0 then some (.saluAdd (bits w 16 5) (bits w 11 5) (bits w 6 5)) else
    if fld w 21 11 = 1 then some (.saluSub (bits w 16 5) (bits w 11 5) (bits w 6 5)) else
    if fld w 21 11 = 2 then some (.saluAnd (bits w 16 5) (bits w 11 5) (bits w 6 5)) else
    if fld w 21 11 = 3 then some (.saluOr (bits w 16 5) (bits w 11 5) (bits w 6 5)) else
    if fld w 21 11 = 4 then some (.saluXor (bits w 16 5) (bits w 11 5) (bits w 6 5)) else
    if fld w 21 11 = 5 then some (.saluShl (bits w 16 5) (bits w 11 5) (bits w 6 5)) else
    if fld w 21 11 = 6 then some (.saluShr (bits w 16 5) (bits w 11 5) (bits w 6 5)) else
    if fld w 21 11 = 7 then some (.saluShra (bits w 16 5) (bits w 11 5) (bits w 6 5)) else
    none
  | 2 =>
    if fld w 21 11 = 0 then some (.smulMul (bits w 16 5) (bits w 11 5) (bits w 6 5)) else
    if fld w 21 11 = 1 then some (.smulMulhs (bits w 16 5) (bits w 11 5) (bits w 6 5)) else
    if fld w 21 11 = 2 then some (.smulMulhu (bits w 16 5) (bits w 11 5) (bits w 6 5)) else
    if fld w 21 11 = 3 then some (.smulDiv (bits w 16 5) (bits w 11 5) (bits w 6 5)) else
    if fld w 21 11 = 4 then some (.smulDivu (bits w 16 5) (bits w 11 5) (bits w 6 5)) else
    if fld w 21 11 = 5 then some (.smulRem (bits w 16 5) (bits w 11 5) (bits w 6 5)) else
    if fld w 21 11 = 6 then some (.smulRemu (bits w 16 5) (bits w 11 5) (bits w 6 5)) else
    none
  | 3 =>
    if fld w 21 11 = 0 then some (.scmpMin (bits w 16 5) (bits w 11 5) (bits w 6 5)) else
    if fld w 21 11 = 1 then some (.scmpMax (bits w 16 5) (bits w 11 5) (bits w 6 5)) else
    if fld w 21 11 = 2 then some (.scmpMinu (bits w 16 5) (bits w 11 5) (bits w 6 5)) else
    if fld w 21 11 = 3 then some (.scmpMaxu (bits w 16 5) (bits w 11 5) (bits w 6 5)) else
    if fld w 21 11 = 4 then some (.scmpSlt (bits w 16 5) (bits w 11 5) (bits w 6 5)) else
    if fld w 21 11 = 5 then some (.scmpSltu (bits w 16 5) (bits w 11 5) (bits w 6 5)) else
    if fld w 21 11 = 6 then some (.scmpSeq (bits w 16 5) (bits w 11 5) (bits w 6 5)) else
    none
  | 4 =>
    if fld w 16 5 = 0 then some (.sld (bits w 24 8) (bits w 21 3) (bits w 11 5) (bits w 6 5)) else
    none
  | 5 =>
    if fld w 6 5 = 0 ∧ fld w 23 1 = 0 then some (.sst (bits w 24 8) (bits w 21 2) (bits w 16 5) (bits w 11 5)) else
    none
  | 6 =>
    some (.siAdd (bits w 16 16) (bits w 11 5) (bits w 6 5))
  | 7 =>
    some (.siAnd (bits w 16 16) (bits w 11 5) (bits w 6 5))
  | 8 =>
    some (.siOr (bits w 16 16) (bits w 11 5) (bits w 6 5))
  | 9 =>
    some (.siXor (bits w 16 16) (bits w 11 5) (bits w 6 5))
  | 10 =>
    if fld w 22 10 = 0 then some (.shiftShl (bits w 16 6) (bits w 11 5) (bits w 6 5)) else
    if fld w 22 10 = 1 then some (.shiftShr (bits w 16 6) (bits w 11 5) (bits w 6 5)) else
    if fld w 22 10 = 2 then some (.shiftShra (bits w 16 6) (bits w 11 5) (bits w 6 5)) else
    if fld w 22 10 = 3 then some (.shiftRol (bits w 16 6) (bits w 11 5) (bits w 6 5)) else
    none
  | 11 =>
    some (.addhi (bits w 16 16) (bits w 11 5) (bits w 6 5))
  | 12 =>
    if fld w 6 5 = 0 then some (.bz (bits w 16 16) (bits w 11 5)) else
    if fld w 6 5 = 1 then some (.bnz (bits w 16 16) (bits w 11 5)) else
    if fld w 6 5 = 2 then some (.bltz (bits w 16 16) (bits w 11 5)) else
    if fld w 6 5 = 3 then some (.bgez (bits w 16 16) (bits w 11 5)) else
    if fld w 6 5 = 4 then some (.bgtz (bits w 16 16) (bits w 11 5)) else
    if fld w 6 5 = 5 then some (.blez (bits w 16 16) (bits w 11 5)) else
    none
  | 13 =>
    if fld w 6 4 = 0 then some (.jmp (bits w 10 22)) else
    if fld w 6 4 = 1 then some (.jumpCall (bits w 10 22)) else
    none
  | 14 =>
    if fld w 6 26 = 32768 then some (.sctlRet) else
    if fld w 6 26 = 65536 then some (.sctlExit) else
    if fld w 6 26 = 98304 then some (.sctlNop) else
    if fld w 6 26 = 131072 then some (.sctlFenceC) else
    if fld w 6 26 = 393216 then some (.sctlFenceD) else
    if fld w 6 26 = 655360 then some (.sctlFenceS) else
    if fld w 6 5 = 0 ∧ fld w 16 16 = 0 then some (.sctlJmpr (bits w 11 5)) else
    if fld w 11 21 = 250880 then some (.movsTflagsc (bits w 6 5)) else
    if fld w 6 5 = 0 ∧ fld w 16 16 = 224 then some (.sctlTret (bits w 11 5)) else
    if fld w 6 18 = 196608 then some (.sctlTrap (bits w 24 8)) else
    if fld w 11 13 = 5120 then some (.sctlMovs (bits w 24 8) (bits w 6 5)) else
    none
  | 15 =>
    if fld w 6 5 = 0 ∧ fld w 21 3 = 0 ∧ fld w 29 3 = 0 then some (.loop (bits w 24 5) (bits w 16 5) (bits w 11 5)) else
    none
  | 16 =>
    if fld w 6 26 = 64 then some (.cbar) else
    if fld w 6 26 = 80 then some (.gbar) else
    if fld w 10 3 = 1 ∧ fld w 14 18 = 0 then some (.barBara (bits w 13 1) (bits w 6 4)) else
    if fld w 10 3 = 2 ∧ fld w 14 18 = 0 then some (.barBarw (bits w 13 1) (bits w 6 4)) else
    if fld w 10 3 = 3 ∧ fld w 14 18 = 0 then some (.barBaraw (bits w 13 1) (bits w 6 4)) else
    if fld w 10 4 = 0 ∧ fld w 25 7 = 0 then some (.bari (bits w 14 11) (bits w 6 4)) else
    none
  | 17 =>
    if fld w 11 5 = 0 ∧ fld w 19 13 = 0 then some (.sxPushCe (bits w 16 3) (bits w 6 5)) else
    if fld w 11 5 = 1 ∧ fld w 19 13 = 0 then some (.sxPushXe (bits w 16 3) (bits w 6 5)) else
    if fld w 11 5 = 2 ∧ fld w 19 13 = 0 then some (.sxPushPg (bits w 16 3) (bits w 6 5)) else
    none
  | 18 =>
    if fld w 18 4 = 0 ∧ fld w 29 3 = 0 then some (.tmul (bits w 27 2) (bits w 22 5) (bits w 14 4) (bits w 10 4) (bits w 6 4)) else
    if fld w 18 4 = 0 ∧ fld w 29 3 = 2 then some (.tcmul (bits w 27 2) (bits w 22 5) (bits w 14 4) (bits w 10 4) (bits w 6 4)) else
    if fld w 18 4 = 0 ∧ fld w 29 3 = 4 then some (.tbp (bits w 27 2) (bits w 22 5) (bits w 14 4) (bits w 10 4) (bits w 6 4)) else
    if fld w 18 4 = 0 ∧ fld w 29 3 = 6 then some (.tadd (bits w 27 2) (bits w 22 5) (bits w 14 4) (bits w 10 4) (bits w 6 4)) else
    if fld w 18 4 = 0 ∧ fld w 29 3 = 7 then some (.tsub (bits w 27 2) (bits w 22 5) (bits w 14 4) (bits w 10 4) (bits w 6 4)) else
    if fld w 29 3 = 1 then some (.tmac (bits w 27 2) (bits w 22 5) (bits w 18 4) (bits w 14 4) (bits w 10 4) (bits w 6 4)) else
    if fld w 29 3 = 3 then some (.tcmulAddend (bits w 27 2) (bits w 22 5) (bits w 18 4) (bits w 14 4) (bits w 10 4) (bits w 6 4)) else
    if fld w 29 3 = 5 then some (.tsca (bits w 27 2) (bits w 22 5) (bits w 18 4) (bits w 14 4) (bits w 10 4) (bits w 6 4)) else
    none
  | 19 =>
    if fld w 6 4 = 0 ∧ fld w 14 18 = 98304 then some (.tforce (bits w 10 4)) else
    if fld w 10 22 = 2097152 then some (.tdrop (bits w 6 4)) else
    if fld w 14 8 = 0 ∧ fld w 27 5 = 8 then some (.tcvt (bits w 22 5) (bits w 10 4) (bits w 6 4)) else
    if fld w 14 8 = 0 ∧ fld w 29 3 = 0 then some (.ttr (bits w 27 2) (bits w 22 5) (bits w 10 4) (bits w 6 4)) else
    if fld w 18 4 = 0 ∧ fld w 29 3 = 1 then some (.thad (bits w 27 2) (bits w 22 5) (bits w 14 4) (bits w 10 4) (bits w 6 4)) else
    none
  | 20 =>
    if fld w 6 4 = 0 ∧ fld w 14 18 = 98304 then some (.rel (bits w 10 4)) else
    if fld w 6 4 = 0 ∧ fld w 14 4 = 0 ∧ fld w 22 10 = 256 then some (.acq (bits w 18 4) (bits w 10 4)) else
    if fld w 14 18 = 131072 then some (.tstat (bits w 10 4) (bits w 6 4)) else
    if fld w 10 4 = 0 ∧ fld w 18 4 = 0 ∧ fld w 27 5 = 20 then some (.tzero (bits w 22 5) (bits w 14 4) (bits w 6 4)) else
    if fld w 18 4 = 0 ∧ fld w 27 5 = 0 then some (.tld (bits w 22 5) (bits w 14 4) (bits w 10 4) (bits w 6 4)) else
    if fld w 18 4 = 0 ∧ fld w 27 5 = 4 then some (.tst (bits w 22 5) (bits w 14 4) (bits w 10 4) (bits w 6 4)) else
    if fld w 18 4 = 0 ∧ fld w 27 5 = 24 then some (.tfill (bits w 22 5) (bits w 14 4) (bits w 10 4) (bits w 6 4)) else
    none
  | 21 =>
    if fld w 6 5 = 0 ∧ fld w 16 16 = 32 then some (.join (bits w 11 5)) else
    if fld w 6 5 = 0 ∧ fld w 16 16 = 64 then some (.vwait (bits w 11 5)) else
    if fld w 16 16 = 0 then some (.view (bits w 11 5) (bits w 6 5)) else
    none
  | _ => none

/-- The row of a 16-bit sequencer word (R85, R86). -/
def seqRow16 (w : Nat) : Option Instr :=
  if fld w 15 1 ≠ 0 then none else
  match fld w 1 4 with
  | 0 => some (.scMov (bits w 10 5) (bits w 5 5))
  | 1 => some (.scAdd (bits w 10 5) (bits w 5 5))
  | 2 => some (.scSub (bits w 10 5) (bits w 5 5))
  | 3 => some (.scAnd (bits w 10 5) (bits w 5 5))
  | 4 => some (.scOr (bits w 10 5) (bits w 5 5))
  | 5 => some (.scXor (bits w 10 5) (bits w 5 5))
  | 6 => some (.scShl (bits w 10 5) (bits w 5 5))
  | 7 => some (.scShr (bits w 10 5) (bits w 5 5))
  | 8 => some (.scShra (bits w 10 5) (bits w 5 5))
  | 9 => some (.scMul (bits w 10 5) (bits w 5 5))
  | 10 => some (.scMin (bits w 10 5) (bits w 5 5))
  | 11 => some (.scMax (bits w 10 5) (bits w 5 5))
  | 12 => some (.scMinu (bits w 10 5) (bits w 5 5))
  | 13 => some (.scMaxu (bits w 10 5) (bits w 5 5))
  | 14 => some (.scNeg (bits w 10 5) (bits w 5 5))
  | 15 => some (.scNot (bits w 10 5) (bits w 5 5))
  | _ => none

/-- Keeps a row whose fields are well formed. -/
def checked (r : Option Instr) : Option Instr :=
  match r with
  | some i => if i.wf then some i else none
  | none => none

/-- The lane decoder. w holds the first halfword in its low 16 bits; a 32-bit instruction also uses the next
16 (R65). -/
def decodeLane (w : Nat) : Except Undecoded Instr :=
  match checked (if w % 2 = 0 then laneRow16 (w % 2 ^ 16) else laneRow32 (w % 2 ^ 32)) with
  | some i => .ok i
  | none => .error (if laneReserved w then .reserved else .undefined)

/-- The sequencer decoder, as decodeLane. -/
def decodeSeq (w : Nat) : Except Undecoded Instr :=
  match checked (if w % 2 = 0 then seqRow16 (w % 2 ^ 16) else seqRow32 (w % 2 ^ 32)) with
  | some i => .ok i
  | none => .error (if seqReserved w then .reserved else .undefined)

/-- The instruction that a table row's word decodes to. One word may be an instruction of both streams; the
lane map is asked first (log entry 11). -/
def decodeTableWord (nbits w : Nat) : Option Instr :=
  match decodeLane (w % 2 ^ nbits) with
  | .ok i => some i
  | .error _ =>
    match decodeSeq (w % 2 ^ nbits) with
    | .ok i => some i
    | .error _ => none

/-- The word of an instruction, from the same tables. An event has none. -/
def encode (i : Instr) : Option Nat :=
  match i with
  | .add r u t b a d => some (3 + d.toNat * 64 + a.toNat * 4096 + b.toNat * 262144 + t.toNat * 134217728 + u.toNat * 1073741824 + r.toNat * 2147483648)
  | .sub r u t b a d => some (16777219 + d.toNat * 64 + a.toNat * 4096 + b.toNat * 262144 + t.toNat * 134217728 + u.toNat * 1073741824 + r.toNat * 2147483648)
  | .mul r u t b a d => some (33554435 + d.toNat * 64 + a.toNat * 4096 + b.toNat * 262144 + t.toNat * 134217728 + u.toNat * 1073741824 + r.toNat * 2147483648)
  | .mulh r u t b a d => some (50331651 + d.toNat * 64 + a.toNat * 4096 + b.toNat * 262144 + t.toNat * 134217728 + u.toNat * 1073741824 + r.toNat * 2147483648)
  | .min r u t b a d => some (67108867 + d.toNat * 64 + a.toNat * 4096 + b.toNat * 262144 + t.toNat * 134217728 + u.toNat * 1073741824 + r.toNat * 2147483648)
  | .max r u t b a d => some (83886083 + d.toNat * 64 + a.toNat * 4096 + b.toNat * 262144 + t.toNat * 134217728 + u.toNat * 1073741824 + r.toNat * 2147483648)
  | .adds r u t b a d => some (100663299 + d.toNat * 64 + a.toNat * 4096 + b.toNat * 262144 + t.toNat * 134217728 + u.toNat * 1073741824 + r.toNat * 2147483648)
  | .subs r u t b a d => some (117440515 + d.toNat * 64 + a.toNat * 4096 + b.toNat * 262144 + t.toNat * 134217728 + u.toNat * 1073741824 + r.toNat * 2147483648)
  | .and r u b a d => some (5 + d.toNat * 64 + a.toNat * 4096 + b.toNat * 262144 + u.toNat * 1073741824 + r.toNat * 2147483648)
  | .or r u b a d => some (16777221 + d.toNat * 64 + a.toNat * 4096 + b.toNat * 262144 + u.toNat * 1073741824 + r.toNat * 2147483648)
  | .xor r u b a d => some (33554437 + d.toNat * 64 + a.toNat * 4096 + b.toNat * 262144 + u.toNat * 1073741824 + r.toNat * 2147483648)
  | .andn r u b a d => some (50331653 + d.toNat * 64 + a.toNat * 4096 + b.toNat * 262144 + u.toNat * 1073741824 + r.toNat * 2147483648)
  | .shl r u t b a d => some (67108869 + d.toNat * 64 + a.toNat * 4096 + b.toNat * 262144 + t.toNat * 134217728 + u.toNat * 1073741824 + r.toNat * 2147483648)
  | .shr r u t b a d => some (83886085 + d.toNat * 64 + a.toNat * 4096 + b.toNat * 262144 + t.toNat * 134217728 + u.toNat * 1073741824 + r.toNat * 2147483648)
  | .shra r u t b a d => some (83886085 + d.toNat * 64 + a.toNat * 4096 + b.toNat * 262144 + t.toNat * 134217728 + u.toNat * 1073741824 + r.toNat * 2147483648)
  | .rol r u t b a d => some (100663301 + d.toNat * 64 + a.toNat * 4096 + b.toNat * 262144 + t.toNat * 134217728 + u.toNat * 1073741824 + r.toNat * 2147483648)
  | .sel r u p b a d => some (117440517 + d.toNat * 64 + a.toNat * 4096 + b.toNat * 262144 + p.toNat * 134217728 + u.toNat * 1073741824 + r.toNat * 2147483648)
  | .div r u t b a d => some (7 + d.toNat * 64 + a.toNat * 4096 + b.toNat * 262144 + t.toNat * 134217728 + u.toNat * 1073741824 + r.toNat * 2147483648)
  | .rem r u t b a d => some (16777223 + d.toNat * 64 + a.toNat * 4096 + b.toNat * 262144 + t.toNat * 134217728 + u.toNat * 1073741824 + r.toNat * 2147483648)
  | .clz r u t a d => some (33554439 + d.toNat * 64 + a.toNat * 4096 + t.toNat * 134217728 + u.toNat * 1073741824 + r.toNat * 2147483648)
  | .popc r u t a d => some (50331655 + d.toNat * 64 + a.toNat * 4096 + t.toNat * 134217728 + u.toNat * 1073741824 + r.toNat * 2147483648)
  | .brev r u t a d => some (67108871 + d.toNat * 64 + a.toNat * 4096 + t.toNat * 134217728 + u.toNat * 1073741824 + r.toNat * 2147483648)
  | .abs r u t a d => some (83886087 + d.toNat * 64 + a.toNat * 4096 + t.toNat * 134217728 + u.toNat * 1073741824 + r.toNat * 2147483648)
  | .absd r u t b a d => some (100663303 + d.toNat * 64 + a.toNat * 4096 + b.toNat * 262144 + t.toNat * 134217728 + u.toNat * 1073741824 + r.toNat * 2147483648)
  | .cmp r u t b a c p => some (117440519 + p.toNat * 64 + c.toNat * 512 + a.toNat * 4096 + b.toNat * 262144 + t.toNat * 134217728 + u.toNat * 1073741824 + r.toNat * 2147483648)
  | .addi w i a d => some (9 + d.toNat * 64 + a.toNat * 4096 + i.toNat * 262144 + w.toNat * 1073741824)
  | .logiAnd i a d => some (11 + d.toNat * 64 + a.toNat * 4096 + i.toNat * 262144)
  | .logiOr i a d => some (1073741835 + d.toNat * 64 + a.toNat * 4096 + i.toNat * 262144)
  | .logiXor i a d => some (2147483659 + d.toNat * 64 + a.toNat * 4096 + i.toNat * 262144)
  | .logiAndn i a d => some (3221225483 + d.toNat * 64 + a.toNat * 4096 + i.toNat * 262144)
  | .shfiShl w n a d => some (13 + d.toNat * 64 + a.toNat * 4096 + n.toNat * 262144 + w.toNat * 1073741824)
  | .shfiShr w n a d => some (16777229 + d.toNat * 64 + a.toNat * 4096 + n.toNat * 262144 + w.toNat * 1073741824)
  | .shfiShra w n a d => some (33554445 + d.toNat * 64 + a.toNat * 4096 + n.toNat * 262144 + w.toNat * 1073741824)
  | .shfiRol w n a d => some (50331661 + d.toNat * 64 + a.toNat * 4096 + n.toNat * 262144 + w.toNat * 1073741824)
  | .cmpi w i a c p => some (15 + p.toNat * 64 + c.toNat * 512 + a.toNat * 4096 + i.toNat * 262144 + w.toNat * 1073741824)
  | .fahAdd r u s m b a d => some (17 + d.toNat * 64 + a.toNat * 4096 + b.toNat * 262144 + m.toNat * 134217728 + s.toNat * 536870912 + u.toNat * 1073741824 + r.toNat * 2147483648)
  | .fahSub r u s m b a d => some (16777233 + d.toNat * 64 + a.toNat * 4096 + b.toNat * 262144 + m.toNat * 134217728 + s.toNat * 536870912 + u.toNat * 1073741824 + r.toNat * 2147483648)
  | .fahMul r u s m b a d => some (33554449 + d.toNat * 64 + a.toNat * 4096 + b.toNat * 262144 + m.toNat * 134217728 + s.toNat * 536870912 + u.toNat * 1073741824 + r.toNat * 2147483648)
  | .fahDiv r u s m b a d => some (50331665 + d.toNat * 64 + a.toNat * 4096 + b.toNat * 262144 + m.toNat * 134217728 + s.toNat * 536870912 + u.toNat * 1073741824 + r.toNat * 2147483648)
  | .fahMin r u s b a d => some (67108881 + d.toNat * 64 + a.toNat * 4096 + b.toNat * 262144 + s.toNat * 536870912 + u.toNat * 1073741824 + r.toNat * 2147483648)
  | .fahMax r u s b a d => some (83886097 + d.toNat * 64 + a.toNat * 4096 + b.toNat * 262144 + s.toNat * 536870912 + u.toNat * 1073741824 + r.toNat * 2147483648)
  | .fahSqrt r u s m a d => some (100663313 + d.toNat * 64 + a.toNat * 4096 + m.toNat * 134217728 + s.toNat * 536870912 + u.toNat * 1073741824 + r.toNat * 2147483648)
  | .fahCpsgn r u s b a d => some (117440529 + d.toNat * 64 + a.toNat * 4096 + b.toNat * 262144 + s.toNat * 536870912 + u.toNat * 1073741824 + r.toNat * 2147483648)
  | .fawAdd r u s m b a d => some (19 + d.toNat * 64 + a.toNat * 4096 + b.toNat * 262144 + m.toNat * 134217728 + s.toNat * 536870912 + u.toNat * 1073741824 + r.toNat * 2147483648)
  | .fawSub r u s m b a d => some (16777235 + d.toNat * 64 + a.toNat * 4096 + b.toNat * 262144 + m.toNat * 134217728 + s.toNat * 536870912 + u.toNat * 1073741824 + r.toNat * 2147483648)
  | .fawMul r u s m b a d => some (33554451 + d.toNat * 64 + a.toNat * 4096 + b.toNat * 262144 + m.toNat * 134217728 + s.toNat * 536870912 + u.toNat * 1073741824 + r.toNat * 2147483648)
  | .fawDiv r u s m b a d => some (50331667 + d.toNat * 64 + a.toNat * 4096 + b.toNat * 262144 + m.toNat * 134217728 + s.toNat * 536870912 + u.toNat * 1073741824 + r.toNat * 2147483648)
  | .fawMin r u s b a d => some (67108883 + d.toNat * 64 + a.toNat * 4096 + b.toNat * 262144 + s.toNat * 536870912 + u.toNat * 1073741824 + r.toNat * 2147483648)
  | .fawMax r u s b a d => some (83886099 + d.toNat * 64 + a.toNat * 4096 + b.toNat * 262144 + s.toNat * 536870912 + u.toNat * 1073741824 + r.toNat * 2147483648)
  | .fawSqrt r u s m a d => some (100663315 + d.toNat * 64 + a.toNat * 4096 + m.toNat * 134217728 + s.toNat * 536870912 + u.toNat * 1073741824 + r.toNat * 2147483648)
  | .fawCpsgn r u s b a d => some (117440531 + d.toNat * 64 + a.toNat * 4096 + b.toNat * 262144 + s.toNat * 536870912 + u.toNat * 1073741824 + r.toNat * 2147483648)
  | .rcp r u t a d => some (21 + d.toNat * 64 + a.toNat * 4096 + t.toNat * 134217728 + u.toNat * 1073741824 + r.toNat * 2147483648)
  | .rsq r u t a d => some (16777237 + d.toNat * 64 + a.toNat * 4096 + t.toNat * 134217728 + u.toNat * 1073741824 + r.toNat * 2147483648)
  | .exp2 r u t a d => some (33554453 + d.toNat * 64 + a.toNat * 4096 + t.toNat * 134217728 + u.toNat * 1073741824 + r.toNat * 2147483648)
  | .log2 r u t a d => some (50331669 + d.toNat * 64 + a.toNat * 4096 + t.toNat * 134217728 + u.toNat * 1073741824 + r.toNat * 2147483648)
  | .sin r u t a d => some (67108885 + d.toNat * 64 + a.toNat * 4096 + t.toNat * 134217728 + u.toNat * 1073741824 + r.toNat * 2147483648)
  | .cos r u t a d => some (83886101 + d.toNat * 64 + a.toNat * 4096 + t.toNat * 134217728 + u.toNat * 1073741824 + r.toNat * 2147483648)
  | .tanh r u t a d => some (100663317 + d.toNat * 64 + a.toNat * 4096 + t.toNat * 134217728 + u.toNat * 1073741824 + r.toNat * 2147483648)
  | .fspecCmp r u t b a c p => some (117440533 + p.toNat * 64 + c.toNat * 512 + a.toNat * 4096 + b.toNat * 262144 + t.toNat * 134217728 + u.toNat * 1073741824 + r.toNat * 2147483648)
  | .fma m s c b a d => some (23 + d.toNat * 64 + a.toNat * 4096 + b.toNat * 262144 + c.toNat * 16777216 + s.toNat * 536870912 + m.toNat * 1073741824)
  | .cvt r u t e m s a d => some (25 + d.toNat * 64 + a.toNat * 4096 + s.toNat * 262144 + m.toNat * 4194304 + e.toNat * 16777216 + t.toNat * 134217728 + u.toNat * 1073741824 + r.toNat * 2147483648)
  | .cvts r u t s a d => some (33554457 + d.toNat * 64 + a.toNat * 4096 + s.toNat * 262144 + t.toNat * 134217728 + u.toNat * 1073741824 + r.toNat * 2147483648)
  | .cvtw r u t s a d => some (67108889 + d.toNat * 64 + a.toNat * 4096 + s.toNat * 262144 + t.toNat * 134217728 + u.toNat * 1073741824 + r.toNat * 2147483648)
  | .npk r u s m f a d => some (27 + d.toNat * 64 + a.toNat * 4096 + f.toNat * 262144 + m.toNat * 134217728 + s.toNat * 536870912 + u.toNat * 1073741824 + r.toNat * 2147483648)
  | .nunp r u s f a d => some (16777243 + d.toNat * 64 + a.toNat * 4096 + f.toNat * 262144 + s.toNat * 536870912 + u.toNat * 1073741824 + r.toNat * 2147483648)
  | .qnt r u s b a d => some (33554459 + d.toNat * 64 + a.toNat * 4096 + b.toNat * 262144 + s.toNat * 536870912 + u.toNat * 1073741824 + r.toNat * 2147483648)
  | .dqnt r u s m b a d => some (50331675 + d.toNat * 64 + a.toNat * 4096 + b.toNat * 262144 + m.toNat * 134217728 + s.toNat * 536870912 + u.toNat * 1073741824 + r.toNat * 2147483648)
  | .toe8 r u s a d => some (67108891 + d.toNat * 64 + a.toNat * 4096 + s.toNat * 536870912 + u.toNat * 1073741824 + r.toNat * 2147483648)
  | .fre8 r u s m a d => some (83886107 + d.toNat * 64 + a.toNat * 4096 + m.toNat * 134217728 + s.toNat * 536870912 + u.toNat * 1073741824 + r.toNat * 2147483648)
  | .shfl r u w b a d => some (29 + d.toNat * 64 + a.toNat * 4096 + b.toNat * 262144 + w.toNat * 134217728 + u.toNat * 1073741824 + r.toNat * 2147483648)
  | .shflx r u w b a d => some (16777245 + d.toNat * 64 + a.toNat * 4096 + b.toNat * 262144 + w.toNat * 134217728 + u.toNat * 1073741824 + r.toNat * 2147483648)
  | .shflu r u w b a d => some (33554461 + d.toNat * 64 + a.toNat * 4096 + b.toNat * 262144 + w.toNat * 134217728 + u.toNat * 1073741824 + r.toNat * 2147483648)
  | .shfld r u w b a d => some (50331677 + d.toNat * 64 + a.toNat * 4096 + b.toNat * 262144 + w.toNat * 134217728 + u.toNat * 1073741824 + r.toNat * 2147483648)
  | .voteAny r u s p => some (67108893 + p.toNat * 64 + s.toNat * 262144 + u.toNat * 1073741824 + r.toNat * 2147483648)
  | .voteAll r u s p => some (201326621 + p.toNat * 64 + s.toNat * 262144 + u.toNat * 1073741824 + r.toNat * 2147483648)
  | .voteBallot r u s d => some (335544349 + d.toNat * 64 + s.toNat * 262144 + u.toNat * 1073741824 + r.toNat * 2147483648)
  | .matchLanes r u w b a d => some (83886109 + d.toNat * 64 + a.toNat * 4096 + b.toNat * 262144 + w.toNat * 134217728 + u.toNat * 1073741824 + r.toNat * 2147483648)
  | .rdc r u o t a d => some (100663325 + d.toNat * 64 + a.toNat * 4096 + t.toNat * 262144 + o.toNat * 134217728 + u.toNat * 1073741824 + r.toNat * 2147483648)
  | .scan r u o t a d => some (117440541 + d.toNat * 64 + a.toNat * 4096 + t.toNat * 262144 + o.toNat * 134217728 + u.toNat * 1073741824 + r.toNat * 2147483648)
  | .xiShfl w l s a d => some (31 + d.toNat * 64 + a.toNat * 4096 + s.toNat * 2097152 + l.toNat * 16777216 + w.toNat * 1073741824)
  | .xiShflx w l a d => some (262175 + d.toNat * 64 + a.toNat * 4096 + l.toNat * 16777216 + w.toNat * 1073741824)
  | .xiShflu w l a d => some (524319 + d.toNat * 64 + a.toNat * 4096 + l.toNat * 16777216 + w.toNat * 1073741824)
  | .xiShfld w l a d => some (786463 + d.toNat * 64 + a.toNat * 4096 + l.toNat * 16777216 + w.toNat * 1073741824)
  | .lu i d => some (33 + d.toNat * 64 + i.toNat * 4096)
  | .atom r u t o b a d => some (35 + d.toNat * 64 + a.toNat * 4096 + b.toNat * 262144 + o.toNat * 16777216 + t.toNat * 134217728 + u.toNat * 1073741824 + r.toNat * 2147483648)
  | .redD r u t o b a => some (37 + a.toNat * 4096 + b.toNat * 262144 + o.toNat * 16777216 + t.toNat * 134217728 + u.toNat * 1073741824 + r.toNat * 2147483648)
  | .ld8 h o b d => some (39 + d.toNat * 64 + b.toNat * 4096 + o.toNat * 262144 + h.toNat * 1073741824)
  | .ld16 h o b d => some (41 + d.toNat * 64 + b.toNat * 4096 + o.toNat * 262144 + h.toNat * 1073741824)
  | .ld32 h o b d => some (43 + d.toNat * 64 + b.toNat * 4096 + o.toNat * 262144 + h.toNat * 1073741824)
  | .ld64 h o b d => some (45 + d.toNat * 64 + b.toNat * 4096 + o.toNat * 262144 + h.toNat * 1073741824)
  | .ldv128 h o b d => some (111 + d.toNat * 128 + b.toNat * 4096 + o.toNat * 262144 + h.toNat * 1073741824)
  | .ldv256 h o b d => some (175 + d.toNat * 256 + b.toNat * 4096 + o.toNat * 262144 + h.toNat * 1073741824)
  | .ldv512 h o b d => some (303 + d.toNat * 512 + b.toNat * 4096 + o.toNat * 262144 + h.toNat * 1073741824)
  | .st8 h o b d => some (49 + d.toNat * 64 + b.toNat * 4096 + o.toNat * 262144 + h.toNat * 1073741824)
  | .st16 h o b d => some (51 + d.toNat * 64 + b.toNat * 4096 + o.toNat * 262144 + h.toNat * 1073741824)
  | .st32 h o b d => some (53 + d.toNat * 64 + b.toNat * 4096 + o.toNat * 262144 + h.toNat * 1073741824)
  | .st64 h o b d => some (55 + d.toNat * 64 + b.toNat * 4096 + o.toNat * 262144 + h.toNat * 1073741824)
  | .stv128 h o b d => some (121 + d.toNat * 128 + b.toNat * 4096 + o.toNat * 262144 + h.toNat * 1073741824)
  | .stv256 h o b d => some (185 + d.toNat * 256 + b.toNat * 4096 + o.toNat * 262144 + h.toNat * 1073741824)
  | .stv512 h o b d => some (313 + d.toNat * 512 + b.toNat * 4096 + o.toNat * 262144 + h.toNat * 1073741824)
  | .movs s d => some (59 + d.toNat * 64 + s.toNat * 262144)
  | .setsStklim a => some (1077411899 + a.toNat * 4096)
  | .setsLepc a => some (1079246907 + a.toNat * 4096)
  | .setsLflags a => some (1079771195 + a.toNat * 4096)
  | .setsBmode a => some (1080557627 + a.toNat * 4096)
  | .trap n => some (2197815355 + n.toNat * 262144)
  | .jmpr a => some (2214592571 + a.toNat * 4096)
  | .ret a => some (2231369787 + a.toNat * 4096)
  | .enter n => some (2248147003 + n.toNat * 262144)
  | .leave n => some (2264924219 + n.toNat * 262144)
  | .ppack d => some (2281701435 + d.toNat * 64)
  | .punpk a => some (2298478651 + a.toNat * 4096)
  | .pfi o => some (2332033083 + o.toNat * 262144)
  | .prfL1 a => some (2348810299 + a.toNat * 4096)
  | .prfMsc a => some (2349072443 + a.toNat * 4096)
  | .stp f a d => some (2365587515 + d.toNat * 64 + a.toNat * 4096 + f.toNat * 262144)
  | .pushCe p d => some (2382364731 + d.toNat * 64 + p.toNat * 2097152)
  | .pushXe p d => some (2382626875 + d.toNat * 64 + p.toNat * 2097152)
  | .pushPg p d => some (2382889019 + d.toNat * 64 + p.toNat * 2097152)
  | .bara b => some (2399141947 + b.toNat * 262144)
  | .barw b => some (2415919163 + b.toNat * 262144)
  | .baraw b => some (2432696379 + b.toNat * 262144)
  | .vget n d => some (2449473595 + d.toNat * 64 + n.toNat * 262144)
  | .vput n a => some (2466250811 + a.toNat * 4096 + n.toNat * 262144)
  | .bra o => some (61 + o.toNat * 1024)
  | .brc o p => some (61 + p.toNat * 64 + o.toNat * 1024)
  | .brcF o p => some (573 + p.toNat * 64 + o.toNat * 1024)
  | .call o => some (573 + o.toNat * 1024)
  | .qrn r u b a d => some (63 + d.toNat * 64 + a.toNat * 4096 + b.toNat * 262144 + u.toNat * 1073741824 + r.toNat * 2147483648)
  | .qrnf r u b a d => some (16777279 + d.toNat * 64 + a.toNat * 4096 + b.toNat * 262144 + u.toNat * 1073741824 + r.toNat * 2147483648)
  | .qrseed r u b a d => some (33554495 + d.toNat * 64 + a.toNat * 4096 + b.toNat * 262144 + u.toNat * 1073741824 + r.toNat * 2147483648)
  | .lcMov b d => some (0 + d.toNat * 32 + b.toNat * 2048)
  | .lcAddI32 b d => some (2 + d.toNat * 32 + b.toNat * 2048)
  | .lcSubI32 b d => some (4 + d.toNat * 32 + b.toNat * 2048)
  | .lcAnd b d => some (6 + d.toNat * 32 + b.toNat * 2048)
  | .lcOr b d => some (8 + d.toNat * 32 + b.toNat * 2048)
  | .lcXor b d => some (10 + d.toNat * 32 + b.toNat * 2048)
  | .lcShlI32 b d => some (12 + d.toNat * 32 + b.toNat * 2048)
  | .lcShrN32 b d => some (14 + d.toNat * 32 + b.toNat * 2048)
  | .lcShraI32 b d => some (16 + d.toNat * 32 + b.toNat * 2048)
  | .lcAddF32 b d => some (18 + d.toNat * 32 + b.toNat * 2048)
  | .lcSubF32 b d => some (20 + d.toNat * 32 + b.toNat * 2048)
  | .lcMulF32 b d => some (22 + d.toNat * 32 + b.toNat * 2048)
  | .lcMinF32 b d => some (24 + d.toNat * 32 + b.toNat * 2048)
  | .lcMaxF32 b d => some (26 + d.toNat * 32 + b.toNat * 2048)
  | .lcAddI64 b d => some (28 + d.toNat * 32 + b.toNat * 2048)
  | .lcNegF32 b d => some (30 + d.toNat * 32 + b.toNat * 2048)
  | .saluAdd b a d => some (3 + d.toNat * 64 + a.toNat * 2048 + b.toNat * 65536)
  | .saluSub b a d => some (2097155 + d.toNat * 64 + a.toNat * 2048 + b.toNat * 65536)
  | .saluAnd b a d => some (4194307 + d.toNat * 64 + a.toNat * 2048 + b.toNat * 65536)
  | .saluOr b a d => some (6291459 + d.toNat * 64 + a.toNat * 2048 + b.toNat * 65536)
  | .saluXor b a d => some (8388611 + d.toNat * 64 + a.toNat * 2048 + b.toNat * 65536)
  | .saluShl b a d => some (10485763 + d.toNat * 64 + a.toNat * 2048 + b.toNat * 65536)
  | .saluShr b a d => some (12582915 + d.toNat * 64 + a.toNat * 2048 + b.toNat * 65536)
  | .saluShra b a d => some (14680067 + d.toNat * 64 + a.toNat * 2048 + b.toNat * 65536)
  | .smulMul b a d => some (5 + d.toNat * 64 + a.toNat * 2048 + b.toNat * 65536)
  | .smulMulhs b a d => some (2097157 + d.toNat * 64 + a.toNat * 2048 + b.toNat * 65536)
  | .smulMulhu b a d => some (4194309 + d.toNat * 64 + a.toNat * 2048 + b.toNat * 65536)
  | .smulDiv b a d => some (6291461 + d.toNat * 64 + a.toNat * 2048 + b.toNat * 65536)
  | .smulDivu b a d => some (8388613 + d.toNat * 64 + a.toNat * 2048 + b.toNat * 65536)
  | .smulRem b a d => some (10485765 + d.toNat * 64 + a.toNat * 2048 + b.toNat * 65536)
  | .smulRemu b a d => some (12582917 + d.toNat * 64 + a.toNat * 2048 + b.toNat * 65536)
  | .scmpMin b a d => some (7 + d.toNat * 64 + a.toNat * 2048 + b.toNat * 65536)
  | .scmpMax b a d => some (2097159 + d.toNat * 64 + a.toNat * 2048 + b.toNat * 65536)
  | .scmpMinu b a d => some (4194311 + d.toNat * 64 + a.toNat * 2048 + b.toNat * 65536)
  | .scmpMaxu b a d => some (6291463 + d.toNat * 64 + a.toNat * 2048 + b.toNat * 65536)
  | .scmpSlt b a d => some (8388615 + d.toNat * 64 + a.toNat * 2048 + b.toNat * 65536)
  | .scmpSltu b a d => some (10485767 + d.toNat * 64 + a.toNat * 2048 + b.toNat * 65536)
  | .scmpSeq b a d => some (12582919 + d.toNat * 64 + a.toNat * 2048 + b.toNat * 65536)
  | .sld i f a d => some (9 + d.toNat * 64 + a.toNat * 2048 + f.toNat * 2097152 + i.toNat * 16777216)
  | .sst i w b a => some (11 + a.toNat * 2048 + b.toNat * 65536 + w.toNat * 2097152 + i.toNat * 16777216)
  | .siAdd i a d => some (13 + d.toNat * 64 + a.toNat * 2048 + i.toNat * 65536)
  | .siAnd i a d => some (15 + d.toNat * 64 + a.toNat * 2048 + i.toNat * 65536)
  | .siOr i a d => some (17 + d.toNat * 64 + a.toNat * 2048 + i.toNat * 65536)
  | .siXor i a d => some (19 + d.toNat * 64 + a.toNat * 2048 + i.toNat * 65536)
  | .shiftShl n a d => some (21 + d.toNat * 64 + a.toNat * 2048 + n.toNat * 65536)
  | .shiftShr n a d => some (4194325 + d.toNat * 64 + a.toNat * 2048 + n.toNat * 65536)
  | .shiftShra n a d => some (8388629 + d.toNat * 64 + a.toNat * 2048 + n.toNat * 65536)
  | .shiftRol n a d => some (12582933 + d.toNat * 64 + a.toNat * 2048 + n.toNat * 65536)
  | .addhi i a d => some (23 + d.toNat * 64 + a.toNat * 2048 + i.toNat * 65536)
  | .bz i a => some (25 + a.toNat * 2048 + i.toNat * 65536)
  | .bnz i a => some (89 + a.toNat * 2048 + i.toNat * 65536)
  | .bltz i a => some (153 + a.toNat * 2048 + i.toNat * 65536)
  | .bgez i a => some (217 + a.toNat * 2048 + i.toNat * 65536)
  | .bgtz i a => some (281 + a.toNat * 2048 + i.toNat * 65536)
  | .blez i a => some (345 + a.toNat * 2048 + i.toNat * 65536)
  | .jmp o => some (27 + o.toNat * 1024)
  | .jumpCall o => some (91 + o.toNat * 1024)
  | .sctlJmpr a => some (29 + a.toNat * 2048)
  | .sctlMovs s d => some (10485789 + d.toNat * 64 + s.toNat * 16777216)
  | .movsTflagsc d => some (513802269 + d.toNat * 64)
  | .sctlTrap n => some (12582941 + n.toNat * 16777216)
  | .sctlTret a => some (14680093 + a.toNat * 2048)
  | .loop n b a => some (31 + a.toNat * 2048 + b.toNat * 65536 + n.toNat * 16777216)
  | .bari c b => some (33 + b.toNat * 64 + c.toNat * 16384)
  | .barBara f b => some (1057 + b.toNat * 64 + f.toNat * 8192)
  | .barBarw f b => some (2081 + b.toNat * 64 + f.toNat * 8192)
  | .barBaraw f b => some (3105 + b.toNat * 64 + f.toNat * 8192)
  | .sxPushCe f d => some (35 + d.toNat * 64 + f.toNat * 65536)
  | .sxPushXe f d => some (2083 + d.toNat * 64 + f.toNat * 65536)
  | .sxPushPg f d => some (4131 + d.toNat * 64 + f.toNat * 65536)
  | .tmul c m b a d => some (37 + d.toNat * 64 + a.toNat * 1024 + b.toNat * 16384 + m.toNat * 4194304 + c.toNat * 134217728)
  | .tmac c m x b a d => some (536870949 + d.toNat * 64 + a.toNat * 1024 + b.toNat * 16384 + x.toNat * 262144 + m.toNat * 4194304 + c.toNat * 134217728)
  | .tcmul c m b a d => some (1073741861 + d.toNat * 64 + a.toNat * 1024 + b.toNat * 16384 + m.toNat * 4194304 + c.toNat * 134217728)
  | .tcmulAddend c m x b a d => some (1610612773 + d.toNat * 64 + a.toNat * 1024 + b.toNat * 16384 + x.toNat * 262144 + m.toNat * 4194304 + c.toNat * 134217728)
  | .tbp c m b a d => some (2147483685 + d.toNat * 64 + a.toNat * 1024 + b.toNat * 16384 + m.toNat * 4194304 + c.toNat * 134217728)
  | .tsca c m x b a d => some (2684354597 + d.toNat * 64 + a.toNat * 1024 + b.toNat * 16384 + x.toNat * 262144 + m.toNat * 4194304 + c.toNat * 134217728)
  | .tadd c m b a d => some (3221225509 + d.toNat * 64 + a.toNat * 1024 + b.toNat * 16384 + m.toNat * 4194304 + c.toNat * 134217728)
  | .tsub c m b a d => some (3758096421 + d.toNat * 64 + a.toNat * 1024 + b.toNat * 16384 + m.toNat * 4194304 + c.toNat * 134217728)
  | .ttr c m a d => some (39 + d.toNat * 64 + a.toNat * 1024 + m.toNat * 4194304 + c.toNat * 134217728)
  | .thad c m b a d => some (536870951 + d.toNat * 64 + a.toNat * 1024 + b.toNat * 16384 + m.toNat * 4194304 + c.toNat * 134217728)
  | .tcvt m a d => some (1073741863 + d.toNat * 64 + a.toNat * 1024 + m.toNat * 4194304)
  | .tforce a => some (1610612775 + a.toNat * 1024)
  | .tdrop d => some (2147483687 + d.toNat * 64)
  | .tld m b a d => some (41 + d.toNat * 64 + a.toNat * 1024 + b.toNat * 16384 + m.toNat * 4194304)
  | .tst m b a d => some (536870953 + d.toNat * 64 + a.toNat * 1024 + b.toNat * 16384 + m.toNat * 4194304)
  | .acq n a => some (1073741865 + a.toNat * 1024 + n.toNat * 262144)
  | .rel a => some (1610612777 + a.toNat * 1024)
  | .tstat a d => some (2147483689 + d.toNat * 64 + a.toNat * 1024)
  | .tzero m b d => some (2684354601 + d.toNat * 64 + b.toNat * 16384 + m.toNat * 4194304)
  | .tfill m b a d => some (3221225513 + d.toNat * 64 + a.toNat * 1024 + b.toNat * 16384 + m.toNat * 4194304)
  | .view a d => some (43 + d.toNat * 64 + a.toNat * 2048)
  | .join a => some (2097195 + a.toNat * 2048)
  | .vwait a => some (4194347 + a.toNat * 2048)
  | .scMov b d => some (0 + d.toNat * 32 + b.toNat * 1024)
  | .scAdd b d => some (2 + d.toNat * 32 + b.toNat * 1024)
  | .scSub b d => some (4 + d.toNat * 32 + b.toNat * 1024)
  | .scAnd b d => some (6 + d.toNat * 32 + b.toNat * 1024)
  | .scOr b d => some (8 + d.toNat * 32 + b.toNat * 1024)
  | .scXor b d => some (10 + d.toNat * 32 + b.toNat * 1024)
  | .scShl b d => some (12 + d.toNat * 32 + b.toNat * 1024)
  | .scShr b d => some (14 + d.toNat * 32 + b.toNat * 1024)
  | .scShra b d => some (16 + d.toNat * 32 + b.toNat * 1024)
  | .scMul b d => some (18 + d.toNat * 32 + b.toNat * 1024)
  | .scMin b d => some (20 + d.toNat * 32 + b.toNat * 1024)
  | .scMax b d => some (22 + d.toNat * 32 + b.toNat * 1024)
  | .scMinu b d => some (24 + d.toNat * 32 + b.toNat * 1024)
  | .scMaxu b d => some (26 + d.toNat * 32 + b.toNat * 1024)
  | .scNeg b d => some (28 + d.toNat * 32 + b.toNat * 1024)
  | .scNot b d => some (30 + d.toNat * 32 + b.toNat * 1024)
  | .nop => some (2147483707)
  | .yld => some (2164260923)
  | .exit => some (2181038139)
  | .fenceC => some (2315255867)
  | .fenceD => some (2315518011)
  | .fenceS => some (2315780155)
  | .tret => some (2483028027)
  | .sctlRet => some (2097181)
  | .sctlExit => some (4194333)
  | .sctlNop => some (6291485)
  | .sctlFenceC => some (8388637)
  | .sctlFenceD => some (25165853)
  | .sctlFenceS => some (41943069)
  | .cbar => some (4129)
  | .gbar => some (5153)
  | .breakpointMatch => none
  | .releaseWaitEnd => none
  | .launch => none
  | .create => none
  | .update => none
  | .move => none
  | .resume => none
  | .destroy => none
  | .capstart => none
  | .capstop => none
  | .capstopComplete => none
  | .ethernetFrame => none
  | .qtailWrite => none
  | .queueEnable => none
  | .queueDisable => none
  | .errClear => none
  | .vectorUnmask => none
  | .tlbinv => none
  | .mbdoor => none
  | .registerWrite => none
  | .stopSlotFree => none
  | .stopSlotScan => none
  | .dependenceReread => none
  | .teamPlacement => none
  | .loadingComplete => none
  | .quantumExpiry => none
  | .swapOut => none
  | .exitActions => none
  | .gridEnd => none
  | .contextLoaded => none
  | .erasureComplete => none
  | .forceEvaluation => none
  | .acqGrant => none
  | .waitingAccessPerform => none
  | .bankModeSwitch => none
  | .copy => none
  | .copy2d => none
  | .gather => none
  | .scatter => none
  | .fill => none
  | .planes => none
  | .pgMove => none
  | .pgPin => none
  | .pgClrcnt => none
  | .demotion => none
  | .pageReadback => none
  | .forwardedAccess => none
  | .regenerationComplete => none
  | .allred => none
  | .redscat => none
  | .allgath => none
  | .bcast => none
  | .send => none
  | .recv => none
  | .collectiveBegin => none
  | .collectiveComplete => none
  | .tickBoundary => none
  | .raiseSuspicion => none
  | .viewInstallation => none
  | .joinNotice => none
  | .viewrec => none
  | .servoOffsetExceeded => none
  | .portEnable => none
  | .portUp => none
  | .trainingTimeout => none
  | .lossOfSignal => none
  | .portDisable => none
  | .chipStop => none
  | .moduleReset => none
  | .warmReset => none
  | .lifeCycleChange => none
  | .hostAccess => none
  | .rollback => none
  | .auditReplay => none
  | .softRepair => none
  | .repairQuiesceEnd => none
  | .hardRepair => none
  | .ageingThreshold => none
  | .loadRequest => none
  | .translation => none
  | .unloadRequest => none
  | .stageImage => none
  | .handOver => none
  | .heartbeat => none
  | .heartbeatWindowEnd => none
  | .undefinedInstruction => none
  | .hostBridgeError => none
  | .indirectionEntryWrite => none
  | .firmwareViewInstall => none
  | .servoOffsetRestored => none

end Sys2Proof
end

