-- ==== Sys2Proof/Machine/Flags.lean ====
section
/-! DEFINITION. The six condition bits of R49 and the pairing of a value with the flags it raises. -/

namespace Sys2Proof.Machine

/-- A 6-bit flag image (R49). -/
abbrev Flags := BitVec 6

/-- No flag. -/
abbrev noFlags : Flags := 0
/-- IV: an integer result saturated, or an accumulator wrapped. -/
abbrev flagIV : Flags := 0x20
/-- NV: invalid operation. -/
abbrev flagNV : Flags := 0x10
/-- DZ: exact infinity from finite operands, or integer division by zero. -/
abbrev flagDZ : Flags := 0x08
/-- OF: overflow. -/
abbrev flagOF : Flags := 0x04
/-- UF: tiny and inexact. -/
abbrev flagUF : Flags := 0x02
/-- NX: inexact. -/
abbrev flagNX : Flags := 0x01

/-- The flag f when b holds, none otherwise. -/
def flagIf (b : Bool) (f : Flags) : Flags := if b then f else 0

/-- Combines per-element results: the value whose element i of width w is the first part of f i, for i below
n, with the flags of every element (R28, R180). -/
def packElems (w n : Nat) (f : Nat → Nat × Flags) : Nat × Flags :=
  match n with
  | 0 => (0, 0)
  | k + 1 =>
    let lo := packElems w k f
    let e := f k
    (lo.1 + e.1 % 2 ^ w * 2 ^ (k * w), lo.2 ||| e.2)

/-- Sub-element i of width w of a register value, as an unsigned number (R25, R28). -/
def subElem (v : Word) (i w : Nat) : Nat := v.toNat / 2 ^ (i * w) % 2 ^ w

/-- Reads a w-bit number as two's complement. -/
def asSigned (w x : Nat) : Int := if 2 * (x % 2 ^ w) < 2 ^ w then (x % 2 ^ w : Nat) else (x % 2 ^ w : Nat) - (2 ^ w : Nat)

/-- The low w bits of an integer. -/
def wrapInt (w : Nat) (x : Int) : Nat := (x % (2 ^ w : Nat)).toNat

end Sys2Proof.Machine
end

