-- ==== Sys2Proof/Machine/Fmt.lean ====
section
/-! DEFINITION. Floating-point formats (R29 to R34), the value an encoding denotes, and the rounding of an
exact value to a format (R44 to R48). Values are exact: a sign and a quotient of two naturals. -/

namespace Sys2Proof.Machine

/-- How a format uses the all-ones exponent (R29). -/
inductive FmtClass where
  /-- Infinities and NaNs. -/
  | classI
  /-- E4M3: one NaN, no infinity. -/
  | e4m3
  /-- Neither infinity nor NaN. -/
  | classN
  deriving DecidableEq, Repr

/-- A floating-point format: exponent bits, fraction bits, class, and the ignored low bits of its container
(13 for F19, R31; else 0). The bias is 2^(E-1) - 1 in every format of R30. -/
structure FFmt where
  E : Nat
  m : Nat
  cls : FmtClass
  pad : Nat
  deriving DecidableEq, Repr

/-- The bias B (R30). -/
def FFmt.bias (f : FFmt) : Nat := 2 ^ (f.E - 1) - 1

def fmtF64 : FFmt := ⟨11, 52, .classI, 0⟩
def fmtF32 : FFmt := ⟨8, 23, .classI, 0⟩
def fmtF19 : FFmt := ⟨8, 10, .classI, 13⟩
def fmtF16 : FFmt := ⟨5, 10, .classI, 0⟩
def fmtB16 : FFmt := ⟨8, 7, .classI, 0⟩
def fmtE5M2 : FFmt := ⟨5, 2, .classI, 0⟩
def fmtE4M3 : FFmt := ⟨4, 3, .e4m3, 0⟩
def fmtE3M2 : FFmt := ⟨3, 2, .classN, 0⟩
def fmtE2M3 : FFmt := ⟨2, 3, .classN, 0⟩
def fmtE2M1 : FFmt := ⟨2, 1, .classN, 0⟩

/-- What an encoding denotes: a NaN (signalling or quiet, R33), an infinity, or a signed quotient n / d with
d positive; n = 0 is a signed zero. -/
inductive FVal where
  | nan (signalling : Bool)
  | inf (neg : Bool)
  | fin (neg : Bool) (n d : Nat)
  deriving DecidableEq, Repr

/-- Magnitude bits of the largest finite value (R30). -/
def FFmt.maxMag (f : FFmt) : Nat :=
  match f.cls with
  | .classI => (2 ^ f.E - 1) * 2 ^ f.m - 1
  | .e4m3 => 2 ^ (f.E + f.m) - 2
  | .classN => 2 ^ (f.E + f.m) - 1

/-- The encoding with a sign and magnitude bits, in its container. -/
def FFmt.pack (f : FFmt) (neg : Bool) (mag : Nat) : Nat :=
  ((if neg then 2 ^ (f.E + f.m) else 0) + mag) * 2 ^ f.pad

/-- The canonical NaN (R34). Class N formats have none and deliver +0 (R45). -/
def FFmt.canonicalNaN (f : FFmt) : Nat :=
  match f.cls with
  | .classI => f.pack false ((2 ^ f.E - 1) * 2 ^ f.m + 2 ^ (f.m - 1))
  | .e4m3 => f.pack false (2 ^ (f.E + f.m) - 1)
  | .classN => 0

/-- The value of an encoding (R29, R31, R33). Bits above the format are ignored (R32). -/
def FFmt.decode (f : FFmt) (x : Nat) : FVal :=
  let b := x / 2 ^ f.pad % 2 ^ (1 + f.E + f.m)
  let neg := decide (2 ^ (f.E + f.m) ≤ b)
  let mag := b % 2 ^ (f.E + f.m)
  let e := mag / 2 ^ f.m
  let fr := mag % 2 ^ f.m
  let fin : FVal :=
    -- significand sig times 2^(max e 1 - B - m)
    let sig := if e = 0 then fr else 2 ^ f.m + fr
    let up := Nat.max e 1
    let dn := f.bias + f.m
    if dn ≤ up then .fin neg (sig * 2 ^ (up - dn)) 1 else .fin neg sig (2 ^ (dn - up))
  match f.cls with
  | .classI =>
    if e = 2 ^ f.E - 1 then
      if fr = 0 then .inf neg else .nan (decide (fr < 2 ^ (f.m - 1)))
    else fin
  | .e4m3 => if mag = 2 ^ (f.E + f.m) - 1 then .nan false else fin
  | .classN => fin

/-- The floor of the base-2 logarithm of n / d, for n and d positive. -/
def ratLog2 (n d : Nat) : Int :=
  let e : Int := (n.log2 : Int) - (d.log2 : Int)
  let small := if 0 ≤ e then decide (n < d * 2 ^ e.toNat) else decide (n * 2 ^ (-e).toNat < d)
  if small then e - 1 else e

/-- Floor and remainder of (n / d) / 2^q, the remainder as a numerator and its denominator. -/
def ratScale (n d : Nat) (q : Int) : Nat × Nat × Nat :=
  if 0 ≤ q then (n / (d * 2 ^ q.toNat), n % (d * 2 ^ q.toNat), d * 2 ^ q.toNat)
  else (n * 2 ^ (-q).toNat / d, n * 2 ^ (-q).toNat % d, d)

/-- Whether a magnitude with floor k and remainder r / d rounds away from zero under a mode code (R44). -/
def roundsUp (mode : Nat) (neg : Bool) (k r d : Nat) : Bool :=
  match mode with
  | 0 => decide (d < 2 * r ∨ (d = 2 * r ∧ k % 2 = 1))
  | 1 => false
  | 2 => neg && decide (r ≠ 0)
  | _ => !neg && decide (r ≠ 0)

/-- The integer magnitude nearest to n / d under a mode, and whether it is inexact (R44). -/
def roundMag (mode : Nat) (neg : Bool) (n d : Nat) (q : Int) : Nat × Bool :=
  let s := ratScale n d q
  ((if roundsUp mode neg s.1 s.2.1 s.2.2 then s.1 + 1 else s.1), decide (s.2.1 ≠ 0))

/-- What an overflowing result delivers (R45). -/
def overflowMag (f : FFmt) (mode : Nat) (neg : Bool) : Nat :=
  match f.cls with
  | .classI =>
    match mode with
    | 0 => f.maxMag + 1
    | 1 => f.maxMag
    | 2 => if neg then f.maxMag + 1 else f.maxMag
    | _ => if neg then f.maxMag else f.maxMag + 1
  | _ => f.maxMag

/-- Rounds the exact value (-1)^neg * n / d, d positive, to a format under a mode code (R44 to R46). -/
def FFmt.round (f : FFmt) (mode : Nat) (neg : Bool) (n d : Nat) : Nat × Flags :=
  if n = 0 then (f.pack neg 0, 0)
  else
    let e := ratLog2 n d
    let qmin : Int := 1 - (f.bias : Int) - (f.m : Int)
    let q : Int := max (e - (f.m : Int)) qmin
    let k := roundMag mode neg n d q
    let mag := (q - qmin).toNat * 2 ^ f.m + k.1
    if f.maxMag < mag then (f.pack neg (overflowMag f mode neg), flagOF ||| flagNX)
    else
      -- tininess: rounded to the precision with an unbounded exponent range (R46)
      let tiny :=
        decide (e < 1 - (f.bias : Int)) &&
          decide ((roundMag mode neg n d (e - (f.m : Int))).1 < 2 ^ (f.m + 1) ∨ e < - (f.bias : Int))
      (f.pack neg mag, flagIf k.2 flagNX ||| flagIf (k.2 && tiny) flagUF)

/-- Delivers an exact value, infinity or NaN in a format (R34, R45). Signalling is not looked at here. -/
def FFmt.deliver (f : FFmt) (mode : Nat) (v : FVal) : Nat × Flags :=
  match v with
  | .nan _ => (f.canonicalNaN, flagIf (decide (f.cls = .classN)) flagNV)
  | .inf neg =>
    match f.cls with
    | .classI => (f.pack neg (f.maxMag + 1), 0)
    | _ => (f.pack neg f.maxMag, flagOF ||| flagNX)
  | .fin neg n d => f.round mode neg n d

/-- NV for a signalling NaN input (R35). -/
def FVal.sigFlag (v : FVal) : Flags :=
  match v with
  | .nan true => flagNV
  | _ => 0

/-- Whether a value is a NaN. -/
def FVal.isNaN (v : FVal) : Bool :=
  match v with
  | .nan _ => true
  | _ => false

/-- The sign of a value that is no NaN. -/
def FVal.neg (v : FVal) : Bool :=
  match v with
  | .nan _ => false
  | .inf s => s
  | .fin s _ _ => s

/-- Whether a value is a zero of either sign. -/
def FVal.isZero (v : FVal) : Bool :=
  match v with
  | .fin _ 0 _ => true
  | _ => false

/-- The signed numerator of a finite value. -/
def signedNum (neg : Bool) (n : Nat) : Int := if neg then - (n : Int) else n

/-- The exact value of an integer. -/
def FVal.ofInt (x : Int) : FVal := .fin (decide (x < 0)) x.natAbs 1

end Sys2Proof.Machine
end

