-- ==== Sys2Proof/Machine/Arith.lean ====
section
/-! DEFINITION. Exact arithmetic on floating-point values and the operations of one sub-element: floating
point (R35, R47, R50 to R52) and integer (R55, R56, R182). -/

namespace Sys2Proof.Machine

/-- The exact sum of two values under R35 and R47, with NV for infinity minus infinity and for a signalling
NaN. The mode decides the sign of an exact zero. -/
def addExact (mode : Nat) (a b : FVal) : FVal × Flags :=
  match a, b with
  | .nan _, _ => (.nan false, a.sigFlag ||| b.sigFlag)
  | _, .nan _ => (.nan false, a.sigFlag ||| b.sigFlag)
  | .inf s, .inf t => if s = t then (.inf s, 0) else (.nan false, flagNV)
  | .inf s, .fin _ _ _ => (.inf s, 0)
  | .fin _ _ _, .inf t => (.inf t, 0)
  | .fin s n d, .fin t k e =>
    let x := signedNum s (n * e) + signedNum t (k * d)
    if x = 0 then
      (.fin (if s = t then s else decide (mode = 2)) 0 1, 0)
    else (.fin (decide (x < 0)) x.natAbs (d * e), 0)

/-- The same value with the other sign. -/
def FVal.negate (v : FVal) : FVal :=
  match v with
  | .nan s => .nan s
  | .inf s => .inf (!s)
  | .fin s n d => .fin (!s) n d

/-- The exact product (R35, R47). -/
def mulExact (a b : FVal) : FVal × Flags :=
  match a, b with
  | .nan _, _ => (.nan false, a.sigFlag ||| b.sigFlag)
  | _, .nan _ => (.nan false, a.sigFlag ||| b.sigFlag)
  | .inf s, .inf t => (.inf (s != t), 0)
  | .inf s, .fin t n _ => if n = 0 then (.nan false, flagNV) else (.inf (s != t), 0)
  | .fin s n _, .inf t => if n = 0 then (.nan false, flagNV) else (.inf (s != t), 0)
  | .fin s n d, .fin t k e => (.fin (s != t) (n * k) (d * e), 0)

/-- The exact quotient, with DZ for a nonzero finite value over a zero (R35, R52). -/
def divExact (a b : FVal) : FVal × Flags :=
  match a, b with
  | .nan _, _ => (.nan false, a.sigFlag ||| b.sigFlag)
  | _, .nan _ => (.nan false, a.sigFlag ||| b.sigFlag)
  | .inf _, .inf _ => (.nan false, flagNV)
  | .inf s, .fin t _ _ => (.inf (s != t), 0)
  | .fin s _ _, .inf t => (.fin (s != t) 0 1, 0)
  | .fin s n d, .fin t k e =>
    if k = 0 then (if n = 0 then (.nan false, flagNV) else (.inf (s != t), flagDZ))
    else (.fin (s != t) (n * e) (d * k), 0)

/-- Delivers an exact result and joins its flags. -/
def deliverExact (f : FFmt) (mode : Nat) (r : FVal × Flags) : Nat × Flags :=
  let o := f.deliver mode r.1
  (o.1, r.2 ||| o.2)

/-- x + y, one rounding (R187). -/
def fAdd (f : FFmt) (mode x y : Nat) : Nat × Flags := deliverExact f mode (addExact mode (f.decode x) (f.decode y))
/-- x - y, one rounding (R187). -/
def fSub (f : FFmt) (mode x y : Nat) : Nat × Flags :=
  deliverExact f mode (addExact mode (f.decode x) (f.decode y).negate)
/-- x * y, one rounding (R187). -/
def fMul (f : FFmt) (mode x y : Nat) : Nat × Flags := deliverExact f mode (mulExact (f.decode x) (f.decode y))
/-- x / y, one rounding (R52, R187). -/
def fDiv (f : FFmt) (mode x y : Nat) : Nat × Flags := deliverExact f mode (divExact (f.decode x) (f.decode y))

/-- x * y + z of exact values, product and sum exact (R188). -/
def fmaExact (mode : Nat) (x y z : FVal) : FVal × Flags :=
  let p := mulExact x y
  let s := addExact mode p.1 z
  (s.1, p.2 ||| s.2)

/-- x * y + z with one rounding (R188). -/
def fFma (f : FFmt) (mode x y z : Nat) : Nat × Flags :=
  deliverExact f mode (fmaExact mode (f.decode x) (f.decode y) (f.decode z))

/-- Newton steps towards the integer square root of n from an upper estimate x. -/
def isqrtFrom (fuel n x : Nat) : Nat :=
  match fuel with
  | 0 => x
  | k + 1 =>
    let y := (x + n / x) / 2
    if y < x then isqrtFrom k n y else x

/-- The integer square root. -/
def isqrt (n : Nat) : Nat := if n = 0 then 0 else isqrtFrom 64 n (2 ^ (n.log2 / 2 + 1))

/-- A quotient that rounds as the square root of n / d does, in every format whose halfway points are
multiples of 2^-p: the square root itself where it is a multiple of 2^-p, otherwise the middle of the
interval of width 2^-p that holds it. -/
def sqrtQuot (p n d : Nat) : Nat × Nat :=
  let x := n * 2 ^ (2 * p) / d
  let k := isqrt x
  if k * k = x ∧ n * 2 ^ (2 * p) % d = 0 then (k, 2 ^ p) else (2 * k + 1, 2 ^ (p + 1))

/-- Fraction bits that suffice for the square roots of a format. -/
def FFmt.sqrtBits (f : FFmt) : Nat := f.bias + f.m + 8

/-- The correctly rounded square root (R35, R52). -/
def fSqrt (f : FFmt) (mode x : Nat) : Nat × Flags :=
  match f.decode x with
  | .nan s => (f.canonicalNaN, flagIf s flagNV)
  | .inf s => if s then (f.canonicalNaN, flagNV) else f.deliver mode (.inf false)
  | .fin s n d =>
    if n = 0 then (f.pack s 0, 0)
    else if s then (f.canonicalNaN, flagNV)
    else
      let r := sqrtQuot f.sqrtBits n d
      f.round mode false r.1 r.2

/-- Orders two values that are no NaN: -1, 0 or 1 as a is below, equal to or above b; zeros are equal
(R50). -/
def cmpVal (a b : FVal) : Int :=
  match a, b with
  | .inf s, .inf t => if s = t then 0 else if s then -1 else 1
  | .inf s, _ => if s then -1 else 1
  | _, .inf t => if t then 1 else -1
  | .fin s n d, .fin t k e =>
    let x := signedNum s (n * e)
    let y := signedNum t (k * d)
    if x < y then -1 else if x = y then 0 else 1
  | _, _ => 0

/-- Order with -0 below +0 (R51). -/
def minOrder (a b : FVal) : Bool :=
  if a.isZero && b.isZero then a.neg || !b.neg else decide (cmpVal a b ≤ 0)

/-- Minimum or maximum (R51): one NaN gives the other operand, two give the canonical NaN. -/
def fMinMax (f : FFmt) (isMax : Bool) (x y : Nat) : Nat × Flags :=
  let a := f.decode x
  let b := f.decode y
  let fl := a.sigFlag ||| b.sigFlag
  if a.isNaN then
    if b.isNaN then (f.canonicalNaN, fl) else (y, fl)
  else if b.isNaN then (x, fl)
  else if minOrder a b != isMax then (x, fl) else (y, fl)

/-- The magnitude of x with the sign of y (R187). -/
def fCpsgn (f : FFmt) (x y : Nat) : Nat × Flags :=
  match f.decode x with
  | .nan s => (f.canonicalNaN, flagIf s flagNV)
  | _ =>
    let h := 2 ^ (f.E + f.m + f.pad)
    (x % h + (if y / h % 2 = 1 then h else 0), 0)

/-- Negation of a floating-point encoding (R186): a NaN gives the canonical NaN. -/
def fNeg (f : FFmt) (x : Nat) : Nat × Flags :=
  match f.decode x with
  | .nan s => (f.canonicalNaN, flagIf s flagNV)
  | _ =>
    let h := 2 ^ (f.E + f.m + f.pad)
    (x % h + (if x / h % 2 = 1 then 0 else h), 0)

/-- A comparison by condition code (0 eq, 1 ne, 2 lt, 3 le, 4 gt, 5 ge, 6 un; R50, R190). -/
def fCompare (f : FFmt) (c x y : Nat) : Bool × Flags :=
  let a := f.decode x
  let b := f.decode y
  let sig := a.sigFlag ||| b.sigFlag
  if a.isNaN || b.isNaN then
    match c with
    | 0 => (false, sig)
    | 1 => (true, sig)
    | 6 => (true, sig)
    | _ => (false, flagNV)
  else
    let o := cmpVal a b
    match c with
    | 0 => (decide (o = 0), 0)
    | 1 => (decide (o ≠ 0), 0)
    | 2 => (decide (o < 0), 0)
    | 3 => (decide (o ≤ 0), 0)
    | 4 => (decide (0 < o), 0)
    | 5 => (decide (0 ≤ o), 0)
    | _ => (false, 0)

/-! Integer operations on one sub-element of width w; `sg` reads the operands as signed. -/

/-- A w-bit operand as an integer. -/
def readInt (sg : Bool) (w x : Nat) : Int := if sg then asSigned w x else (x % 2 ^ w : Nat)

/-- The least value of a type. -/
def intMin (sg : Bool) (w : Nat) : Int := if sg then - (2 ^ (w - 1) : Nat) else 0
/-- The greatest value of a type. -/
def intMax (sg : Bool) (w : Nat) : Int := if sg then (2 ^ (w - 1) : Nat) - 1 else (2 ^ w : Nat) - 1

/-- Clamps to a type's range, with the flag raised when it clamps (R55). -/
def clampInt (fl : Flags) (sg : Bool) (w : Nat) (x : Int) : Nat × Flags :=
  if x < intMin sg w then (wrapInt w (intMin sg w), fl)
  else if intMax sg w < x then (wrapInt w (intMax sg w), fl)
  else (wrapInt w x, 0)

/-- Quotient and flags (R56). -/
def intDiv (sg : Bool) (w x y : Nat) : Nat × Flags :=
  let a := readInt sg w x
  let b := readInt sg w y
  if b = 0 then (2 ^ w - 1, flagDZ)
  else if sg ∧ a = intMin true w ∧ b = -1 then (x % 2 ^ w, flagIV)
  else (wrapInt w (a.tdiv b), 0)

/-- Remainder and flags (R56). -/
def intRem (sg : Bool) (w x y : Nat) : Nat × Flags :=
  let a := readInt sg w x
  let b := readInt sg w y
  if b = 0 then (x % 2 ^ w, flagDZ)
  else if sg ∧ a = intMin true w ∧ b = -1 then (0, flagIV)
  else (wrapInt w (a.tmod b), 0)

/-- Shift left by n modulo w (R182). -/
def shlElem (w x n : Nat) : Nat := x * 2 ^ (n % w) % 2 ^ w
/-- Logical shift right by n modulo w (R182). -/
def shrElem (w x n : Nat) : Nat := x % 2 ^ w / 2 ^ (n % w)
/-- Arithmetic shift right by n modulo w (R182). -/
def shraElem (w x n : Nat) : Nat := wrapInt w (asSigned w x / (2 ^ (n % w) : Nat))
/-- Rotate left by n modulo w (R182). -/
def rolElem (w x n : Nat) : Nat := x * 2 ^ (n % w) % 2 ^ w + x % 2 ^ w / 2 ^ (w - n % w)

/-- The number of one bits among the low n bits. -/
def popcount (n x : Nat) : Nat :=
  match n with
  | 0 => 0
  | k + 1 => x % 2 + popcount k (x / 2)

/-- The low n bits of x in reverse order. -/
def bitReverse (n x : Nat) : Nat :=
  match n with
  | 0 => 0
  | k + 1 => x % 2 * 2 ^ k + bitReverse k (x / 2)

/-- The number of leading zero bits of a w-bit value (R182). -/
def leadingZeros (w x : Nat) : Nat := if x % 2 ^ w = 0 then w else w - 1 - (x % 2 ^ w).log2

/-- A comparison by condition code 0 to 5 (R184). -/
def intCompare (c : Nat) (a b : Int) : Bool :=
  match c with
  | 0 => decide (a = b)
  | 1 => decide (a ≠ b)
  | 2 => decide (a < b)
  | 3 => decide (a ≤ b)
  | 4 => decide (b < a)
  | _ => decide (b ≤ a)

end Sys2Proof.Machine
end

