-- ==== Sys2Proof/Config.lean ====
section
/-! DEFINITION. What the spec leaves open: free values. Each is a constant without a body, so nothing can be
proved of its value; a claim that holds of the model holds for every choice. -/

namespace Sys2Proof.Config

/-- A value that the spec leaves undefined (R10), taken at the next number of State.freeCtr (DESIGN CHOICE log 7, DESIGN CHOICE log 13). -/
opaque freeWord : Nat → BitVec 64

/-- The level-2 instruction, 32 bits long, that a level-1 word of lane code, or of a sequencer's, is rewritten as, or none (R96; the
spec gives no level-1 opcode map; DESIGN CHOICE log 8). -/
opaque levelOneWord : Bool → BitVec 32 → Option (BitVec 32)

/-- The branch offset of a level-1 word, in 4-byte words (R96; DESIGN CHOICE log 8). -/
opaque levelOneOffset : Bool → BitVec 32 → Int

/-- The code that the loader lays out for a level-1 code object image, its branch islands included, or none where it finds no
rewrite (R96, R127: a fixed function of the image; DESIGN CHOICE log 8). -/
opaque levelOneCode : List (BitVec 8) → Option (List (BitVec 8))

/-- The 64-byte lines of that code at which the lanes and the sequencer of entry k begin (R96; DESIGN CHOICE log 8). -/
opaque levelOneLines : List (BitVec 8) → Nat → Nat × Nat

/-- The signatures of an identity statement, of its bytes, under ECDSA and under LMS: the device's keys are its own (R382, R386;
DESIGN CHOICE log 9). -/
opaque identityEcSig : List (BitVec 8) → List (BitVec 8)
opaque identityLmsSig : List (BitVec 8) → List (BitVec 8)

/-- Which of the lines of a full instruction cache a fill replaces (R334; DESIGN CHOICE log 18). -/
opaque icacheVictim : Nat → Nat

/-- How many commands a page-engine queue holds: the spec gives no number (R328; DESIGN CHOICE / PRESUMED log 15). -/
opaque pgCapacity : Nat

/-- The fused key digest, of development or of production (R382, R390; DESIGN CHOICE log 9). -/
opaque keyDigestBits : Bool → BitVec 384

/-- The fused digest as a number. -/
def keyDigest (development : Bool) : Nat := (keyDigestBits development).toNat

/-- Stack, or LPDDR6 package, channel and row of a line of device memory, by its location key over 64, in the places that they
take in DETAIL (R376; DESIGN CHOICE log 38). -/
opaque rowOf : Nat → BitVec 42

/-- Timing fields of a sampled record: doublewords 0x20 (bits 63 to 32) and 0x38, by State.freeCtr (R121;
DESIGN CHOICE log 16). -/
opaque sampleTiming : Nat → BitVec 64

end Sys2Proof.Config
end

