-- ==== Sys2Proof/Machine/SMap.lean ====
section
/-! DEFINITION. Sparse maps: a list of (key, value) pairs with rising keys and no entry equal to the default.
Reading and writing obey the map laws on every list, sorted or not (Laws/SMap.lean); writing keeps the
canonical form. -/

namespace Sys2Proof.Machine

/-- The value at k, or the default. -/
def SMap.get {β : Type} (d : β) (m : SMap β) (k : Nat) : β :=
  match m with
  | [] => d
  | (j, x) :: r => if j = k then x else SMap.get d r k

/-- Removes every entry at k. -/
def SMap.erase {β : Type} (m : SMap β) (k : Nat) : SMap β :=
  match m with
  | [] => []
  | (j, x) :: r => if j = k then SMap.erase r k else (j, x) :: SMap.erase r k

/-- Inserts an entry before the first larger key. -/
def SMap.insert {β : Type} (m : SMap β) (k : Nat) (x : β) : SMap β :=
  match m with
  | [] => [(k, x)]
  | (j, y) :: r => if k < j then (k, x) :: (j, y) :: r else (j, y) :: SMap.insert r k x

/-- Writes x at k; a value equal to the default is not listed. -/
def SMap.set {β : Type} [DecidableEq β] (d : β) (m : SMap β) (k : Nat) (x : β) : SMap β :=
  if x = d then SMap.erase m k else SMap.insert (SMap.erase m k) k x

/-- Replaces the value at k by a function of it. -/
def SMap.modify {β : Type} [DecidableEq β] (d : β) (m : SMap β) (k : Nat) (f : β → β) : SMap β :=
  SMap.set d m k (f (SMap.get d m k))

/-- The map of values f k over a list of keys. -/
def SMap.ofKeys {β : Type} [DecidableEq β] (d : β) (f : Nat → β) (ks : List Nat) : SMap β :=
  match ks with
  | [] => []
  | k :: r => SMap.set d (SMap.ofKeys d f r) k (f k)

/-- Replaces every listed value by a function of its key and itself; the default is not listed. -/
def SMap.mapV {β : Type} [DecidableEq β] (d : β) (m : SMap β) (f : Nat → β → β) : SMap β :=
  SMap.ofKeys d (fun k => f k (SMap.get d m k)) (m.map (·.1))

/-- The keys rise strictly from lo and no value is the default. -/
def SMap.wfFrom {β : Type} [DecidableEq β] (d : β) (lo : Nat) (m : SMap β) : Bool :=
  match m with
  | [] => true
  | (j, x) :: r => decide (lo ≤ j) && decide (x ≠ d) && SMap.wfFrom d (j + 1) r

/-- The canonical form. -/
def SMap.wf {β : Type} [DecidableEq β] (d : β) (m : SMap β) : Bool := SMap.wfFrom d 0 m

/-- Removes the entries whose keys lie in [lo, hi). -/
def SMap.clear {β : Type} (m : SMap β) (lo hi : Nat) : SMap β :=
  m.filter (fun e => decide (e.1 < lo ∨ hi ≤ e.1))

/-- The listed keys. -/
def SMap.keys {β : Type} (m : SMap β) : List Nat := m.map (·.1)

end Sys2Proof.Machine
end

