-- ==== Sys2Proof/Machine/State.lean ====
section
/-! DEFINITION. The state of one CX-640: plain data, every piece of architectural state the spec names. Every
map lists only the entries that differ from the default its docstring names; the default is the reset value. -/

namespace Sys2Proof.Machine

/-! ## Lanes and sequencers -/

/-- A 64-bit register with its poison bit (R15, R179). -/
structure VReg where
  val : Word := 0
  poison : Bool := false
  deriving DecidableEq, Repr

/-- Where the bytes of an access lie: a physical address (R316), or a scratchpad bank of a team (R200). -/
inductive Loc where
  | pa (a : Nat)
  | spad (team bank off : Nat)
  deriving DecidableEq, Repr

/-- Why an instruction of a lane waits (R160, R203, R207, R248, R330). -/
inductive Block where
  /-- it does not wait -/
  | none
  /-- it has passed its checks and waits to perform (R207, R235, R268) -/
  | perform
  /-- it waits for the regeneration of a page of a context (R330) -/
  | regen (asid page : Nat)
  /-- it waits for n free entries in a FIFO bank of a team (R248) -/
  | fifoRoom (team bank n : Nat)
  /-- it waits for n entries in a FIFO bank of a team (R248) -/
  | fifoEntry (team bank n : Nat)
  /-- its walk or fetch waits for the host's page service to read a frame back (R327) -/
  | readBack (frame : Nat)
  /-- its walk or fetch waits for n bytes at a physical address that another chip sends (R315, R322) -/
  | remote (pa n : Nat)
  /-- a fence of these lanes of a team waits for their forwarded accesses (R219) -/
  | fence (team : Nat) (lanes : List Nat)
  /-- an instruction of a DET grid, not yet performed at all, waits for claims, captures or storage and is then
  checked again (R140, R203, R207) -/
  | access (grid : Nat) (writes : Bool) (runs : List (Loc × Nat))
  deriving DecidableEq, Repr

/-- One launched lane: registers, predicates, counter and special state (R145, R160, R166, R172, R180, R205).
Bit 0 of the predicate bytes is unused; p0 reads true (R166). -/
structure Lane where
  v : SMap VReg := []
  h : SMap VReg := []
  pv : BitVec 8 := 0
  pp : BitVec 8 := 0
  pc : Word := 0
  exited : Bool := false
  trap : Bool := false
  deferred : Bool := false
  /-- the barrier it waits at and the phase recorded (R308) -/
  wait : Option (Nat × Nat) := none
  arrived : BitVec 16 := 0
  block : Block := .none
  lflags : BitVec 6 := 0
  stklim : Word := 0
  lcause : Word := 0
  lepc : Word := 0
  laddr : Word := 0
  lnrec : BitVec 8 := 0
  lprec : SMap Word := []
  deriving DecidableEq, Repr

/-- The held loop of a sequencer (R153, R154): passes, current pass, body [lo, hi), step word. -/
structure LoopState where
  count : Word
  pass : Word
  lo : Word
  hi : Word
  step : Word
  deriving DecidableEq, Repr

/-- What a sequencer waits for inside an instruction (R308, R309, R259, R368). -/
inductive SeqWait where
  /-- a numbered barrier and the phase recorded -/
  | bar (b phase : Nat)
  /-- the cluster barrier and the phase recorded -/
  | cbar (phase : Nat)
  /-- the grid barrier and the phase recorded -/
  | gbar (phase : Nat)
  /-- accumulator banks -/
  | acq
  /-- a view -/
  | vwait
  /-- forces of the manifest (R266, R279, R301), or buffered stores (R238): the instruction issues again -/
  | force
  /-- a page that is regenerated, read back or read from another chip (R322, R327, R330), or a line (R203), inside
  an instruction or to fetch one -/
  | page (b : Block) (fetch : Bool)
  deriving DecidableEq, Repr

/-- A raised asynchronous trap that is not yet taken (R151, R257, R280, R364). -/
structure AsyncTrap where
  cls : Nat
  code : Nat
  addr : Word
  deriving DecidableEq, Repr

/-- A byte held in the sequencer's store buffer (R238), with the number of the store that it belongs to. -/
structure BufByte where
  loc : Loc
  val : Byte
  store : Nat
  deriving DecidableEq, Repr

/-- The sequencer of a team (R146, R151). `s` holds s1 to s31 and `hs` the eight handler registers. -/
structure Sequencer where
  s : SMap Word := []
  hs : SMap Word := []
  pc : Word := 0
  trap : Bool := false
  exited : Bool := false
  scause : Word := 0
  sepc : Word := 0
  saddr : Word := 0
  loop : Option LoopState := none
  /-- a loop started in trap mode (DEDUCED log 20) -/
  hloop : Option LoopState := none
  wait : Option SeqWait := none
  /-- an interrupted wait and the address of its instruction (R396) -/
  held : Option (SeqWait × Word) := none
  pending : List AsyncTrap := []
  sbuf : List BufByte := []
  /-- an instruction that has passed its checks waits to perform -/
  parked : Bool := false
  deriving DecidableEq, Repr

/-! ## Memory accesses in flight -/

/-- Which agent makes an access: a lane or the sequencer of a team. -/
inductive Agent where
  | lane (team lane : Nat)
  | seq (team : Nat)
  deriving DecidableEq, Repr

/-- What one agent's access does once its checks have passed (R203). Registers are numbered as fields name
them, 64 to 71 for h0 to h7. -/
inductive MemOp where
  /-- reads n bytes into registers from `first` on, 8 bytes each; a sequencer load sign-extends when `sx` -/
  | load (first n : Nat) (sx : Bool)
  /-- writes n bytes, poisoned or not -/
  | store (n : Nat) (data : Nat) (poison : Bool)
  /-- one atomic step (R208): operation, type code, operand, comparand, poison, destination -/
  | atom (op t : Nat) (y c : Word) (poison : Bool) (d : Nat)
  /-- one plane word: bits under the mask take the data (R215) -/
  | plane (mask data : Nat) (poison : Bool)
  /-- LEAVE: reads v7 and then raises v6 by 16 n (R169) -/
  | leave (n : Nat)
  deriving DecidableEq, Repr

/-- One access: the agent, its address, the single-copy atomic pieces that it has still to perform (R202), what it
does, how many of its bytes have performed, and what they read. -/
structure Access where
  agent : Agent
  va : Word
  runs : List (Loc × Nat)
  op : MemOp
  done : Nat := 0
  got : List Byte := []
  poison : Bool := false
  deriving DecidableEq, Repr

/-- A deferred-reduction entry (R210). -/
structure RedEntry where
  ix : Nat
  group : Nat
  lane : Nat
  order : Nat
  loc : Loc
  va : Word
  iaddr : Word
  op : Nat
  t : Nat
  y : Word
  poison : Bool
  /-- 1 + the tag under which it was sent to the chip that owns its place (R213, R322) -/
  sent : Nat := 0
  deriving DecidableEq, Repr

/-- Accesses that have passed their checks and wait for a claim, a capture or a source read (R207, R234,
R235, R268). The agents' later accesses wait behind them. -/
structure Parked where
  team : Nat
  /-- the lanes of the run: none of them issues before the last access performs (R203) -/
  lanes : List Nat
  iaddr : Word
  accs : List Access
  /-- the first piece waits at its line, rather than for other agents' accesses to join before it (R202, R232) -/
  held : Bool
  deriving DecidableEq, Repr

/-- Which flush point a release belongs to (R211, R305, R309, R310). -/
inductive BarKind where
  | bar (team b : Nat)
  | cbar (grid cluster : Nat)
  | gbar (grid : Nat)
  /-- the flush at a team's exit (R155, R211) -/
  | exit (team : Nat)
  deriving DecidableEq, Repr

/-- A release whose entries are not all applied (R305). -/
structure Release where
  kind : BarKind
  phase : Nat
  entries : List RedEntry
  deriving DecidableEq, Repr

/-! ## The manifest -/

/-- States of a node (R264). Dropped nodes are not listed. -/
inductive NodeState where
  | built
  | shared
  | captured
  | evaluating
  | materialized
  | faulted
  deriving DecidableEq, Repr

/-- One node (R261, R283). `opnds` are the creation numbers of its operands, which identify it (R265), and `refs`
those it still refers to (R263, R278); `val` the element encodings, row by row, a complex element as two and a
block partial after block partial. `vkind`: 0 an ordinary value, 1 an INT32 pair, 2 block partials (R285). A value lies in
`ngran` granules from `gran` on; 0 granules hold none. -/
structure Node where
  op : Nat
  opnds : List Nat
  refs : List Nat
  scal : List Word
  fmt : Nat
  contract : Nat
  rows : Nat
  cols : Nat
  kdim : Nat
  vfmt : Nat
  vkind : Nat
  creator : Word
  ncre : Nat
  st : NodeState
  fcode : Nat
  flags : Flags
  val : List Nat
  gran : Nat
  ngran : Nat
  /-- a leaf's region: its rows' bytes, row after row, as stretches -/
  region : List (Loc × Nat)
  /-- number of the next push when the leaf captured its region -/
  capNum : Nat
  /-- the tile instruction that last took a register's name from it -/
  unnamed : Nat
  /-- the tile instruction that gave it its latest creator -/
  shareAt : Nat := 0
  deriving DecidableEq, Repr

/-- What forced (R270, R283): a TST with its target format, base and descriptor, or another forcer. -/
inductive ForceKind where
  | tst (fmt : Nat) (base desc : Word)
  | tforce
  | insertion
  | exit
  deriving DecidableEq, Repr

/-- What a force's rewrite tests, as it stood at the forcer's issue with earlier forces counted as complete
(R271): nodes that registers name, nodes of the forced set that others outside it read, the forced set, roots of
other forces, and the held accumulator banks. -/
structure Snapshot where
  named : List Nat
  ext : List Nat
  reach : List Nat
  roots : List Nat
  held : BitVec 16
  deriving DecidableEq, Repr

/-- A node of a working copy (R272): `op` an operation number, `opLeaf` for a leaf, or one of the numbers for a
materialized node, a lost one and a copy of another node's value; operands by their place in the copy; the node it is
attributed to with further ones, the nodes it stands for, and for a leaf, a materialized or a lost node the node
itself. -/
structure CopyNode where
  op : Nat
  opnds : List Nat
  fmt : Nat
  contract : Nat
  rows : Nat
  cols : Nat
  kdim : Nat
  vfmt : Nat
  vkind : Nat
  scal : List Word
  attr : Nat
  also : List Nat
  origs : List Nat
  self : Option Nat
  deriving DecidableEq, Repr

/-- A working copy: nodes by place, the root's place and the next free place. -/
structure Copy where
  nodes : List (Nat × CopyNode)
  root : Nat
  next : Nat
  deriving DecidableEq, Repr

/-- A force that the RWU has started (R272, R276, R277): the rewritten copy, the forced set, the post-order and how far
it is computed, the values that it holds by place, and the space of those that it computed itself (place, first granule,
count). -/
structure Work where
  copy : Copy
  set : List Nat
  order : List Nat
  pos : Nat
  vals : List (Nat × List Nat)
  temps : List (Nat × Nat × Nat)
  deriving DecidableEq, Repr

/-- A force issued and not completed (R270, R271). -/
structure Force where
  root : Nat
  kind : ForceKind
  faddr : Word
  snap : Snapshot
  suspended : Bool
  inTrap : Bool
  /-- the bytes a TST writes, row after row, as stretches -/
  target : List (Loc × Nat)
  /-- its place among the pushes, for its claims -/
  num : Nat
  /-- its place among the team's tile instructions -/
  serial : Nat
  /-- the logical time of its issue (R299) -/
  pts : Nat
  /-- it has space that tile instructions before this one freed (R277) -/
  space : Nat
  /-- its nodes are computed; a TST has still to write -/
  fin : Bool
  /-- what a TST has still to write of its target, line by line: each piece with its place among the target's bytes (R299) -/
  left : List (Nat × Loc × Nat) := []
  /-- it was issued in trap mode and goes before a force suspended then -/
  ahead : Bool := false
  work : Option Work := none
  deriving DecidableEq, Repr

/-- The manifest of a team (R261 to R283). `tregs` maps a tile register to 1 + a creation number; 0 names no
node. `serial` counts tile instructions; `freed` are granules of dropped nodes with the instruction that dropped
them (R277). -/
structure Manifest where
  tregs : SMap Nat := []
  nodes : List (Nat × Node) := []
  create : Nat := 0
  forces : List Force := []
  tcreat : Word := 0
  tforcr : Word := 0
  tflags : Word := 0
  tfcre : Word := 0
  tffor : Word := 0
  toerr : Word := 0
  tocre : Word := 0
  serial : Nat := 0
  freed : List (Nat × Nat × Nat) := []
  deriving DecidableEq, Repr

/-! ## Teams -/

/-- States of a team (R135). -/
inductive TeamState where
  | pending
  | dispatched
  | running
  | swapped
  | exiting
  | retired
  | faulted
  deriving DecidableEq, Repr

/-- States of a numbered barrier (R306). -/
inductive BarState where
  | idle
  | arriving
  | arming
  deriving DecidableEq, Repr

/-- A numbered barrier (R303, R306, R312). -/
structure Barrier where
  expected : Nat := 0
  pend : Nat := 0
  arr : Nat := 0
  phase : Nat := 0
  st : BarState := .idle
  seqArr : Bool := false
  /-- a release of it has begun and its waits have not ended (R305) -/
  releasing : Bool := false
  deriving DecidableEq, Repr

/-- A store record of an audited team (R378): group, lane, order, address, size, data. -/
structure StoreRec where
  group : Nat
  lane : Nat
  order : Nat
  addr : Word
  size : Nat
  data : Nat
  deriving DecidableEq, Repr

/-- One team (R135, R145). Keyed by grid number and team index. A team that is swapped out keeps its image
here. -/
structure Team where
  st : TeamState := .pending
  core : Nat := 0
  /-- loading after a swap-in rather than a first dispatch -/
  reload : Bool := false
  /-- slot (partition * 16 + slot) and first lane position of each group (R158) -/
  slots : List (Nat × Nat) := []
  lanes : SMap Lane := []
  seq : Sequencer := {}
  bars : SMap Barrier := []
  phases : BitVec 32 := 0
  red : List RedEntry := []
  /-- number of the team's next RED.D entry or store record, in program order -/
  order : Nat := 0
  bmode : BitVec 16 := 0
  fifos : SMap (List VReg) := []
  /-- pending switches: the values that the lanes of a SETS of %bmode wrote, in order, and its lanes (R246) -/
  bmodeNext : List (List (BitVec 16) × List Nat) := []
  /-- held accumulator banks: team bank number to 1 + physical bank (R258) -/
  acc : SMap Nat := []
  /-- physical SRAM banks in ascending number (R245) -/
  sram : List Nat := []
  mf : Manifest := {}
  /-- it was running when its context faulted in the present clock: turns of this clock still act (R174) -/
  closing : Bool := false
  stopped : Bool := false
  /-- the breakpoint entry, stream and phase of a stop whose record is not written (R133) -/
  stopRec : Option (Nat × Nat × Nat) := none
  /-- the address of the stop slot that holds its record -/
  stopSlot : Option Nat := none
  /-- streams (0 the sequencer, 1 + group) whose first instruction is matched against no breakpoint (R134) -/
  bpPass : List Nat := []
  /-- order of swap-outs (R144) -/
  swapNo : Nat := 0
  /-- bell tick at which the quantum started (R142) -/
  qstart : Nat := 0
  /-- has executed a PUSH (R377) -/
  pushed : Bool := false
  stores : List StoreRec := []
  deriving DecidableEq, Repr

/-! ## Contexts and grids -/

/-- What an unhandled-fault record holds (R174). -/
structure FaultRec where
  stream : Nat
  cls : Nat
  code : Nat
  iaddr : Word
  daddr : Word
  group : Nat
  width : Nat
  lanes : Nat
  nrec : Nat
  records : List Word
  deriving DecidableEq, Repr

/-- The fields of a context record (R100). -/
structure CtxRecord where
  version : Nat := 0
  prio : Nat := 0
  mclass : Nat := 0
  priv : Bool := false
  det : Bool := false
  ptroot : Nat := 0
  quantum : Nat := 0
  regcap : Nat := 0
  lvec : Word := 0
  svec : Word := 0
  bpcount : Nat := 0
  bptab : Nat := 0
  qrtab : Nat := 0
  qrdims : Nat := 0
  trbase : Nat := 0
  sample : Nat := 0
  trpages : Nat := 0
  frec : Nat := 0
  deriving DecidableEq, Repr

/-- States of a context (R97). -/
inductive CtxState where
  | free
  | loading
  | ready
  | running
  | swapped
  | migrating
  | faulted
  | wiped
  deriving DecidableEq, Repr

/-- States of a capture window (R120). -/
inductive CapState where
  | off
  | opened
  | stalled
  deriving DecidableEq, Repr

/-- A breakpoint entry as read (R130, R131): its index in the table and its two doublewords. -/
structure BpEntry where
  index : Nat
  w0 : Word
  w1 : Word
  deriving DecidableEq, Repr

/-- Where the completion word of a packet goes (R113, R115): context (none for a physical address), address,
SEQ, interrupt wish, and the queue that carried it. -/
structure CompWord where
  asid : Option Nat := none
  addr : Nat := 0
  seq : BitVec 32 := 0
  intr : Bool := false
  queue : Nat := 0
  deriving DecidableEq, Repr

/-- One context (R97, R100, R120, R130, R330). Default: free. -/
structure Context where
  st : CtxState := .free
  rcd : CtxRecord := {}
  cap : CapState := .off
  capQueue : Nat := 0
  capWrites : Nat := 0
  capDrops : Nat := 0
  /-- a CAPSTOP accepted and not completed -/
  capStop : Option CompWord := none
  bps : List BpEntry := []
  /-- the fault of the present clock that its record will hold, with its team (R174) -/
  faultNow : Option (Nat × FaultRec) := none
  /-- regeneration kernels: slot to entry address plus one (R330) -/
  regen : SMap Nat := []
  /-- completion word of the MOVE in progress, and the target chip (R104) -/
  moveTo : Option Nat := none
  deriving DecidableEq, Repr

/-- A LAUNCH packet's fields (R111, R112) with the entry it names (R123). -/
structure Launch where
  graph : Nat := 0
  cap : Nat := 64
  roin : Bool := false
  entry : Nat := 0
  arg : Word := 0
  gx : Nat := 1
  gy : Nat := 1
  gz : Nat := 1
  cx : Nat := 1
  cy : Nat := 1
  sbanks : Nat := 0
  seq : BitVec 32 := 0
  /-- code object and its entry: addresses of the two streams, width, lanes -/
  obj : Nat := 0
  lanePc : Word := 0
  seqPc : Word := 0
  /-- end of the code section as mapped -/
  codeEnd : Word := 0
  width : Nat := 32
  lanes : Nat := 0
  /-- the data image (R23) -/
  image : List Byte := []
  deriving DecidableEq, Repr

/-- States of an interval (R373). -/
inductive IntervalState where
  | closed
  | opened
  | logging
  | unprotected
  | rolling
  deriving DecidableEq, Repr

/-- An undo-log entry (R372): line, bytes, poison, and tags. A line of another chip has no bytes until its owner has sent what it
held. -/
structure UndoEntry where
  line : Nat
  bytes : List Byte
  poison : Bool
  tags : Nat × Nat
  deriving DecidableEq, Repr

/-- A checkpoint image (R371): the team, the bytes and poison of its scratchpad banks, and the accesses that it has issued and
not performed and its flushes' entries still to be applied, which stay replayable (R143). -/
structure Checkpoint where
  key : Nat
  team : Team
  bytes : SMap Byte
  poisoned : List Nat
  parked : List Parked
  releases : List Release
  deriving DecidableEq, Repr

/-- The interval of a grid (R371 to R375). -/
structure Interval where
  st : IntervalState := .closed
  first : Bool := true
  undo : List UndoEntry := []
  images : List Checkpoint := []
  deferred : List RedEntry := []
  rolls : Nat := 0
  deriving DecidableEq, Repr

/-- One grid (R112, R135 to R141, R309, R310, R371). Default: not live. -/
structure Grid where
  live : Bool := false
  asid : Nat := 0
  launch : Launch := {}
  cw : CompWord := {}
  /-- the record values in force at the grid's start (R102) -/
  rcd : CtxRecord := {}
  started : Bool := false
  /-- next team index never dispatched here -/
  nextIx : Nat := 0
  /-- teams that have retired -/
  retired : Nat := 0
  /-- clusters whose places are held: cluster number and first core -/
  placed : List (Nat × Nat) := []
  /-- a cluster passed over, with the tick of the first time (R118) -/
  passed : List (Nat × Nat) := []
  /-- DET tags: 1 + writer and 1 + reader per line of physical or scratchpad memory (R140) -/
  tags : SMap (Nat × Nat) := []
  deferred : List RedEntry := []
  /-- cluster barriers: phase and ranks arrived (R309) -/
  cbar : SMap (Nat × List Nat) := []
  gbarPhase : Nat := 0
  /-- team indices arrived at the grid barrier -/
  gbarArr : List Nat := []
  /-- the DET direction-table snapshot or the one taken at start (R338) -/
  qr : List Word := []
  interval : Interval := {}
  captured : Bool := false
  /-- a regeneration grid: page address and nesting level (R330) -/
  regen : Option (Nat × Nat) := none
  /-- the status a regeneration grid ended with (R330), and whether its waiting accesses fault -/
  regenStatus : Option Nat := none
  /-- the frame of the page that it regenerates -/
  regenFrame : Nat := 0
  regenFailed : Bool := false
  /-- another chip starts its unstarted teams, or none does, and this chip does not write its word (R98, R104) -/
  moved : Bool := false
  /-- it came here by a MOVE, and the first team that starts here (R104) -/
  arrived : Bool := false
  base : Nat := 0
  /-- moved here: teams that the source started and of which some have not retired there (R104) -/
  source : Nat := 0
  /-- the status it ends with where its teams do not bring it to its end (R98, R338) -/
  endWith : Option Nat := none
  /-- swapped-out clusters that stand behind the cluster, of a grid, that took their places (R142, DEDUCED log 24) -/
  behind : List (Nat × Nat × Nat) := []
  deriving DecidableEq, Repr

/-! ## Engines -/

/-- One thing that an engine still has to do for a command (R251, R254, R257): write the bytes at an address
(mask and value each, within one line; `line` is 1 + the claimed line's key, 0 for none), count bytes into the
arrival word, or stop at an error with its code, cause and address. -/
inductive PlanItem where
  | write (va : Nat) (bytes : List (Nat × Nat)) (poison : Bool) (line : Nat)
  | count (n : Nat)
  | fail (code cause addr : Nat)
  deriving DecidableEq, Repr

/-- A command in an engine queue (R233, R252, R328, R358). `num` is its place among all pushes; `claims` the
destination lines not yet written and `srcs` the source lines not yet read, as line keys; `plan` what is left
once its sources are read; `pos` the frames a page-engine command has handled, `tier` its engine and `moving` whether its next frame
migrates now; `page` the context page it waits for. For an exchange command, as found at its push: `code` its
error, `status` the status it aborts with for want of a usable frame view, `count0` the members of the view
(R359, R365), and `old` the parties of its frame, 0 without one (R362). `fw` marks a command of the firmware. -/
structure Cmd where
  num : Nat := 0
  team : Nat := 0
  lane : Option Nat := none
  iaddr : Word := 0
  core : Nat := 0
  /-- its logical time (R228, R233) -/
  pts : Nat := 0
  fw : Bool := false
  words : List Word := []
  claims : List Nat := []
  srcs : List Nat := []
  plan : Option (List PlanItem) := none
  pos : Nat := 0
  tier : Nat := 0
  moving : Bool := false
  page : Option (Nat × Nat) := none
  /-- its claims and sources stand for more than it will access: a GATHER's or SCATTER's elements, not yet known (R254) -/
  loose : Bool := false
  /-- teams whose scratchpad it reads or writes, its arrival word and result record included (R143, R155) -/
  touches : List Nat := []
  /-- the place of its last line write among those whose counts are still to come (R251) -/
  wrote : Nat := 0
  /-- the lines of its frame travel between chips now; how many of them are on their way or have come, and the LOCATION of the
  free frame that it has taken (R325, R329) -/
  flying : Bool := false
  line : Nat := 0
  target : Nat := 0
  code : Nat := 0
  status : Nat := 0
  count0 : Nat := 0
  old : Nat := 0
  deriving DecidableEq, Repr

/-! ## The memory system -/

/-- An L1 copy of a line (R231, R317): core, the virtual tag (context and line address), and the timestamps it
holds; owned copies have `owned`. -/
structure L1Copy where
  core : Nat
  asid : Nat
  va : Nat
  owned : Bool
  wts : Nat
  rts : Nat
  deriving DecidableEq, Repr

/-- What is kept for a line beyond its bytes (R228, R231, R243). -/
structure LineState where
  poison : Bool := false
  wts : Nat := 0
  rts : Nat := 0
  copies : List L1Copy := []
  deriving DecidableEq, Repr

/-- A TLB entry of a quad (R317): page size in bytes, permission bits R, W, X and the physical page. -/
structure TlbEntry where
  asid : Nat
  page : Nat
  size : Nat
  perms : BitVec 3
  pa : Nat
  deriving DecidableEq, Repr

/-- Per-core state (R128, R228, R252, R259). Instruction-cache lines hold 1 + their bytes as one number,
keyed by physical line. -/
structure Core where
  pts : Nat := 0
  icache : SMap Nat := []
  /-- the translations under which its lines were fetched: line, context, virtual line (R319, R334) -/
  ivia : List (Nat × Nat × Nat) := []
  ce : List Cmd := []
  /-- waiting ACQs in order of issue: team, count, destination register -/
  acq : List (Nat × Nat × Nat) := []
  /-- memory instructions of captured teams issued, for sampling (R121) -/
  sampled : Nat := 0
  deriving DecidableEq, Repr

/-! ## Queues and code objects -/

/-- States of a queue (R110). -/
inductive QState where
  | disabled
  | idle
  | active
  | blocked
  | error
  deriving DecidableEq, Repr

/-- A held completion write (R397). -/
structure HeldWrite where
  cw : CompWord
  word : Word
  /-- the code object that a grid holds a reference to until its word is written (R125); 0 for none -/
  obj : Nat := 0
  deriving DecidableEq, Repr

/-- A host queue (R107 to R110). -/
structure HostQueue where
  st : QState := .disabled
  qbase : Word := 0
  qctl : Word := 0x40000
  tail : Nat := 0
  head : Nat := 0
  held : List HeldWrite := []
  deriving DecidableEq, Repr

/-- A port queue of a model class (R119) with the values scheduler firmware holds for the class. -/
structure PortQueue where
  /-- records, each with the port it came through -/
  recs : List (Nat × List Byte) := []
  blocked : Bool := false
  enabled : Bool := false
  asid : Nat := 0
  vector : Nat := 0
  deriving DecidableEq, Repr

/-- States of a code object (R125). -/
inductive ObjState where
  | unloaded
  | loading
  | translating
  | resident
  | draining
  deriving DecidableEq, Repr

/-- A code object (R123 to R125): where its image lies, its size and the reports made. -/
structure CodeObj where
  st : ObjState := .unloaded
  pa : Nat := 0
  image : List Byte := []
  report : List Nat := []
  deriving DecidableEq, Repr

/-- Values that scheduler firmware holds per model class (R103, R118, R372, R377). -/
structure ClassPolicy where
  floor : Nat := 0
  cap : Nat := 0
  logcap : Nat := 0
  rollmax : Nat := 0
  audit : Option Nat := none
  deriving DecidableEq, Repr

/-- An error-log entry (R376). -/
structure LogEntry where
  kind : Nat
  asid : Nat
  seq : BitVec 32
  addr : Word
  detail : Word
  tick : Word
  deriving DecidableEq, Repr

/-! ## The fabric -/

/-- What a READY flit carries (R359). -/
structure ReadyBody where
  collid : BitVec 32
  op : Nat
  rop : Nat
  ty : Nat
  count : Nat
  peer : Nat
  policy : Nat
  frame : Nat
  members : Nat
  aborted : Bool
  deriving DecidableEq, Repr

/-- The payload of a flit (R348). -/
inductive FlitBody where
  | beacon
  /-- the suspected chip and the boundary -/
  | suspect (chip b : Nat)
  /-- a join notice, an event of the same kind (R354) -/
  | notice (chip b : Nat)
  /-- part n of the eleven VIEWREC flits: view number and members named so far -/
  | viewrec (part vnum : Nat) (members : List Nat)
  | join
  | ptp
  | ready (r : ReadyBody)
  /-- part n of a party's contribution, with its poisoned bytes -/
  | xdata (collid : BitVec 32) (part : Nat) (bytes : List (Byte × Bool))
  /-- a forwarded access (R322), by its tag: a write of bytes at a frame address of the owner; `old` asks for what the line held
  before, for a grid's undo log (R372) -/
  | fwdWrite (tag pa : Nat) (bytes : List Byte) (poison old : Bool)
  /-- a forwarded read -/
  | fwdRead (tag pa n : Nat)
  /-- a forwarded atomic step: operation, type, operand, comparand, poison of the operands, and `old` -/
  | fwdAtom (tag pa op t : Nat) (y c : Word) (poison old : Bool)
  /-- the answer: the bytes read, none for a write, and their poison; where the owner discarded a write that would have
  carried poison to host memory, its host address (R374); and the line's bytes and poison before a write, where they were asked
for (R372) -/
  | fwdReply (tag : Nat) (bytes : List Byte) (poison : Bool) (host : Option Nat) (old : Option (List Byte × Bool))
  /-- a line move (R325) to a frame address: bytes, poison, wts and rts -/
  | move (tag pa : Nat) (bytes : List Byte) (poison : Bool) (wts rts : Nat)
  /-- the line at a frame address is asked for, (R325) -/
  | moveAsk (tag pa : Nat)
  /-- the line that was asked for -/
  | moved (tag : Nat) (bytes : List Byte) (poison : Bool) (wts rts : Nat)
  /-- a part of the payload of the flit, of the same kind, that follows it to its destination -/
  | more (kind : Nat)
  /-- any other kind -/
  | other (kind : Nat)
  deriving DecidableEq, Repr

/-- A flit between chips (R348). -/
structure Flit where
  dst : Nat
  src : Nat
  vtag : Nat
  tick : Nat
  seq : Nat
  body : FlitBody
  deriving DecidableEq, Repr

/-- Who made a forwarded access (R220, R225): a lane or a sequencer, an engine command by its number, a walk or an
instruction fetch, or a deferred-reduction entry. -/
inductive FwdFor where
  | agent (a : Agent)
  | engine (num : Nat)
  | walk
  | red
  | dispatcher
  /-- another chip, by the tag of the access that it forwarded here -/
  | flit (src tag : Nat)
  deriving DecidableEq, Repr

/-- A forwarded access that has not been seen to perform (R219, R322): its tag, the owner's chip, who made it, the
physical address here, its size, whether it writes, context and grid, and the answer once it is here. -/
structure Forward where
  tag : Nat
  chip : Nat
  owner : FwdFor
  pa : Nat
  n : Nat
  write : Bool
  asid : Nat
  grid : Nat
  reply : Option (List Byte × Bool) := none
  /-- wts and rts of a line that a move brings (R237) -/
  stamps : Nat × Nat := (0, 0)
  /-- the team and the record of the stream to which a write of poison to host memory belongs (R374) -/
  blame : Option (Nat × FaultRec) := none
  /-- the host address at which the owner discarded such a write -/
  host : Option Nat := none
  /-- what the line held before a write, where it was asked for (R372) -/
  old : Option (List Byte × Bool) := none
  deriving DecidableEq, Repr

/-- States of a Wayline port (R350). -/
inductive PortState where
  | down
  | training
  | up
  deriving DecidableEq, Repr

/-- A collective operation in flight on this chip (R359 to R363). -/
structure XeOp where
  cmd : Cmd
  frame : Nat
  parties : List Nat
  src : List (Byte × Bool)
  /-- the tick this chip's READY flits go out -/
  ready : Option Nat
  /-- READY flits received: chip, tick, body -/
  readys : List (Nat × Nat × ReadyBody)
  begun : Option Nat
  data : List (Nat × List (Byte × Bool))
  /-- the boundary at which the last of the data was delivered -/
  heard : Nat := 0
  /-- the parties that take part since it began: those that every view change left -/
  taking : List Nat
  rerun : Bool
  /-- a source access faulted: the READY flits say so (R365) -/
  aborted : Bool
  /-- the flits of its data that the schedule has not let go yet (R367) -/
  togo : List (Nat × FlitBody) := []
  deriving DecidableEq, Repr

/-- The fabric side of the chip (R345 to R368). -/
structure Fabric where
  tick : Nat := 0
  t0 : Nat := 0
  quota : Nat := 0
  chip : Nat := 0
  vnum : BitVec 32 := 0
  members : List Nat := []
  isol : Bool := false
  /-- boundary at which the view in force was installed -/
  installed : Nat := 0
  /-- chips that the view in force admitted by a join notice -/
  admitted : List Nat := []
  /-- servo offset above 250 ns: no beacon is sent (R345) -/
  servo : Bool := false
  ports : SMap PortState := []
  /-- forwarded accesses made here that are not seen to have performed, and the number of the next one (R322) -/
  fwd : List Forward := []
  nextTag : Nat := 0
  /-- writes of poison to host memory that owners have discarded: the team and the record (R374) -/
  refused : List (Nat × FaultRec) := []
  /-- what lines of other chips held before writes of grids: grid, line, bytes and poison (R372) -/
  olds : List (Nat × Nat × List Byte × Bool) := []
  /-- forwarded accesses and line moves delivered here and not yet served -/
  inbox : List Flit := []
  /-- flits for which no tick has room yet (R347): destination and payload -/
  unsent : List (Nat × FlitBody) := []
  /-- flits sent and not yet delivered elsewhere, each with its enqueue tick -/
  outbox : List (Nat × Flit) := []
  /-- next SEQ to each destination, last SEQ from each source plus one -/
  seqOut : SMap Nat := []
  seqIn : SMap Nat := []
  /-- sources whose SEQ restarts at 0, each with the first tick of its new count (R349) -/
  seqFresh : List (Nat × Nat) := []
  /-- sources of the flits delivered at the present boundary (R349) -/
  heard : List Nat := []
  /-- beacons missed in a row, per monitored member -/
  missed : SMap Nat := []
  /-- ticks of the beacons received, per member -/
  beacons : List (Nat × Nat) := []
  /-- round boundary s and its events: chip, joins -/
  round : Option Nat := none
  events : List (Nat × Bool) := []
  /-- suspicions, for missed beacons and for gaps in SEQ, and join notices that this chip has still to raise at the
  present boundary (R349, R353, R357) -/
  suspects : List Nat := []
  gaps : List Nat := []
  joins : List Nat := []
  /-- chips this chip sponsors -/
  sponsored : List Nat := []
  /-- VIEWREC parts received while rejoining -/
  viewrecs : List (Nat × Nat × List Nat) := []
  /-- the chip has left the view and has issued JOIN (R356) -/
  rejoining : Bool := false
  /-- flits discarded for their tag or kind -/
  discards : Nat := 0
  /-- events reported to fabric firmware -/
  reports : Nat := 0
  xe : List XeOp := []
  xeq : List Cmd := []
  /-- READY flits of operations that this chip has not pushed: source, tick, body -/
  early : List (Nat × Nat × ReadyBody) := []
  /-- schedule of the view loaded: per OP and largest COUNT of a class, the flits that this chip sends in each tick after
  an operation begins (R367) -/
  schedule : List (Nat × Nat × List Nat) := []
  /-- the view's schedule is loaded on every member (R367) -/
  loaded : Bool := false
  deriving DecidableEq, Repr

/-! ## Firmware images -/

/-- States of an image in a slot (R383). -/
inductive ImageState where
  | empty
  | staged
  | verified
  | shadow
  | active
  | retained
  | rolledBack
  deriving DecidableEq, Repr

/-- An image: its bytes' measurement, header fields and state (R381 to R383). -/
structure Image where
  st : ImageState := .empty
  kind : Nat := 0
  svn : BitVec 32 := 0
  minState : Nat := 0
  maxState : Nat := 0
  measure : Nat := 0
  /-- header and body (R381) -/
  bytes : List Byte := []
  deriving DecidableEq, Repr

/-- Per image kind: the image in force, the retained one, its heartbeat windows (R383 to R385). -/
structure ImageKind where
  inForce : Image := { st := .active }
  retained : Image := {}
  missed : Nat := 0
  windows : Nat := 0
  beat : Bool := false
  /-- committed state records: STATEVER and bytes, latest first -/
  records : List (Nat × List Byte) := []
  /-- the record with which the image in force started, or would start again: that of step 2 at first -/
  handed : List Byte := []
  deriving DecidableEq, Repr

/-- Life-cycle states (R390). -/
inductive LifeCycle where
  | development
  | production
  | returned
  deriving DecidableEq, Repr

/-- An attestation-log entry (R386). -/
structure AttEntry where
  event : Nat
  kind : Nat
  svn : BitVec 32
  tick : Word
  digest : Nat
  deriving DecidableEq, Repr

/-- A value that firmware sets (R388), or what it takes from the rings that the device fills for it. -/
inductive FwSet where
  /-- QCTL's PRIV, CTXCMD and ASID of a queue (R108) -/
  | queue (q asid : Nat) (priv ctxcmd : Bool)
  /-- FLOOR, CAP, LOGCAP, ROLLMAX and the audit's k of a model class (R118, R372, R377) -/
  | policy (cls : Nat) (p : ClassPolicy)
  /-- a bandwidth weight: controller, class, weight (R103) -/
  | weight (ctrl cls w : Nat)
  /-- a class's launch-port enable, ASID and vector (R119) -/
  | portClass (cls : Nat) (enabled : Bool) (asid vector : Nat)
  /-- a launch port's MAC address (R119) -/
  | mac (port addr : Nat)
  /-- a promotion threshold by LOC (R324) -/
  | threshold (loc n : Nat)
  /-- the watermarks of a tier (R326) -/
  | watermarks (tier low high : Nat)
  /-- the victim ring of a tier (R326) -/
  | victims (tier : Nat) (fs : List Nat)
  /-- the free frames of a tier, 1 to 4, or of another chip, 4,096 plus its number (R329) -/
  | freeList (tier : Nat) (fs : List Nat)
  /-- a regeneration kernel of a context: slot and entry address, or none (R330) -/
  | regen (asid slot : Nat) (entry : Option Nat)
  /-- the lease (R229) -/
  | lease (n : Nat)
  /-- the send quota (R347) -/
  | quota (n : Nat)
  /-- the domain time of tick 0 (R345) -/
  | t0 (n : Nat)
  /-- the chip's number (R351) -/
  | chip (n : Nat)
  /-- a row of the schedule of the view: OP, the largest COUNT of its class, and the flits that this chip sends in each
  tick (R367) -/
  | schedule (op limit : Nat) (flits : List Nat)
  /-- every member's schedule table for the view is loaded (R367) -/
  | scheduleLoaded
  /-- the size of the error log's ring, and entries taken from its head (R376) -/
  | logRing (size taken : Nat)
  /-- the ageing threshold (R380) -/
  | ageLimit (n : Nat)
  /-- the unstarted teams of a grid of a context that moved here, from the first on: entry, launch values, completion word
  and, of a grid that the source started, the record in force then and the snapshot (R104) -/
  | moveGrid (asid entry first : Nat) (l : Launch) (cw : CompWord) (started : Option (CtxRecord × List Word))
  /-- every team of a grid that the source started has retired there; with them come the deferred set and the snapshot
  (R104, R344) -/
  | moveSet (grid : Nat) (entries : List RedEntry) (qr : List Word)
  /-- the source of a MOVE says that the context has faulted there: its unstarted teams are not dispatched here (R98) -/
  | moveFault (asid : Nat)
  /-- sets taken from those to be carried (R344) -/
  | takeCarried (n : Nat)
  /-- a page-engine command (R328) -/
  | pushPg (words : List Word)
  /-- the rectangle named for a cluster that was passed over (R118) -/
  | rect (grid cluster core : Nat)
  /-- frames taken from the promotion ring (R324) -/
  | takePromoted (n : Nat)
  /-- a fused minimum version of an image kind, which only rises (R382) -/
  | minimum (kind : Nat) (svn : BitVec 32)
  deriving DecidableEq, Repr

/-- The management side (R381 to R390). -/
structure Firmware where
  staging : Image := {}
  kinds : SMap ImageKind := []
  minima : SMap (BitVec 32) := []
  life : LifeCycle := .development
  att : List AttEntry := []
  chain : Nat := 0
  fwLast : BitVec 32 := 0
  fwCount : BitVec 32 := 0
  /-- status of the last request: 0 done, 1 busy, 2 refused, 3 verification failed -/
  status : Nat := 0
  /-- the kind of the hand-over that runs (R383, R384) -/
  handing : Option Nat := none
  /-- mailbox requests that wait for the hand-over of the management image (R389) -/
  waiting : List (List FwSet) := []
  deriving DecidableEq, Repr

/-! ## The dispatcher and host interface -/

/-- A retired team that the auditor has still to replay (R377, R378): team index, context, SEQ, and the signature
that its run computed. -/
structure Audit where
  ix : Nat
  asid : Nat
  seq : BitVec 32
  signature : Nat
  deriving DecidableEq, Repr

/-- How a host-memory access failed in the bridge (R323). -/
inductive BridgeError where
  | abort
  | unsupported
  | timeout
  | poisoned
  deriving DecidableEq, Repr

/-- What a write of the device that waits is: a trace record, a grid's fault record, or a completion word, of a grid that
holds a code object, and dropped where it faults as its context is erased (R99, R121, R125, R174). -/
inductive LateKind where
  | trace
  | fault (grid : Nat)
  | word (h : HeldWrite) (drop : Bool)
  deriving DecidableEq, Repr

/-- A write of the device that waits for a page or a line (R235, R327, R330): context, address, bytes, and whether it
covers whole lines. -/
structure LateWrite where
  asid : Option Nat
  va : Nat
  bytes : List Byte
  full : Bool
  kind : LateKind
  deriving DecidableEq, Repr

/-- What scheduler firmware carries to the target of a MOVE when the last team of a DET grid that started here has retired
(R344): context, SEQ, the deferred set and the snapshot. -/
structure Carried where
  asid : Nat
  seq : BitVec 32
  entries : List RedEntry
  qr : List Word
  deriving DecidableEq, Repr

/-- A row of HBM4E: stack, channel, bank group and row (R376, R379). -/
structure HbmRow where
  stack : Nat
  channel : Nat
  group : Nat
  row : Nat
  deriving DecidableEq, Repr

/-- Where the stored bits of a line that carry an uncorrectable error lie (R243, R376): in the line's memory or bank, in its slice
of the memory-side cache, or in the L1 of a core, with the physical bank and the line there. -/
inductive ErrorSite where
  | home
  | cache
  | l1 (core bank line : Nat)
  deriving DecidableEq, Repr

/-- The dispatcher, the host registers and scheduler firmware's values (R103 to R119, R318, R324, R326, R376,
R380, R389). -/
structure Dispatcher where
  queues : SMap HostQueue := []
  ports : SMap PortQueue := []
  macs : SMap Nat := []
  drops : SMap Nat := []
  weights : SMap Nat := []
  policy : SMap ClassPolicy := []
  lastServed : Nat := 31
  /-- accepted grids in order of acceptance -/
  order : List Nat := []
  /-- rectangles that firmware names for clusters passed over: grid, cluster, first core (R118) -/
  rects : List (Nat × Nat × Nat) := []
  nextGrid : Nat := 1
  nextSwap : Nat := 1
  /-- dropped completion writes counted for scheduler firmware (R99) -/
  lostWords : Nat := 0
  msixMask : BitVec 64 := BitVec.allOnes 64
  msixPending : BitVec 64 := 0
  /-- the function mask of MSI-X (R116) -/
  msixFunction : Bool := false
  msixTable : SMap Word := []
  /-- MSI-X messages sent, latest first -/
  messages : List Nat := []
  tlbinvDone : BitVec 32 := 0
  mbreq : Word := 0
  mbstat : BitVec 32 := 0
  /-- ageing registers by die; default EOL 0xFFFF, HOURS 0, WEAR 0 (R380) -/
  ageing : SMap Word := []
  ageLimit : Nat := 0
  logCap : Nat := 0
  log : List LogEntry := []
  logDropped : Nat := 0
  objs : SMap CodeObj := []
  nextObj : Nat := 1
  lease : Nat := 64
  /-- free frames per tier as lists of location fields (R329) -/
  freeList : SMap (List Nat) := []
  low : SMap Nat := []
  high : SMap Nat := []
  victims : SMap (List Nat) := []
  /-- promotion thresholds per LOC, and the ring of posted frames (R324) -/
  threshold : SMap Nat := []
  promoted : List Nat := []
  /-- events posted to scheduler firmware by demotion (R326) -/
  posted : Nat := 0
  /-- tiers whose engine demotes now (R326) -/
  demoting : List Nat := []
  /-- per tier, 1 + the frame whose demotion is in progress (R321, R326) -/
  victim : SMap Nat := []
  pg : List Cmd := []
  /-- errors of page-engine commands that the firmware issued: number and code (R329) -/
  pgErrors : List (Nat × Nat) := []
  /-- pages of contexts for whose regeneration a read of the dispatcher waits (R330) -/
  pageWaits : List (Nat × Nat) := []
  /-- writes of the device that wait, in order -/
  late : List LateWrite := []
  /-- what firmware has still to carry to targets of moves (R344) -/
  carried : List Carried := []
  /-- teams selected for audit replay (R377) -/
  audits : List Audit := []
  /-- rows repaired, hard repairs recorded for the next reset, and rows whose channels are quiesced for a soft repair (R379) -/
  repaired : List HbmRow := []
  hardList : List HbmRow := []
  quiesced : List HbmRow := []
  /-- spare rows left, by stack, channel and bank group; default one (R379, DESIGN CHOICE log 52) -/
  spares : SMap Nat := []
  /-- forwarded writes discarded (R323) -/
  discarded : Nat := 0
  /-- how the next access to host memory fails in the bridge (R323) -/
  hostFail : Option BridgeError := none
  deriving DecidableEq, Repr

/-! ## Turns -/

/-- Result of an auditor's replay (R378). -/
inductive AuditResult where
  /-- the replay ran to its end, with this signature -/
  | ran (signature : Nat)
  | faulted
  deriving DecidableEq, Repr

/-- An Ethernet frame at a launch port (R119). -/
structure EthFrame where
  dst : Nat
  ethertype : Nat
  fcsOk : Bool
  payload : List Byte
  deriving DecidableEq, Repr

/-- Operands that stand beside an event in the schedule: what the outside world or firmware policy supplies. -/
inductive EvArg where
  | none
  | nat (a : Nat)
  | nat2 (a b : Nat)
  | nat3 (a b c : Nat)
  | word (w : Word)
  | natWord (a : Nat) (w : Word)
  | bytes (l : List Byte)
  | natBytes (a : Nat) (l : List Byte)
  | natOptBytes (a : Nat) (l : Option (List Byte))
  | frame (port : Nat) (f : EthFrame)
  | life (l : LifeCycle)
  | audit (a : Nat) (r : AuditResult)
  | row (r : HbmRow)
  | bridge (e : BridgeError)
  | view (vnum : BitVec 32) (l : List Nat)
  | flits (l : List Flit)
  | firmware (l : List FwSet)
  deriving DecidableEq, Repr

/-- Who acts in a step. -/
inductive Turn where
  /-- no one -/
  | idle
  /-- the issue slot of a partition of a core (R163) -/
  | slot (core part slot : Nat)
  /-- the sequencer of a team -/
  | seq (team : Nat)
  /-- an event of the part, with its operands -/
  | event (i : Instr) (a : EvArg)
  /-- the other agents' loads see a buffered store of a sequencer from now on, or see it no more (R148, R238) -/
  | drain (team idx : Nat)
  /-- the oldest write of the device that waits is tried again (R235, R327, R330) -/
  | late
  /-- the next accesses perform n pieces at once; other agents' accesses join before the rest (R202) -/
  | pace (n : Nat)
  /-- a TLB entry is replaced (R317, DESIGN CHOICE log 17) -/
  | evictTlb (quad idx : Nat)
  /-- an L1 copy of a line is evicted (R232) -/
  | evictL1 (line core : Nat)
  /-- the stored bits of a line take an uncorrectable error, where they lie (R243) -/
  | strike (line : Nat) (site : ErrorSite)
  /-- a grid's undo log takes an uncorrectable error (R373) -/
  | strikeLog (grid : Nat)
  deriving DecidableEq, Repr

/-! ## The whole chip -/

/-- The state of the chip. Maps and their defaults: mem 0 (R390), lines unpoisoned with zero timestamps,
frames 0 (R320), cores, teams, grids and contexts empty. -/
structure State where
  /-- bytes of memory by location key: 1, 2, 3, 4 times 2^56 plus an address for HBM4E, LPDDR6, host bus and
  storage; 2^63 plus ((team * 16 + bank) * 32,768 + offset) for scratchpad -/
  mem : SMap Byte
  /-- per-line state by location key / 64 -/
  lines : SMap LineState
  /-- lines whose stored bits carry an uncorrectable error (environment) -/
  bad : SMap Bool
  /-- where those bits lie, if not at home (environment) -/
  sites : SMap ErrorSite
  /-- indirection entries by frame name (R320) -/
  frames : SMap Word
  tlb : SMap (List TlbEntry)
  cores : SMap Core
  teams : SMap Team
  grids : SMap Grid
  ctxs : SMap Context
  parked : List Parked
  releases : List Release
  dsp : Dispatcher
  fab : Fabric
  fw : Firmware
  /-- number of the next push (R233) -/
  nextPush : Nat
  /-- a stopped chip does nothing (R370) -/
  chipStopped : Bool
  /-- who acts in the coming steps, and who acts now (DESIGN CHOICE log 2) -/
  schedule : List Turn
  turn : Turn
  /-- clocks counted by the schedule's refill -/
  clock : Nat
  /-- number of the next free value (DESIGN CHOICE log 13) -/
  freeCtr : Nat
  /-- how many pieces the next accesses perform at once: none for all of them (R202, DESIGN CHOICE log 4) -/
  pace : Option Nat
  /-- the sequencers' buffered stores, by team and number, that loads of other agents see now (R148, R238) -/
  seen : List (Nat × Nat)
  deriving DecidableEq, Repr

/-- The chip right after module reset (R390). -/
def State.reset : State :=
  { mem := [], lines := [], bad := [], sites := [], frames := [], tlb := [], cores := [], teams := [], grids := [],
    ctxs := [], parked := [], releases := [], dsp := {}, fab := {}, fw := {}, nextPush := 1,
    chipStopped := false, schedule := [], turn := .idle, clock := 0, freeCtr := 0, pace := none,
    seen := [] }

/-- Why the machine stops: for no reason. A stopped chip passes its turns until a reset (R370). -/
inductive Fault where
  deriving DecidableEq, Repr

/-- Why an instruction has no meaning. -/
inductive Refusal where
  /-- Raised by exec's arms for an instruction not modelled yet, by name. Safe: nothing is claimed of it. -/
  | notModelled (mnemonic : String)
  deriving DecidableEq, Repr

/-- What every meaning answers. -/
abbrev Out := Host.Outcome State Fault Refusal

end Sys2Proof.Machine
end

