-- ==== Sys2Proof/Machine/Mem.lean ====
section
/-! DEFINITION. Memory: where bytes lie (R199, R200, R316, R320), translation (R313 to R319, R330), and reading and
writing with the per-line state (R228 to R232, R243). -/

namespace Sys2Proof.Machine

/-! ## Plain accessors -/

def State.team (s : State) (k : Nat) : Team := SMap.get {} s.teams k
def State.setTeam (s : State) (k : Nat) (t : Team) : State := { s with teams := SMap.set {} s.teams k t }
def State.grid (s : State) (g : Nat) : Grid := SMap.get {} s.grids g
def State.setGrid (s : State) (g : Nat) (x : Grid) : State := { s with grids := SMap.set {} s.grids g x }
def State.ctx (s : State) (a : Nat) : Context := SMap.get {} s.ctxs a
def State.setCtx (s : State) (a : Nat) (x : Context) : State := { s with ctxs := SMap.set {} s.ctxs a x }
def State.coreAt (s : State) (c : Nat) : Core := SMap.get {} s.cores c
def State.setCore (s : State) (c : Nat) (x : Core) : State := { s with cores := SMap.set {} s.cores c x }
def State.line (s : State) (l : Nat) : LineState := SMap.get {} s.lines l
def State.setLine (s : State) (l : Nat) (x : LineState) : State := { s with lines := SMap.set {} s.lines l x }
def State.byte (s : State) (k : Nat) : Byte := SMap.get 0 s.mem k
def State.setByte (s : State) (k : Nat) (b : Byte) : State := { s with mem := SMap.set 0 s.mem k b }

/-- Takes a free value and moves the counter on (DESIGN CHOICE log 13). -/
def State.takeFree (s : State) : Word × State := (Config.freeWord s.freeCtr, { s with freeCtr := s.freeCtr + 1 })

/-- A team's key: its grid number and team index (DEDUCED log 56). -/
def teamKey (grid ix : Nat) : Nat := grid * 2 ^ 48 + ix
def keyGrid (k : Nat) : Nat := k / 2 ^ 48
def keyIx (k : Nat) : Nat := k % 2 ^ 48

/-- The grid and context of a team. -/
def State.gridOf (s : State) (k : Nat) : Grid := s.grid (keyGrid k)
def State.asidOf (s : State) (k : Nat) : Nat := (s.gridOf k).asid

/-- Teams per cluster (R137). -/
def Grid.q (g : Grid) : Nat := g.launch.cx * g.launch.cy
/-- Teams of a grid (R112). -/
def Grid.size (g : Grid) : Nat := g.launch.gx * g.launch.gy * g.launch.gz
/-- Cluster of a team index, and its rank in the cluster (R137). -/
def Grid.clusterOf (g : Grid) (ix : Nat) : Nat := ix / g.q
def Grid.rankOf (g : Grid) (ix : Nat) : Nat := ix % g.q
/-- Teams of a cluster: the last one may hold fewer. -/
def Grid.clusterSize (g : Grid) (c : Nat) : Nat := Nat.min g.q (g.size - c * g.q)

/-! ## Where bytes lie -/

/-- Location keys. -/
def hbmKey (a : Nat) : Nat := 2 ^ 56 + a
def lpddrKey (a : Nat) : Nat := 2 * 2 ^ 56 + a
def hostKey (a : Nat) : Nat := 3 * 2 ^ 56 + a
def storageKey (a : Nat) : Nat := 4 * 2 ^ 56 + a
def spadKey (team bank off : Nat) : Nat := 2 ^ 63 + ((team * 16 + bank) * 32768 + off)

/-- Fields of an indirection entry (R320). -/
def entryLoc (e : Word) : Nat := e.toNat / 2 ^ 61
def entryPin (e : Word) : Bool := e.toNat.testBit 59
def entryMig (e : Word) : Bool := e.toNat.testBit 60
def entryLocation (e : Word) : Nat := e.toNat / 2 ^ 12 % 2 ^ 42
def entryAcc (e : Word) : Nat := e.toNat % 2 ^ 12
def State.frame (s : State) (f : Nat) : Word := SMap.get 0 s.frames f
def State.setFrame (s : State) (f : Nat) (e : Word) : State := { s with frames := SMap.set 0 s.frames f e }

/-- Where a byte is reached now. -/
inductive Reach where
  /-- here, at a location key -/
  | here (key : Nat)
  /-- on another chip, at that chip's frame name -/
  | remote (chip frame : Nat)
  /-- in the host's storage (R327) -/
  | storage
  /-- lost (R323) -/
  | lost
  /-- nowhere: an unbacked frame or an address in no region -/
  | none
  deriving DecidableEq, Repr

/-- Whether a physical address is direct host (R316). -/
def isHostPa (a : Nat) : Bool := decide (2 ^ 51 ≤ a ∧ a < 2 ^ 52)
/-- Whether a physical address lies in a device frame (R316). -/
def isFramePa (a : Nat) : Bool := decide (a < 2 ^ 42)

/-- Pages of each tier of device DRAM: HBM4E and LPDDR6 hold 1 TiB each (R2, R3). -/
def tierPages : Nat := 2 ^ 28

/-- Whether a tier has memory at a LOCATION: one beyond the memory of HBM4E or LPDDR6 backs nothing (R2, R3,
DEDUCED log 70). -/
def tierHolds (loc location : Nat) : Bool := decide (loc = 1 ∨ loc = 2 → location < tierPages)

/-- Where a physical address is reached, through the indirection table (R316, R320). -/
def State.reachPa (s : State) (a : Nat) : Reach :=
  if isHostPa a then .here (hostKey (a % 2 ^ 51))
  else if isFramePa a then
    let e := s.frame (a / 4096)
    let x := entryLocation e * 4096 + a % 4096
    match entryLoc e with
    | 1 => if tierHolds 1 (entryLocation e) then .here (hbmKey x) else .none
    | 2 => if tierHolds 2 (entryLocation e) then .here (lpddrKey x) else .none
    | 3 => .here (hostKey x)
    | 4 => .storage
    | 5 => .remote (entryLocation e / 2 ^ 30) (entryLocation e % 2 ^ 30)
    | 7 => .lost
    | _ => .none
  else .none

def State.reach (s : State) (l : Loc) : Reach :=
  match l with
  | .pa a => s.reachPa a
  | .spad t b o => .here (spadKey t b o)

/-- The place n bytes on. -/
def Loc.plus (l : Loc) (n : Nat) : Loc :=
  match l with
  | .pa a => .pa (a + n)
  | .spad t b o => .spad t b (o + n)

/-- The granule of a place (R202). -/
def Loc.granule (l : Loc) : Nat :=
  match l with
  | .pa a => if isHostPa a then 8 else 32
  | .spad _ _ _ => 64

/-- The byte offset that decides where a place's granules and lines begin. -/
def Loc.offset (l : Loc) : Nat :=
  match l with
  | .pa a => a
  | .spad _ _ o => o

/-- Cuts a run of n bytes at multiples of g (R202). -/
def cutRun (fuel g : Nat) (l : Loc) (n : Nat) : List (Loc × Nat) :=
  match fuel with
  | 0 => []
  | k + 1 =>
    if n = 0 then []
    else
      let m := Nat.min n (g - l.offset % g)
      (l, m) :: cutRun k g (l.plus m) (n - m)

/-- The single-copy atomic pieces of runs (R202). -/
def pieces (runs : List (Loc × Nat)) : List (Loc × Nat) := runs.flatMap (fun r => cutRun (r.2 + 1) r.1.granule r.1 r.2)
/-- The runs cut at 64-byte lines. -/
def linePieces (runs : List (Loc × Nat)) : List (Loc × Nat) := runs.flatMap (fun r => cutRun (r.2 + 1) 64 r.1 r.2)

/-- The line key of a place here: its location key over 64. -/
def State.lineKey (s : State) (l : Loc) : Option Nat :=
  match s.reach l with
  | .here k => some (k / 64)
  | _ => none

/-- The name of a line: its physical address over 64, or its scratchpad place. Tags, claims and unread sources are kept
by it, so that they follow the line wherever its frame lies (R140, R235, R237). -/
def tagKey (l : Loc) : Nat :=
  match l with
  | .pa a => a / 64
  | .spad t b o => spadKey t b o / 64

/-! ## The error log and free words -/

/-- Appends an error-log entry, or counts it when the ring is full (R376). -/
def State.logEntry (s : State) (kind asid : Nat) (seq : BitVec 32) (addr detail : Word) : State :=
  if s.dsp.logCap ≤ s.dsp.log.length then { s with dsp := { s.dsp with logDropped := s.dsp.logDropped + 1 } }
  else { s with dsp := { s.dsp with log := s.dsp.log ++ [⟨kind, asid % 512, seq, addr, detail, BitVec.ofNat 64 s.fab.tick⟩] } }

/-! ## The per-line state -/

/-- Who makes an access: the core whose timestamp it uses (none for an engine, with its own time), context, grid and
team index, the virtual address of its bytes, whether it writes a line that it has claimed, the engine command that
it is part of, who waits for its forwarded pieces, and to which team and record a write of poison to host memory belongs
(R374). -/
structure Who where
  core : Option Nat
  time : Nat
  asid : Nat
  grid : Nat
  ix : Nat
  va : Nat := 0
  claim : Bool := false
  cmd : Option Nat := none
  owner : FwdFor := .dispatcher
  blame : Option (Nat × FaultRec) := none
  deriving DecidableEq, Repr

/-- The access n bytes on. -/
def Who.plus (w : Who) (n : Nat) : Who := { w with va := w.va + n }

/-- Changes the engine command with a number, wherever it is queued. -/
def State.modCmd (s : State) (num : Nat) (f : Cmd → Cmd) : State :=
  let g (c : Cmd) : Cmd := if c.num = num then f c else c
  { s with
    cores := SMap.mapV {} s.cores (fun _ c => { c with ce := c.ce.map g })
    fab := { s.fab with xeq := s.fab.xeq.map g, xe := s.fab.xe.map (fun x => { x with cmd := g x.cmd }) }
    dsp := { s.dsp with pg := s.dsp.pg.map g } }

/-- All commands in engine queues. -/
def State.commands (s : State) : List Cmd :=
  s.cores.flatMap (fun c => c.2.ce) ++ s.fab.xeq ++ s.fab.xe.map (·.cmd)

/-- The highest program timestamp of a core (R228). -/
def State.maxPts (s : State) : Nat := s.cores.foldl (fun m c => Nat.max m c.2.pts) 0

/-- The program timestamp an access starts from (R228): an engine command's never decreases. -/
def State.ptsOf (s : State) (w : Who) : Nat :=
  match w.core with
  | some c => (s.coreAt c).pts
  | none => w.time

/-- A core's timestamp is raised to a time at least (R228). -/
def State.raiseCore (s : State) (c ts : Nat) : State := s.setCore c { s.coreAt c with pts := Nat.max (s.coreAt c).pts ts }

/-- Raises the timestamp of the core, or of the engine command, that makes an access (R229). -/
def State.raisePts (s : State) (w : Who) (ts : Nat) : State :=
  match w.core, w.cmd with
  | some c, _ => s.raiseCore c ts
  | none, some n => s.modCmd n (fun c => { c with pts := Nat.max c.pts ts })
  | none, none => s

/-- Whether a line of this place is cached in an L1: device memory only (R231). -/
def Loc.cached (l : Loc) : Bool :=
  match l with
  | .pa a => isFramePa a
  | .spad _ _ _ => false

/-- Whether a line key is one of host memory: such lines carry no timestamps (R240). -/
def hostLine (k : Nat) : Bool := decide (hostKey 0 / 64 ≤ k ∧ k < storageKey 0 / 64)

/-- Counts a line access to its frame (R324): saturating, posting the frame once at the threshold. -/
def State.countAcc (s : State) (l : Loc) : State :=
  match l with
  | .spad _ _ _ => s
  | .pa a =>
    if isFramePa a then
      let f := a / 4096
      let e := s.frame f
      if entryAcc e = 4095 then s
      else
        let s := s.setFrame f (e + 1)
        if entryAcc e + 1 = SMap.get 0 s.dsp.threshold (entryLoc e) then
          { s with dsp := { s.dsp with promoted := s.dsp.promoted ++ [f] } }
        else s
    else s

/-- Where the error of a line of device memory lies, as DETAIL says it (R376): which row is Config.rowOf (DESIGN CHOICE log
38). -/
def siteDetail (k : Nat) (x : ErrorSite) : Nat :=
  match x with
  | .home => (if k * 64 < 2 * 2 ^ 56 then 0 else 2 ^ 60) + (Config.rowOf k).toNat
  | .cache => 2 * 2 ^ 60 + (Config.rowOf k).toNat / 2 ^ 38 * 2 ^ 38
  | .l1 c bank i => 3 * 2 ^ 60 + c % 1024 * 2 ^ 22 + bank % 16 * 2 ^ 18 + i % 512

/-- The context of a core's copy of a line. -/
def LineState.tagOf (x : LineState) (core : Nat) : Nat := ((x.copies.find? (fun y => decide (y.core = core))).map (·.asid)).getD 0

/-- The entry of kind 0x01 for an error of a line (R376): context, SEQ, ADDR and DETAIL. -/
def State.errorEntry (s : State) (w : Who) (l : Loc) (k : Nat) : (Nat × BitVec 32) × (Nat × Nat) :=
  match l with
  | .spad t b o =>
    let tm := s.team t
    ((s.asidOf t, (s.gridOf t).launch.seq), (0, 3 * 2 ^ 60 + tm.core * 2 ^ 22 + (tm.sram.getD b 0) * 2 ^ 18 + o % 32768 / 64))
  | .pa a =>
    match SMap.get .home s.sites k with
    | .l1 c bank i => (((s.line k).tagOf c, 0), (0, siteDetail k (.l1 c bank i)))
    | x => ((w.asid, (s.grid w.grid).launch.seq), (a / 64 * 64, siteDetail k x))

/-- Whether a read that is made for a core, or for none, meets a line's error: one in an L1 is met by its core's reads alone. -/
def State.badFor (s : State) (core : Option Nat) (k : Nat) : Bool :=
  SMap.get false s.bad k &&
    (match SMap.get .home s.sites k with
      | .l1 c _ _ => decide (core = some c)
      | _ => true)

/-- An uncorrectable error found by a read becomes the line's poison and is logged (R243, R376). -/
def State.detect (s : State) (w : Who) (l : Loc) (k : Nat) : State :=
  if s.badFor w.core k then
    let e := s.errorEntry w l k
    let s := { s.setLine k { s.line k with poison := true } with bad := SMap.set false s.bad k false, sites := SMap.set .home s.sites k .home }
    s.logEntry 1 e.1.1 e.1.2 (BitVec.ofNat 64 e.2.1) (BitVec.ofNat 64 e.2.2)
  else s

/-- The quad of a core (R317). -/
def quadOf (core : Nat) : Nat := core / 4

/-- The L1 copies of a line after its owner is recalled (R232). -/
def recalled (cs : List L1Copy) : List L1Copy := cs.map (fun y => { y with owned := false })

/-- The L1 copies of a line after an access by a core: its own copy, owned after a store, is the one that its quad
holds; every other owner is recalled (R231, R232, R317). -/
def filled (cs : List L1Copy) (w : Who) (c : Nat) (store : Bool) (wts rts : Nat) : List L1Copy :=
  let line := w.va / 64
  let owned := store || cs.any (fun y => decide (y.core = c ∧ y.asid = w.asid ∧ y.va = line ∧ y.owned = true))
  ⟨c, w.asid, line, owned, wts, rts⟩ :: recalled (cs.filter (fun y => decide (quadOf y.core ≠ quadOf c)))

/-- The copies of a line of a place after an access (R231, R232): only lines of device memory are cached. -/
def copiesAfter (cs : List L1Copy) (l : Loc) (w : Who) (store : Bool) (wts rts : Nat) : List L1Copy :=
  if l.cached then
    match w.core with
    | some c => filled cs w c store wts rts
    | none => recalled cs
  else []

/-- The timestamp of a load piece of a line (R229). -/
def loadTs (pts : Nat) (x : LineState) : Nat := Nat.max pts x.wts
/-- The timestamp of a store or atomic piece (R229); the write of a claimed line stands directly above the line's
lease at the claim, which no access has raised since (R235). -/
def storeTs (pts : Nat) (claim : Bool) (x : LineState) : Nat := if claim then x.rts + 1 else Nat.max pts (x.rts + 1)

/-- The per-line effect of a load piece (R229, R232, R243, R324). Its bytes are those that the last store in the order of
steps left (R230, DEDUCED log 69). -/
def State.touchLoad (s : State) (w : Who) (l : Loc) : State :=
  match s.lineKey l with
  | none => s.countAcc l
  | some k =>
    if hostLine k then s.countAcc l else
    let s := s.detect w l k
    let x := s.line k
    let ts := loadTs (s.ptsOf w) x
    let rts := Nat.max x.rts (ts + s.dsp.lease)
    ((s.setLine k { x with rts := rts, copies := copiesAfter x.copies l w false x.wts rts }).raisePts w ts).countAcc l

/-- The per-line effect of a store or atomic piece (R229, R232, R324). -/
def State.touchStore (s : State) (w : Who) (l : Loc) : State :=
  match s.lineKey l with
  | none => s.countAcc l
  | some k =>
    if hostLine k then s.countAcc l else
    let x := s.line k
    let ts := storeTs (s.ptsOf w) w.claim x
    ((s.setLine k { x with wts := ts, rts := ts, copies := copiesAfter x.copies l w true ts ts }).raisePts w ts).countAcc l

/-- An error in the stored bits of a place's line is found by a read that takes no timestamp of its own (R243). -/
def State.detectAt (s : State) (w : Who) (l : Loc) : State :=
  match s.lineKey l with
  | none => s
  | some k => if hostLine k then s else s.detect w l k

/-- Sets or clears a line's poison (R243); bits written anew carry no error. Host memory holds no poison (R331). -/
def State.setPoison (s : State) (l : Loc) (p : Bool) : State :=
  match s.lineKey l with
  | none => s
  | some k =>
    if p && hostLine k then s
    else
      let s := s.setLine k { s.line k with poison := p }
      if p then s else { s with bad := SMap.set false s.bad k false, sites := SMap.set .home s.sites k .home }

def State.poisoned (s : State) (l : Loc) : Bool :=
  match s.lineKey l with
  | none => false
  | some k => (s.line k).poison

/-! ## Tags and the undo log -/

/-- The tags of a line in a grid: 1 + writer, 1 + reader (R140). -/
def Grid.tagsOf (g : Grid) (k : Nat) : Nat × Nat := SMap.get (0, 0) g.tags k

/-- Raises a DET grid's reader or writer tag at a line outside the team's own scratchpad (R140). -/
def State.setTag (s : State) (w : Who) (store : Bool) (l : Loc) : State :=
  let g := s.grid w.grid
  if g.rcd.det then
    match l with
    | .spad t _ _ =>
      if t = teamKey w.grid w.ix then s
      else
        let x := g.tagsOf (tagKey l)
        let y := if store then (Nat.max x.1 (w.ix + 1), x.2) else (x.1, Nat.max x.2 (w.ix + 1))
        s.setGrid w.grid { g with tags := SMap.set (0, 0) g.tags (tagKey l) y }
    | .pa _ =>
      let x := g.tagsOf (tagKey l)
      let y := if store then (Nat.max x.1 (w.ix + 1), x.2) else (x.1, Nat.max x.2 (w.ix + 1))
      s.setGrid w.grid { g with tags := SMap.set (0, 0) g.tags (tagKey l) y }
  else s

/-- The determinism fault of an access, if any (R140): 0 for none; of a store's two the one that the writer's tag raises (DESIGN
CHOICE log 85). -/
def State.detCode (s : State) (w : Who) (store atom : Bool) (l : Loc) : Nat :=
  let g := s.grid w.grid
  let own := match l with
    | .spad t _ _ => decide (t = teamKey w.grid w.ix)
    | .pa _ => false
  if g.rcd.det = false ∨ own = true then 0
  else if atom then 4
  else
    let x := g.tagsOf (tagKey l)
    if store then (if w.ix + 1 < x.2 then 2 else if w.ix + 1 < x.1 then 3 else 0)
    else if w.ix + 1 < x.1 then 1 else 0

/-- Reads the 64 bytes of the line at a location key / 64. -/
def State.lineBytes (s : State) (k : Nat) : List Byte := (List.range 64).map (fun i => s.byte (k * 64 + i))

/-- The policy values of a context's model class. -/
def State.policyOf (s : State) (r : CtxRecord) : ClassPolicy := SMap.get {} s.dsp.policy r.mclass

/-- A grid whose interval keeps a log, which takes further entries (R373). -/
def Grid.logs (g : Grid) : Bool := decide (g.interval.st = .opened ∨ g.interval.st = .logging)

/-- The interval is unprotected from now on, and its log is discarded (R373). -/
def Grid.unprotect (g : Grid) : Grid :=
  if g.logs then { g with interval := { g.interval with st := .unprotected, undo := [] } } else g

/-- Enters a line of device memory into the grid's undo log at its first write of the interval, or as a command of the grid
claims it (R372, R373). What another chip's line held comes with the answer to the first write (DEDUCED log 87). -/
def State.undoLog (s : State) (w : Who) (l : Loc) : State :=
  match l with
  | .spad _ _ _ => s
  | .pa a =>
    if isFramePa a = false then s
    else
      -- a write by another context to a logged line ends that interval's protection
      let s := { s with grids := SMap.mapV {} s.grids (fun _ g =>
        if g.asid ≠ w.asid ∧ g.interval.undo.any (fun u => decide (u.line = a / 64)) = true then g.unprotect else g) }
      let g := s.grid w.grid
      if g.live = true ∧ g.logs = true ∧ g.interval.undo.any (fun u => decide (u.line = a / 64)) = false then
        if (s.policyOf g.rcd).logcap ≤ g.interval.undo.length then s.setGrid w.grid g.unprotect
        else
          let add (bytes : List Byte) (poison : Bool) : State :=
            let u : UndoEntry := ⟨a / 64, bytes, poison, g.tagsOf (a / 64)⟩
            s.setGrid w.grid { g with interval := { g.interval with st := .logging, undo := g.interval.undo ++ [u] } }
          match s.reach l with
          | .here k => add (s.lineBytes (k / 64)) (s.line (k / 64)).poison
          | .remote _ _ => add [] false
          | _ => s
      else s

/-- Whether the undo log of an access's grid has still to learn what a line of another chip held (R372). -/
def State.wantsOld (s : State) (w : Who) (l : Loc) : Bool :=
  (s.grid w.grid).interval.undo.any (fun u => decide (u.line = l.offset / 64 ∧ u.bytes = []))

/-! ## Reading and writing bytes -/

/-- A little-endian number from bytes. -/
def leNat (bs : List Byte) : Nat :=
  match bs with
  | [] => 0
  | b :: r => b.toNat + 256 * leNat r

/-- The low n bytes of a number, little-endian. -/
def leBytes (n x : Nat) : List Byte :=
  match n with
  | 0 => []
  | k + 1 => BitVec.ofNat 8 x :: leBytes k (x / 256)

/-- Whether a place lies in host memory now (R316, R320). -/
def State.inHost (s : State) (l : Loc) : Bool :=
  match s.reach l with
  | .here k => decide (hostKey 0 ≤ k ∧ k < storageKey 0)
  | _ => false

/-- How the bridge fails an access to a place, if it does (R323): a completion is poisoned for a read only. -/
def State.hostFault (s : State) (l : Loc) (write : Bool) : Option BridgeError :=
  match s.dsp.hostFail with
  | none => none
  | some e => if s.inHost l && !(write && decide (e = .poisoned)) then some e else none

/-- Sets the LOC of a frame's entry. -/
def State.setLoc (s : State) (f loc : Nat) : State :=
  s.setFrame f (BitVec.ofNat 64 ((s.frame f).toNat % 2 ^ 61 + loc * 2 ^ 61))

/-- The failure is used up; a frame in host memory whose access it ended is lost (R321, R323) (DESIGN CHOICE log 37). -/
def State.failHost (s : State) (l : Loc) (e : BridgeError) : State :=
  let s := { s with dsp := { s.dsp with hostFail := none } }
  match l with
  | .pa a => if isFramePa a && decide (e ≠ .poisoned) then s.setLoc (a / 4096) 7 else s
  | .spad _ _ _ => s

/-- Where the bytes of a frame that is paged out lie in the host's storage (R320, R327). -/
def State.storedAt (s : State) (l : Loc) : Nat :=
  match l with
  | .pa a => storageKey (entryLocation (s.frame (a / 4096)) * 4096 + a % 4096)
  | .spad _ _ _ => storageKey 0

/-- The bytes of one piece that lies here; in a lost frame they are zero (R323). -/
def State.pieceBytes (s : State) (l : Loc) (n : Nat) : List Byte :=
  match s.reach l with
  | .here k => (List.range n).map (fun i => s.byte (k + i))
  | .storage => (List.range n).map (fun i => s.byte (s.storedAt l + i))
  | _ => List.replicate n 0

/-- Whether a piece that lies here, or in a lost frame, reads as poisoned. -/
def State.piecePoison (s : State) (l : Loc) : Bool :=
  match s.reach l with
  | .here k => (s.line (k / 64)).poison
  | .storage => false
  | _ => true

/-- The monitors of a member: the next two members in ascending number, wrapping (R353). -/
def monitorsOf (members : List Nat) (m : Nat) : List Nat :=
  if members.contains m then
    ((members.filter (fun c => decide (m < c))) ++ members.filter (fun c => decide (c < m))).take 2
  else []

/-- Whether this chip is a member of the view in force (R352). -/
def Fabric.member (f : Fabric) : Bool := f.members.contains f.chip

/-- Flits that a tick may still take: the beacons of a tick to come have their places (R347, R353)
(DESIGN CHOICE log 39). -/
def Fabric.room (f : Fabric) (t : Nat) : Nat :=
  let used := (f.outbox.filter (fun x => decide (x.1 = t))).length
  let quota := if f.tick < t ∧ f.member = true ∧ f.isol = false then f.quota - (monitorsOf f.members f.chip).length else f.quota
  quota - used

/-- The first tick from t on with room for n flits together, within a number of ticks. -/
def Fabric.firstRoom (f : Fabric) (fuel t n : Nat) : Option Nat :=
  match fuel with
  | 0 => none
  | k + 1 => if n ≤ f.room t then some t else Fabric.firstRoom f k (t + 1) n

/-- Enqueues a flit in a tick (R348). Its SEQ is given when it is sent (R349). -/
def Fabric.put (f : Fabric) (t dst : Nat) (b : FlitBody) : Fabric :=
  { f with outbox := f.outbox ++ [(t, ⟨dst, f.chip, f.vnum.toNat % 2 ^ 16, t % 2 ^ 32, 0, b⟩)] }

/-- The tick from which flits to these chips may be enqueued: none goes before an earlier one to its destination (R220). -/
def Fabric.from_ (f : Fabric) (dsts : List Nat) : Nat :=
  f.outbox.foldl (fun t x => if dsts.contains x.2.dst then Nat.max t x.1 else t) f.tick

/-- Enqueues flits together, in the first tick with room for all of them (R347); none where no tick has, or where earlier
ones to their destinations have still to be enqueued (R220). -/
def Fabric.putAll (f : Fabric) (dsts : List Nat) (b : FlitBody) : Option (Nat × Fabric) :=
  if (f.quota = 0 ∧ dsts ≠ []) ∨ f.unsent.any (fun x => dsts.contains x.1) = true then none
  else
    match f.firstRoom (f.outbox.length + 2) (f.from_ dsts) dsts.length with
    | some t => some (t, dsts.foldl (fun f d => f.put t d b) f)
    | none => none

/-- KIND of a flit (R348). -/
def FlitBody.kind (b : FlitBody) : Nat :=
  match b with
  | .beacon => 1
  | .suspect _ _ | .notice _ _ => 2
  | .viewrec _ _ _ => 3
  | .join => 4
  | .ptp => 5
  | .ready _ => 0x10
  | .xdata _ _ _ => 0x11
  | .fwdWrite _ _ _ _ _ | .fwdRead _ _ _ | .fwdAtom _ _ _ _ _ _ _ _ | .fwdReply _ _ _ _ _ => 0x20
  | .move _ _ _ _ _ _ | .moveAsk _ _ | .moved _ _ _ _ _ => 0x21
  | .more k => k
  | .other k => k

/-- Bytes of payload that a forwarded access or a line move needs: 16 bytes name it, and its data follow (R348, DESIGN
CHOICE log 73). The other kinds fit one flit. -/
def FlitBody.size (b : FlitBody) : Nat :=
  match b with
  | .fwdWrite _ _ bytes _ _ => 16 + bytes.length
  | .fwdAtom _ _ _ _ _ _ _ _ => 32
  | .fwdReply _ bytes _ _ old => 16 + bytes.length + (old.map (·.1.length)).getD 0
  | .move _ _ bytes _ _ _ => 32 + bytes.length
  | .moved _ bytes _ _ _ => 32 + bytes.length
  | _ => 16

/-- The flits of a payload: 48 bytes in each, the last of which completes it (R348). -/
def FlitBody.flits (b : FlitBody) : List FlitBody := List.replicate ((b.size + 47) / 48 - 1) (.more b.kind) ++ [b]

/-- Queues flits for another chip: each in the first tick with room (R347), or until there is one. -/
def State.enqueue (s : State) (dst : Nat) (b : FlitBody) : State :=
  b.flits.foldl (fun s b => match s.fab.putAll [dst] b with
    | some x => { s with fab := x.2 }
    | none => { s with fab := { s.fab with unsent := s.fab.unsent ++ [(dst, b)] } }) s

/-! ## Forwarded accesses (R220, R322) -/

/-- Sends a forwarded access or a line of a frame to a chip, under a new tag. -/
def State.sendFor (s : State) (x : Forward) (b : Nat → FlitBody) : State :=
  let tag := s.fab.nextTag
  State.enqueue { s with fab := { s.fab with fwd := s.fab.fwd ++ [{ x with tag := tag }], nextTag := tag + 1 } } x.chip (b tag)

/-- Sends a forwarded access to the chip that owns a place (DEDUCED log 14). -/
def State.forward (s : State) (w : Who) (l : Loc) (n : Nat) (write : Bool) (b : Nat → Nat → FlitBody) : State :=
  match s.reach l with
  | .remote c f =>
    s.sendFor { tag := 0, chip := c, owner := w.owner, pa := l.offset, n := n, write := write, asid := w.asid, grid := w.grid,
                blame := w.blame }
      (fun tag => b tag (f * 4096 + l.offset % 4096))
  | _ => s

/-- The read that an agent has forwarded for n bytes of a place, if it has. -/
def State.forwarded (s : State) (o : FwdFor) (l : Loc) (n : Nat) : Option Forward :=
  match l with
  | .pa a => s.fab.fwd.find? (fun x => decide (x.owner = o ∧ x.write = false ∧ x.pa = a ∧ x.n = n))
  | .spad _ _ _ => none

/-- Whether a place is another chip's now. -/
def State.isRemote (s : State) (l : Loc) : Bool :=
  match s.reach l with
  | .remote _ _ => true
  | _ => false

/-- Whether a read of a piece must wait for its owner's answer. -/
def State.awaits (s : State) (o : FwdFor) (l : Loc) (n : Nat) : Bool :=
  match s.forwarded o l n with
  | some x => x.reply.isNone
  | none => s.isRemote l

/-- Asks the owners for the pieces that are not asked for yet. -/
def State.askRemote (s : State) (w : Who) (ps : List (Loc × Nat)) : State :=
  ps.foldl (fun s p =>
    if s.isRemote p.1 && (s.forwarded w.owner p.1 p.2).isNone then s.forward w p.1 p.2 false (fun tag pa => .fwdRead tag pa p.2) else s) s

/-- Forgets a forwarded access. -/
def State.dropForward (s : State) (tag : Nat) : State :=
  { s with fab := { s.fab with fwd := s.fab.fwd.filter (fun x => decide (x.tag ≠ tag)) } }

/-! ## Loads -/

/-- What a load sees of a sequencer's buffered stores beside the bytes of a bank: the stores that are seen now (R148, R238). -/
def State.sight (s : State) (l : Loc) (b : Byte) : Byte :=
  s.seen.foldl (fun v x => (s.team x.1).seq.sbuf.foldl (fun v y => if y.store = x.2 ∧ y.loc = l then y.val else v) v) b

/-- The bytes that a load sees, from a place on. -/
def State.sighted (s : State) (l : Loc) (bs : List Byte) : List Byte :=
  match bs with
  | [] => []
  | b :: r => s.sight l b :: State.sighted s (l.plus 1) r

/-- Loads one piece: the answer of the chip that was asked for it (R322), or per-line effects, then its bytes and
poison here, or what the bridge's failure leaves (R323). -/
def State.loadPiece (s : State) (w : Who) (l : Loc) (n : Nat) : (List Byte × Bool) × State :=
  let s := (s.touchLoad w l).setTag w false l
  match s.forwarded w.owner l n with
  | some x => (x.reply.getD (List.replicate n 0, true), s.dropForward x.tag)
  | none =>
    match s.hostFault l false with
    | some e => ((if e = .poisoned then s.pieceBytes l n else List.replicate n 0, true), s.failHost l e)
    | none => ((s.sighted l (s.pieceBytes l n), s.piecePoison l), s)

/-- Loads runs of bytes piece by piece in ascending address (R202). -/
def State.loadRuns (s : State) (w : Who) (ps : List (Loc × Nat)) : (List Byte × Bool) × State :=
  match ps with
  | [] => (([], false), s)
  | (l, n) :: r =>
    let x := s.loadPiece w l n
    let y := State.loadRuns x.2 (w.plus n) r
    ((x.1.1 ++ y.1.1, x.1.2 || y.1.2), y.2)

/-! ## Stores -/

/-- Writes bytes at consecutive location keys. -/
def State.putBytes (s : State) (k : Nat) (bs : List Byte) : State :=
  match bs with
  | [] => s
  | b :: r => State.putBytes (s.setByte k b) (k + 1) r

/-- Counts and logs a write that cannot be delivered (R323). -/
def State.discardWrite (s : State) (w : Who) (l : Loc) : State :=
  let s := { s with dsp := { s.dsp with discarded := s.dsp.discarded + 1 } }
  s.logEntry 3 w.asid (s.grid w.grid).launch.seq (BitVec.ofNat 64 (l.offset / 64 * 64)) 0

/-- Stores one piece: undo log, per-line effects, bytes, poison and tag. Unpoisoned data clears the line's poison when
`clears`: the store, of which this is the last piece in the line, covers the line whole (R222, R243). Another chip's
piece is sent to it (R322). -/
def State.storePiece (s : State) (w : Who) (l : Loc) (bs : List Byte) (poison clears : Bool) : State :=
  match s.hostFault l true with
  | some e => ((s.touchStore w l).failHost l e).discardWrite w l
  | none =>
    match s.reach l with
    | .here k =>
      let s := (s.undoLog w l).touchStore w l
      let s := s.putBytes k bs
      let s := if poison then s.setPoison l true else if clears then s.setPoison l false else s
      s.setTag w true l
    | .remote _ _ =>
      let s := s.undoLog w l
      ((s.touchStore w l).setTag w true l).forward w l bs.length true (fun tag pa => .fwdWrite tag pa bs poison (s.wantsOld w l))
    | .storage => s.putBytes (s.storedAt l) bs
    | _ => s.discardWrite w l

/-- Whether a piece of n bytes ends its line, with the bytes before it in the line stored already by the same store,
of which `done` bytes came before. -/
def endsLine (done : Nat) (l : Loc) (n : Nat) : Bool := decide ((l.offset + n) % 64 = 0 ∧ 64 ≤ done + n)

/-- Stores runs of bytes piece by piece after `done` bytes of the same store; a line covered whole is cleared of poison
when `full`. -/
def State.storeRuns (s : State) (w : Who) (done : Nat) (ps : List (Loc × Nat)) (bs : List Byte) (poison full : Bool) : State :=
  match ps with
  | [] => s
  | (l, n) :: r =>
    State.storeRuns (s.storePiece w l (bs.take n) poison (full && endsLine done l n)) (w.plus n) (done + n) r (bs.drop n) poison full

/-! ## Translation -/

/-- The result of a translation (R315, R330, R332): the physical address with the permissions R, W and X; a fault
code, with the entry's physical address; a page that must first be regenerated; or what the walk waits for: a table's
frame that is read back or a line of it that another chip sends (R322, R327). -/
inductive Walk where
  | ok (pa : Nat) (r w x : Bool)
  | fault (code entryPa : Nat)
  | regen (page slot frame entryPa : Nat)
  | wait (b : Block)
  deriving DecidableEq, Repr

/-- A page-table entry at a physical address (R315, R320): code 0x14 for a poisoned line, an error found in it, a lost
frame or a failure of the bridge (R323), 0x15 for no memory; or what the read waits for. -/
def State.readEntry (s : State) (pa : Nat) : Except Walk Nat :=
  match s.forwarded .walk (.pa pa) 8, s.reachPa pa with
  | some x, _ =>
    (match x.reply with
      | some (bs, p) => if p then .error (.fault 0x14 pa) else .ok (leNat bs)
      | none => .error (.wait (.remote pa 8)))
  | none, .here k =>
    if (s.line (k / 64)).poison || s.badFor none (k / 64) || (s.hostFault (.pa pa) false).isSome then .error (.fault 0x14 pa)
    else .ok (leNat ((List.range 8).map (fun i => s.byte (k + i))))
  | none, .remote _ _ => .error (.wait (.remote pa 8))
  | none, .storage => .error (.wait (.readBack (pa / 4096)))
  | none, .lost => .error (.fault 0x14 pa)
  | none, .none => .error (.fault 0x15 pa)

/-- ADDR of an entry, as an address (R314). -/
def pteAddr (e : Nat) : Nat := e / 2 ^ 12 % 2 ^ 40 * 2 ^ 12

/-- Whether an address lies in a region of R316. -/
def inRegion (a : Nat) : Bool := isFramePa a || isHostPa a

/-- Why the sixteen entries of a 64 KiB page are no translation: what reading one of them raises or waits for, or code
0x10 where they do not all hold one value (R315); none where they agree (DEDUCED log 28). -/
def State.setCode (s : State) (table index e : Nat) : Option Walk :=
  let at_ (i : Nat) : Nat := table + 8 * (index / 16 * 16 + i)
  let got := (List.range 16).map (fun i => (at_ i, s.readEntry (at_ i)))
  (got.findSome? (fun x => match x.2 with
    | .error o => some o
    | .ok _ => none)).or
  (got.findSome? (fun x => match x.2 with
    | .ok y => if y = e then none else some (.fault 0x10 x.1)
    | .error _ => none))

/-- VA bits that index the table at a depth, and the shift of what lies below (R313). -/
def walkShift (depth : Nat) : Nat := match depth with
  | 0 => 48
  | 1 => 39
  | 2 => 30
  | 3 => 21
  | _ => 12
def walkBits (depth : Nat) : Nat := if depth = 0 then 8 else 9

/-- Reserved bits, or SLOT, nonzero outside a regeneration entry (R314). -/
def pteReserved (e : Nat) : Bool := decide (e / 2 ^ 52 ≠ 0 ∨ e / 2 ^ 7 % 2 ^ 5 ≠ 0)

/-- What one entry at a depth comes to: the next table, or the end of the walk with the page size (R314, R315, R330). -/
def State.entryAtDepth (s : State) (depth table index at_ va e : Nat) : Nat ⊕ (Walk × Nat) :=
  let sh := walkShift depth
  let v := e.testBit 0
  let leaf := e.testBit 1
  let r := e.testBit 2
  let w := e.testBit 3
  let x := e.testBit 4
  let s64 := e.testBit 5
  let regen := e.testBit 6
  let bad : Nat ⊕ (Walk × Nat) := .inr (.fault 0x10 at_, 0)
  if !v && !regen then .inr (.fault 0x01 at_, 0)
  else if !v then
    if decide (depth = 4) && leaf && !s64 && !(w && !r) && decide (e / 2 ^ 52 % 2 ^ 4 = 0 ∧ e / 2 ^ 7 % 2 ^ 5 = 0) && isFramePa (pteAddr e) then
      .inr (.regen (va / 4096 * 4096) (e / 2 ^ 56) (pteAddr e) at_, 4096)
    else bad
  else if pteReserved e || regen || !inRegion (pteAddr e) then bad
  else if !leaf then (if decide (depth = 4) || r || w || x || s64 then bad else .inl (pteAddr e))
  else if decide (depth ≤ 1) || (w && !r) then bad
  else if depth ≤ 3 then
    if s64 || decide (pteAddr e % 2 ^ sh ≠ 0) then bad else .inr (.ok (pteAddr e + va % 2 ^ sh) r w x, 2 ^ sh)
  else if s64 then
    match s.setCode table index e with
    | some o => .inr (o, 0)
    | none => if pteAddr e % 2 ^ 16 ≠ 0 then bad else .inr (.ok (pteAddr e + va % 2 ^ 16) r w x, 2 ^ 16)
  else .inr (.ok (pteAddr e + va % 4096) r w x, 4096)

/-- Walks the tree from a table at a depth (R313 to R315, R330). The result carries the page size. -/
def State.walkFrom (s : State) (fuel depth table va : Nat) : Walk × Nat :=
  match fuel with
  | 0 => (.fault 0x10 table, 0)
  | k + 1 =>
    let index := va / 2 ^ walkShift depth % 2 ^ walkBits depth
    let at_ := table + 8 * index
    match s.readEntry at_ with
    | .error o => (o, 0)
    | .ok e =>
      match s.entryAtDepth depth table index at_ va e with
      | .inl next => State.walkFrom s k (depth + 1) next va
      | .inr o => o

/-- The root of a context's tree; a root in no region gives code 0x15 (R100, R332). -/
def State.walk (s : State) (asid va : Nat) : Walk × Nat :=
  let root := (s.ctx asid).rcd.ptroot
  if inRegion root then s.walkFrom 5 0 root va else (.fault 0x15 root, 0)

/-- What a finished walk leaves: an error that it found is the line's poison from now on (R243), a failure of the bridge
is used up and ends its frame (R321, R323), and other chips' answers, of one entry each, are taken. -/
def State.afterWalk (s : State) (asid : Nat) (o : Walk) : State :=
  let done (s : State) : State := { s with fab := { s.fab with fwd := s.fab.fwd.filter (fun x => !(decide (x.owner = .walk ∧ x.n = 8) && x.reply.isSome)) } }
  match o with
  | .wait _ => s
  | .fault 0x14 pa =>
    let w : Who := ⟨none, 0, asid, 0, 0, 0, false, none, .walk, none⟩
    let s := s.detectAt w (.pa pa)
    done (match s.hostFault (.pa pa) false with
      | some e => s.failHost (.pa pa) e
      | none => s)
  | _ => done s

/-- The TLB of a quad (R317). -/
def State.tlbOf (s : State) (quad : Nat) : List TlbEntry := SMap.get [] s.tlb quad

/-- Permission bits as the TLB keeps them. -/
def permBits (r w x : Bool) : BitVec 3 := (if r then 1 else 0) ||| (if w then 2 else 0) ||| (if x then 4 else 0)

/-- Translates through the quad's TLB, walking and filling it on a miss (R317). -/
def State.translate (s : State) (core asid va : Nat) : Walk × State :=
  let quad := quadOf core
  match (s.tlbOf quad).find? (fun e => decide (e.asid = asid ∧ e.page ≤ va ∧ va < e.page + e.size)) with
  | some e => (.ok (e.pa + (va - e.page)) (e.perms.getLsbD 0) (e.perms.getLsbD 1) (e.perms.getLsbD 2), s)
  | none =>
    let o := s.walk asid va
    let s := s.afterWalk asid o.1
    match o with
    | (.ok pa r w x, size) =>
      let e : TlbEntry := ⟨asid, va / size * size, size, permBits r w x, pa - va % size⟩
      (.ok pa r w x, { s with tlb := SMap.set [] s.tlb quad (e :: s.tlbOf quad) })
    | (o, _) => (o, s)

end Sys2Proof.Machine
end

