-- ==== Sys2Proof/Machine/Kernel.lean ====
section
/-! DEFINITION. Code objects: the image's header and entries (R123, R124), the fit of a team (R127, R165), and
the entry that an address names. -/

namespace Sys2Proof.Machine

/-- The n bytes of an image at an offset, as a number. -/
def imageNat (img : List Byte) (off n : Nat) : Nat := leNat ((img.drop off).take n)

/-- An entry record (R123). -/
structure ObjEntry where
  laneOff : Nat
  seqOff : Nat
  width : Nat
  regs : Nat
  graph : Nat
  team : Nat
  dimgOff : Nat
  dimgSize : Nat
  word8 : Nat
  word18 : Nat
  deriving DecidableEq, Repr

/-- Header fields. -/
def objNentry (img : List Byte) : Nat := imageNat img 5 1
def objLevel (img : List Byte) : Nat := imageNat img 4 1
def objCodeOff (img : List Byte) : Nat := imageNat img 8 4
def objCodeSize (img : List Byte) : Nat := imageNat img 12 4
def objDataOff (img : List Byte) : Nat := imageNat img 16 4
def objDataSize (img : List Byte) : Nat := imageNat img 20 4

/-- Entry record k of an image. -/
def objEntry (img : List Byte) (k : Nat) : ObjEntry :=
  let o := 64 + 32 * k
  let w := imageNat img (o + 8) 8
  ⟨imageNat img o 4, imageNat img (o + 4) 4, w % 128, w / 2 ^ 8 % 128, w / 2 ^ 16 % 128, w / 2 ^ 32 % 2048,
    imageNat img (o + 16) 4, imageNat img (o + 20) 4, w, imageNat img (o + 24) 8⟩

/-- All entry records. -/
def objEntries (img : List Byte) : List ObjEntry := (List.range (objNentry img)).map (objEntry img)

/-- Slots that a partition fills under a cap (R165). -/
def slotsPerPartition (cap : Nat) : Nat := Nat.min 16 (512 / cap)

/-- Whether a team of `lanes` lanes fits an empty core (R127): paired slots for width 64, else lanes packed into
slots of 32. -/
def teamFits (width lanes cap : Nat) : Bool :=
  if width = 64 then decide (lanes / 64 ≤ 4 * (slotsPerPartition cap / 2))
  else decide ((lanes + 31) / 32 ≤ 4 * slotsPerPartition cap)

/-- A register cap as records and packets give it: 0, or 8 to 64 in steps of 8. -/
def capOk (c : Nat) : Bool := decide (c % 8 = 0 ∧ c ≤ 64)

/-- The header check of R124, status 0x10; reserved fields of the entries count too (R123). -/
def headerOk (img : List Byte) : Bool :=
  decide (imageNat img 0 4 = 0x4F435853 ∧ (objLevel img = 1 ∨ objLevel img = 2) ∧ 1 ≤ objNentry img ∧
    imageNat img 6 2 = 0 ∧ (List.range 5).all (fun i => decide (imageNat img (24 + 8 * i) 8 = 0)) = true ∧
    objCodeOff img % 4096 = 0 ∧ objCodeSize img % 64 = 0 ∧ 64 + 32 * objNentry img ≤ img.length ∧
    objCodeOff img + objCodeSize img ≤ img.length ∧ objDataOff img + objDataSize img ≤ img.length) &&
  (objEntries img).all (fun e => decide (e.word18 = 0 ∧ e.word8 / 2 ^ 7 % 2 = 0 ∧ e.word8 / 2 ^ 15 % 2 = 0 ∧
    e.word8 / 2 ^ 23 % 2 ^ 9 = 0 ∧ e.word8 / 2 ^ 43 = 0))

/-- The entry check of R124, status 0x11. -/
def entryOk (img : List Byte) (e : ObjEntry) : Bool :=
  decide (e.laneOff % 64 = 0 ∧ e.seqOff % 64 = 0 ∧ e.laneOff < objCodeSize img ∧ e.seqOff < objCodeSize img ∧
    (e.width = 8 ∨ e.width = 16 ∨ e.width = 32 ∨ e.width = 64) ∧ (e.graph = 0 ∨ (4 ≤ e.graph ∧ e.graph ≤ 64)) ∧
    0 < e.team ∧ e.team % e.width = 0 ∧ e.team ≤ 1024 ∧ e.dimgOff + e.dimgSize ≤ objDataSize img) &&
  capOk e.regs && teamFits e.width e.team (if e.regs = 0 then 64 else e.regs)

/-- The code object whose code section holds a physical address at LANEOFF of an entry (R123); of two entries with the
same LANEOFF the lower index (DESIGN CHOICE log 75). -/
def State.entryAt (s : State) (pa : Nat) : Option (Nat × ObjEntry) :=
  s.dsp.objs.findSome? (fun o =>
    if o.2.st = .resident ∨ o.2.st = .draining then
      ((objEntries o.2.image).find? (fun e => decide (o.2.pa + objCodeOff o.2.image + e.laneOff = pa))).map
        (fun e => (o.1, e))
    else none)

/-- The code section, as physical addresses, of the object that holds one there (R123). -/
def State.codeSection (s : State) (pa : Nat) : Option (Nat × Nat) :=
  s.dsp.objs.findSome? (fun o =>
    let lo := o.2.pa + objCodeOff o.2.image
    let hi := lo + objCodeSize o.2.image
    if (o.2.st = .resident ∨ o.2.st = .draining) ∧ lo ≤ pa ∧ pa < hi then some (lo, hi) else none)

/-- The launch of an entry named by a virtual address of a context: the object's number, addresses, shape and
data image; none where R123 makes the record malformed. -/
def State.launchOf (s : State) (asid entry : Nat) : Option Launch :=
  match s.walk asid entry with
  | (.ok pa _ _ true, _) =>
    match s.entryAt pa with
    | none => none
    | some (k, e) =>
      let img := (SMap.get {} s.dsp.objs k).image
      some { entry := entry, obj := k, lanePc := BitVec.ofNat 64 entry,
             seqPc := BitVec.ofNat 64 (entry + 2 ^ 64 - e.laneOff + e.seqOff),
             codeEnd := BitVec.ofNat 64 (entry + 2 ^ 64 - e.laneOff + objCodeSize img),
             width := e.width, lanes := e.team, cap := e.regs, graph := if e.graph = 0 then 64 else e.graph,
             image := (img.drop (objDataOff img + e.dimgOff)).take e.dimgSize }
  | _ => none

/-- What a regeneration slot's kernel comes to (R330): none, its launch, or what the walk of its entry waits for (R322,
R327). -/
inductive SlotKernel where
  | none
  | wait (b : Block)
  | ok (l : Launch)
  deriving DecidableEq, Repr

/-- The kernel of a regeneration slot (R330). -/
def State.regenEntry (s : State) (asid slot : Nat) : SlotKernel :=
  match SMap.get 0 (s.ctx asid).regen slot with
  | 0 => .none
  | a + 1 =>
    match (s.walk asid a).1 with
    | .wait b => .wait b
    | _ =>
      match s.launchOf asid a with
      | some l => .ok l
      | none => .none

/-- What the walk of an entry leaves where it has come to its end (R321, R323). -/
def State.walkEntry (s : State) (asid entry : Nat) : State := s.afterWalk asid (s.walk asid entry).1

end Sys2Proof.Machine
end

