-- ==== Sys2Proof/Machine/Check.lean ====
section
/-! DEFINITION. The checks of an access (R203, R204, R140, R247), regeneration of pages (R330), and what makes an
access wait (R234, R235, R268). -/

namespace Sys2Proof.Machine

/-! ## Checks of an access -/

/-- What an access does, as the page record's KIND names it (R205), and the engine kinds. -/
inductive AccKind where
  | load
  | store
  | atom
  | red
  | stp
  deriving DecidableEq, Repr

def AccKind.code (k : AccKind) : Nat := match k with
  | .load => 0
  | .store => 1
  | .atom => 2
  | .red => 3
  | .stp => 4
def AccKind.reads (k : AccKind) : Bool := match k with
  | .load => true
  | .atom => true
  | _ => false
def AccKind.writes (k : AccKind) : Bool := match k with
  | .load => false
  | _ => true

/-- What a check waits for, with the kernel slot and the frame of a page that is to be regenerated (R330). -/
structure PageWait where
  b : Block
  slot : Nat := 0
  frame : Nat := 0
  deriving DecidableEq, Repr

/-- The result of checking one stretch of an access: its place; a fault code and byte address; or why it
waits. -/
inductive Chunk where
  | ok (l : Loc) (n : Nat)
  | bad (code addr : Nat)
  | wait (p : PageWait)
  deriving DecidableEq, Repr

/-- The scratchpad window's base (R199). -/
def windowBase : Nat := 2 ^ 64 - 2 ^ 24

/-- Cuts n bytes at va at 4 KiB boundaries: no stretch crosses a page, a bank or a region. -/
def cutPages (fuel va n : Nat) : List (Nat × Nat) :=
  match fuel with
  | 0 => []
  | k + 1 =>
    if n = 0 then []
    else
      let m := Nat.min n (4096 - va % 4096)
      (va, m) :: cutPages k (va + m) (n - m)

/-- The team that a window rank field selects for a team (R200): none where it selects nothing. -/
def State.windowTeam (s : State) (tk sel : Nat) : Option Nat :=
  let g := s.gridOf tk
  let c := g.clusterOf (keyIx tk)
  if sel = 0 then some tk
  else if sel ≤ 12 ∧ sel - 1 < g.clusterSize c then some (teamKey (keyGrid tk) (c * g.q + (sel - 1)))
  else none

/-- Whether a team's bank is in FIFO mode (R246). -/
def Team.fifoBank (t : Team) (bank : Nat) : Bool := t.bmode.getLsbD bank

/-- Whether a team's window offset lies past its scratchpad: past SBANKS banks, or in banks that a retired team no longer
has, since its cluster has released them (R136, R200, R245). -/
def State.pastBanks (s : State) (t off : Nat) : Bool :=
  decide ((s.gridOf t).launch.sbanks * 32768 ≤ off) ||
    decide ((s.team t).st = .retired ∧ (s.team t).sram.length * 32768 ≤ off)

/-- Checks a stretch in the window (R200, R247). `size` is the whole access's size in bytes. -/
def State.checkWindow (s : State) (tk : Nat) (k : AccKind) (engine : Bool) (va n size : Nat) : Chunk :=
  let o := va - windowBase
  match s.windowTeam tk (o / 2 ^ 19) with
  | none => .bad 5 va
  | some t =>
    let off := o % 2 ^ 19
    let bank := off / 32768
    if s.pastBanks t off then .bad 5 va
    else if (s.team t).fifoBank bank then
      let b := off % 32768
      if engine = false ∧ size = 8 ∧ n = 8 ∧
          ((k = .store ∧ b = 0) ∨ (k = .load ∧ (b = 8 ∨ b = 16))) then .ok (.spad t bank b) n
      else .bad 5 va
    else .ok (.spad t bank (off % 32768)) n

/-- Whether a physical address lies in a page of a resident or draining object: its whole image is read-only (R66, R123,
R125). -/
def State.inCode (s : State) (pa : Nat) : Bool :=
  s.dsp.objs.any (fun o => decide (o.2.st = .resident ∨ o.2.st = .draining) &&
    decide (o.2.pa / 4096 ≤ pa / 4096 ∧ pa < (o.2.pa + o.2.image.length + 4095) / 4096 * 4096))

/-! ## Regeneration (R330) -/

/-- Whether a grid is the regeneration grid of a page (R330). -/
def Grid.regenerates (g : Grid) (page : Nat) : Bool :=
  match g.regen with
  | some (p, _) => decide (p = page)
  | none => false

/-- The regeneration grid of a page of a context, if one is under way. -/
def State.regenGrid (s : State) (asid page : Nat) : Option Nat :=
  (s.grids.find? (fun e => e.2.live && decide (e.2.asid = asid) && e.2.regenerates page)).map (·.1)

/-- Nesting level at which a grid would start a regeneration: a program's grid starts level 1. -/
def Grid.nextLevel (g : Grid) : Nat :=
  match g.regen with
  | some (_, n) => n + 1
  | none => 1

/-- The fault of an access to a regeneration entry by a team of grid g, or 0 where it waits: code 0x12 after a
grid that ended with another status, 0x11 with no kernel, 0x13 at a fifth level. -/
def State.regenFails (s : State) (g : Grid) (page slot : Nat) : Nat :=
  match s.regenGrid g.asid page with
  | some k => if (s.grid k).regenFailed then 0x12 else 0
  | none =>
    match s.regenEntry g.asid slot with
    | .none => 0x11
    | _ => if 4 < g.nextLevel then 0x13 else 0

/-- What the walk of a slot's entry leaves, where no grid regenerates the page yet (R321, R323). -/
def State.afterRegen (s : State) (asid page slot : Nat) : State :=
  match s.regenGrid asid page, SMap.get 0 (s.ctx asid).regen slot with
  | none, a + 1 => s.walkEntry asid a
  | _, _ => s

/-- Asks another chip for what a walk waits for (R322). -/
def State.askWalk (s : State) (asid : Nat) (b : Block) : State :=
  match b with
  | .remote pa n => s.askRemote ⟨none, 0, asid, 0, 0, 0, false, none, .walk, none⟩ [(.pa pa, n)]
  | _ => s

/-- Starts the regeneration grid of a page for an access of a grid, if none is under way: one team of the slot's kernel,
with the page's address as ARG (R330). Its scratchpad is what its data image needs (DESIGN CHOICE / PRESUMED log 15). -/
def State.startRegen (s : State) (g : Grid) (asid page slot frame : Nat) : State :=
  match s.regenGrid asid page, s.regenEntry asid slot with
  | none, .wait b => s.askWalk asid b
  | none, .ok e =>
    let s := s.afterRegen asid page slot
    let k := s.dsp.nextGrid
    let l : Launch := { e with arg := BitVec.ofNat 64 page, sbanks := (e.image.length + 32767) / 32768 }
    let s := s.setGrid k { live := true, asid := asid, launch := l, rcd := (s.ctx asid).rcd, regen := some (page, g.nextLevel), regenFrame := frame / 4096 }
    { s with dsp := { s.dsp with nextGrid := k + 1, order := s.dsp.order ++ [k] } }
  | _, _ => s

/-- What a wait of an access of a grid sets going: a regeneration (R330), or the read of another chip's line (R322). -/
def State.startWait (s : State) (g : Grid) (p : PageWait) : State :=
  match p.b with
  | .regen asid page => s.startRegen g asid page p.slot p.frame
  | b => s.askWalk g.asid b

/-! ## The checks -/

/-- Checks a stretch in the context's space (R315, R204, R320, R330). `hostOk` tells whether host memory
accepts the operation (R209, R210). A frame in the host's storage passes (R327). -/
def State.checkContext (s : State) (tk core : Nat) (k : AccKind) (hostOk : Bool) (va n : Nat) : Chunk × State :=
  let g := s.gridOf tk
  let tr := s.translate core g.asid va
  let s := tr.2
  match tr.1 with
  | .fault c _ => (.bad c va, s)
  | .wait b => (.wait { b := b }, s)
  | .regen page slot frame _ =>
    if g.regenerates page then
      (match s.reachPa frame with
        | .none => .bad 0x15 va
        | _ => .ok (.pa (frame + va % 4096)) n, s)
    else if s.regenFails g page slot ≠ 0 then (.bad (s.regenFails g page slot) va, s.afterRegen g.asid page slot)
    else (.wait ⟨.regen g.asid page, slot, frame⟩, s)
  | .ok pa r w _ =>
    match s.reachPa pa with
    | .none => (.bad 0x15 va, s)
    | _ =>
      if k.writes && (!w || s.inCode pa) then (.bad 2 va, s)
      else if k.reads && !r then (.bad 3 va, s)
      else if !hostOk && isHostPa pa then (.bad 7 va, s)
      else (.ok (.pa pa) n, s)

/-- Checks a stretch of an access that begins at va0 (R199): a byte outside every region, or outside the
region the access began in, gives code 0x04. -/
def State.checkChunk (s : State) (tk core : Nat) (k : AccKind) (hostOk engine : Bool) (va0 size : Nat) (c : Nat × Nat) :
    Chunk × State :=
  let region (a : Nat) : Nat := if a < 2 ^ 56 then 1 else if windowBase ≤ a ∧ a < 2 ^ 64 then 2 else 0
  if 2 ^ 64 ≤ c.1 then (.bad 4 0, s)
  else if region va0 = 0 then (.bad 4 (if region c.1 = 0 then c.1 else va0), s)
  else if region c.1 ≠ region va0 then (.bad 4 c.1, s)
  else if region c.1 = 2 then (s.checkWindow tk k engine c.1 c.2 size, s)
  else s.checkContext tk core k hostOk c.1 c.2

/-- Checks every stretch, in ascending address. -/
def State.checkChunks (s : State) (tk core : Nat) (k : AccKind) (hostOk engine : Bool) (va0 size : Nat)
    (cs : List (Nat × Nat)) : List Chunk × State :=
  match cs with
  | [] => ([], s)
  | c :: r =>
    let x := s.checkChunk tk core k hostOk engine va0 size c
    let y := State.checkChunks x.2 tk core k hostOk engine va0 size r
    (x.1 :: y.1, y.2)

/-- Order of the checks of class 0x04 (R204). -/
def checkRank (code : Nat) : Nat :=
  match code with
  | 4 | 5 => 1
  | 6 => 2
  | 2 | 3 => 4
  | 7 => 5
  | 8 => 6
  | _ => 3

/-- A fault that a check found: class, code, lowest faulting byte (for class 0x05 the access's address, R172), and a
byte for each faulting page (for class 0x05 the first byte in the line that faults). -/
structure Fails where
  cls : Nat
  code : Nat
  addr : Nat
  pages : List Nat
  deriving DecidableEq, Repr

/-- The outcome of checking one access. -/
inductive Checked where
  | ok (runs : List (Loc × Nat))
  | fail (f : Fails)
  | wait (p : PageWait)
  deriving DecidableEq, Repr

/-- Collects the stretches of one access: the first failing check decides the code (R204). Where bytes lie in no region
or the access leaves its region, those bytes alone are the faulting ones (DEDUCED log 27). -/
def foldChunks (cs : List Chunk) : Checked :=
  let all := cs.filterMap (fun c => match c with
    | .bad code a => some (code, a)
    | _ => none)
  let out := all.filter (fun b => decide (b.1 = 4))
  let bads := if out.isEmpty then all else out
  match bads with
  | [] =>
    match cs.findSome? (fun c => match c with
      | .wait p => some (Checked.wait p)
      | _ => none) with
    | some w => w
    | none => .ok (cs.filterMap (fun c => match c with
      | .ok l n => some (l, n)
      | _ => none))
  | b :: r =>
    let best := r.foldl (fun m x => if checkRank x.1 < checkRank m.1 then x else m) b
    .fail ⟨4, best.1, (r.foldl (fun m x => Nat.min m x.2) b.2), bads.map (·.2)⟩

/-- Pieces with the address of each one's first byte. -/
def withAddr (va : Nat) (ps : List (Loc × Nat)) : List (Nat × Loc) :=
  match ps with
  | [] => []
  | (l, n) :: r => (va, l) :: withAddr (va + n) r

/-- The determinism fault of an access whose bytes lie at runs (R140), if any: its code and the first byte in the line
that faults. -/
def State.detFails (s : State) (w : Who) (k : AccKind) (va : Nat) (runs : List (Loc × Nat)) : Option (Nat × Nat) :=
  if k = .red then none
  else
    (withAddr va (linePieces runs)).findSome? (fun p =>
      let c := s.detCode w k.writes (decide (k = .atom)) p.2
      if c = 0 then none else some (c, p.1))

/-- Checks one access of n bytes at va by a team: regions, window, alignment, translation, permission, host
operation, then the tags of a DET grid (R203, R204, R140). -/
def State.checkAccess (s : State) (w : Who) (core : Nat) (k : AccKind) (aligned hostOk engine : Bool) (va n : Nat) :
    Checked × State :=
  let tk := teamKey w.grid w.ix
  let x := s.checkChunks tk core k hostOk engine va n (cutPages (n / 4096 + 2) va n)
  let r := foldChunks x.1
  let s := x.2
  let misal : Fails := ⟨4, 6, va, [va]⟩
  match r with
  | .fail f => if aligned = false ∧ 2 < checkRank f.code then (.fail misal, s) else (.fail f, s)
  | .wait p => if aligned then (.wait p, s) else (.fail misal, s)
  | .ok runs =>
    if aligned = false then (.fail misal, s)
    else
      match s.detFails w k va runs with
      | none => (.ok runs, s)
      | some f => (.fail ⟨5, f.1, va, [f.2]⟩, s)

/-! ## What an access waits for -/

/-- The names of the lines of runs. -/
def lineNames (runs : List (Loc × Nat)) : List Nat := (linePieces runs).map (fun p => tagKey p.1)

/-- Claims of issued TSTs (R299): number, and the lines that are not written yet. -/
def State.tileClaims (s : State) : List (Nat × List Nat) :=
  s.teams.flatMap (fun t => t.2.mf.forces.filterMap (fun f =>
    if f.left.isEmpty then none else some (f.num, lineNames (f.left.map (·.2)))))

/-- Whether a line is claimed by a command or an issued TST (R235, R299). -/
def State.claimed (s : State) (k : Nat) : Bool :=
  s.commands.any (fun c => c.claims.contains k) || s.tileClaims.any (fun c => c.2.contains k)
/-- Whether a line is claimed under a number below n. -/
def State.claimedBefore (s : State) (n k : Nat) : Bool :=
  s.commands.any (fun c => decide (c.num < n) && c.claims.contains k) ||
    s.tileClaims.any (fun c => decide (c.1 < n) && c.2.contains k)
/-- Whether a command has still to read a line (R234). -/
def State.unread (s : State) (k : Nat) : Bool := s.commands.any (fun c => c.srcs.contains k)

/-- Whether two stretches of scratchpad overlap. -/
def overlaps (l : Loc) (n : Nat) (m : Loc) (k : Nat) : Bool :=
  match l, m with
  | .spad t b o, .spad u c p => decide (t = u ∧ b = c ∧ o < p + k ∧ p < o + n)
  | .pa a, .pa b => decide (a < b + k ∧ b < a + n)
  | _, _ => false

/-- The operation number of a leaf: TLD's in the numbering of R283. -/
def opLeaf : Nat := 16

/-- Whether the team's accumulator banks hold a node's value: it is materialized, or was so and has been shared since
(R264, DEDUCED log 31). -/
def Node.holds (n : Node) : Bool := decide (n.st = .materialized ∨ (n.st = .shared ∧ n.ngran ≠ 0))

/-- Whether a node has lost the value that it had (R279). -/
def Node.lost (n : Node) : Bool := decide (n.st = .faulted ∧ n.fcode = 3)

/-- Whether a node is a leaf that holds its region: until it is materialized (R264, R267, R268). One that lost its value
was. -/
def Node.captures (n : Node) : Bool := decide (n.op = opLeaf) && !n.holds && !n.lost

/-- Whether a stretch overlaps a region that a manifest leaf has captured (R267, R268). -/
def State.captured (s : State) (l : Loc) (n : Nat) : Bool :=
  s.teams.any (fun t => t.2.mf.nodes.any (fun e => e.2.captures && e.2.region.any (fun r => overlaps l n r.1 r.2)))

/-- Whether a stretch overlaps a region captured before number n: a claim earlier than the leaf writes first
(R267). -/
def State.capturedBefore (s : State) (num : Nat) (l : Loc) (n : Nat) : Bool :=
  s.teams.any (fun t => t.2.mf.nodes.any (fun e =>
    e.2.captures && decide (e.2.capNum ≤ num) && e.2.region.any (fun r => overlaps l n r.1 r.2)))

/-- The first frame of a page-engine command (R328). -/
def Cmd.frame0 (c : Cmd) : Nat := (c.words.getD 1 0).toNat / 4096

/-- Whether the line of a physical address is being moved between chips: an access to it waits, and the lines that have not
left yet are served where they lie (R325). -/
def State.inFlight (s : State) (pa : Nat) : Bool :=
  s.dsp.pg.any (fun c => c.flying && decide (c.frame0 + c.pos = pa / 4096 ∧ pa % 4096 / 64 < c.line))

/-- Whether a place's frame keeps accesses waiting: it is in the host's storage or between chips (R325, R327). -/
def State.awayNow (s : State) (l : Loc) : Bool :=
  match l with
  | .spad _ _ _ => false
  | .pa a => isFramePa a && (decide (entryLoc (s.frame (a / 4096)) = 4) || s.inFlight a)

/-- Whether a place lies on the page that a grid regenerates: claims that wait for the page do not hold it (R235, R330,
DEDUCED log 71). -/
def State.ownRegen (s : State) (grid : Nat) (l : Loc) : Bool :=
  match l with
  | .spad _ _ _ => false
  | .pa a => (s.grid grid).regen.isSome && decide (a / 4096 = (s.grid grid).regenFrame)

/-- Whether an access by a grid to pieces must wait: at a claimed line for any access; for a write also at a line that
an engine has still to read, or a captured region (R234, R235, R268); and for a frame that is away (R325, R327). -/
def State.mustWait (s : State) (grid : Nat) (writes : Bool) (runs : List (Loc × Nat)) : Bool :=
  (linePieces runs).any (fun p =>
    ((s.claimed (tagKey p.1) || (writes && s.unread (tagKey p.1))) && !s.ownRegen grid p.1) ||
    (writes && s.captured p.1 p.2) || s.awayNow p.1)

end Sys2Proof.Machine
end

