-- ==== Sys2Proof/Machine/Ops.lean ====
section
/-! DEFINITION. Named operations over the state: lane and sequencer registers, the head run of a slot (R160 to
R162), taking a lane trap (R171), a sequencer trap (R151) and their returns, and the unhandled fault (R98,
R174, R374). Every meaning is written over these. -/

namespace Sys2Proof.Machine

/-! ## Lane registers (R15, R69, R166, R171) -/

/-- Register field f as an instruction of a run reads it: in trap mode 56 to 63 name h0 to h7. -/
def Lane.reg (l : Lane) (trap : Bool) (f : Nat) : VReg :=
  if trap && decide (56 ≤ f) then SMap.get {} l.h (f - 56) else SMap.get {} l.v f

/-- Writes a register field. -/
def Lane.setReg (l : Lane) (trap : Bool) (f : Nat) (x : VReg) : Lane :=
  if trap && decide (56 ≤ f) then { l with h := SMap.set {} l.h (f - 56) x } else { l with v := SMap.set {} l.v f x }

/-- Predicate p as it reads: p0 is true, a poisoned one false (R166, R179). -/
def Lane.pred (l : Lane) (p : Nat) : Bool := decide (p = 0) || (l.pv.getLsbD p && !l.pp.getLsbD p)
/-- Whether predicate p is poisoned: p0 never is. -/
def Lane.predPoison (l : Lane) (p : Nat) : Bool := decide (p ≠ 0) && l.pp.getLsbD p

/-- Sets one bit of a byte. -/
def setBit8 (b : BitVec 8) (i : Nat) (x : Bool) : BitVec 8 :=
  if x then b ||| BitVec.ofNat 8 (2 ^ i) else b &&& ~~~(BitVec.ofNat 8 (2 ^ i))

/-- Writes a predicate: p0 ignores writes, and a poisoned one takes value 0 (R166). -/
def Lane.setPred (l : Lane) (p : Nat) (val poison : Bool) : Lane :=
  if p = 0 then l else { l with pv := setBit8 l.pv p (val && !poison), pp := setBit8 l.pp p poison }

/-- A lane of a team, by team lane number. -/
def Team.lane (t : Team) (n : Nat) : Lane := SMap.get {} t.lanes n
def Team.setLane (t : Team) (n : Nat) (l : Lane) : Team := { t with lanes := SMap.set {} t.lanes n l }

/-! ## The head run -/

/-- A run: the team, its lanes in ascending team lane number, their counter and whether they are in trap mode
(R161). -/
structure Run where
  team : Nat
  lanes : List Nat
  pc : Word
  trap : Bool
  deriving DecidableEq, Repr

/-- Whether a team's streams may issue: it runs, or was running as the present clock's fault stopped it (R174), and its
grid is not rolling back (R135, R375). -/
def State.issues (s : State) (tk : Nat) : Bool :=
  decide (((s.team tk).st = .running ∨ (s.team tk).closing = true) ∧ (s.gridOf tk).interval.st ≠ .rolling)

/-- Whether an access changes memory, for what it must wait on. -/
def MemOp.writes (o : MemOp) : Bool :=
  match o with
  | .load _ _ _ => false
  | .leave _ => false
  | _ => true

/-- Whether an access of a DET grid among the first idx waiting ones has still to perform at the line of a place, where it or
the present access writes: its tags stand from its checks on, so an access of the grid performs after it (R140, R203, DEDUCED
log 85). -/
def State.detBefore (s : State) (idx grid : Nat) (writes : Bool) (l : Loc) : Bool :=
  (s.grid grid).rcd.det && (s.parked.take idx).any (fun p => decide (keyGrid p.team = grid) &&
    p.accs.any (fun a => (writes || a.op.writes) && a.runs.any (fun x => decide (tagKey x.1 = tagKey l))))

/-- Whether the wait of a blocked lane is over (R160, R219, R248, R327). -/
def State.unblocked (s : State) (b : Block) : Bool :=
  match b with
  | .none => true
  | .perform => false
  | .regen a p =>
    match s.regenGrid a p with
    | some k => (s.grid k).regenFailed
    | none => true
  | .fifoRoom t bank n => decide ((SMap.get [] (s.team t).fifos bank).length + n ≤ 4095)
  | .fifoEntry t bank n => decide (n ≤ (SMap.get [] (s.team t).fifos bank).length)
  | .readBack f => decide (entryLoc (s.frame f) ≠ 4) && !(List.range 64).any (fun i => s.inFlight (f * 4096 + 64 * i))
  | .remote pa n =>
    -- an answer that another has taken is asked for again
    match s.forwarded .walk (.pa pa) n with
    | some x => x.reply.isSome
    | none => true
  | .fence tk lanes => !s.fab.fwd.any (fun x => match x.owner with
    | .agent (.lane t n) => decide (t = tk) && lanes.contains n
    | _ => false)
  | .access g writes runs => !s.mustWait g writes runs && !runs.any (fun r => s.detBefore s.parked.length g writes r.1)

/-- Whether some lane of a group is in trap mode. -/
def Team.groupTrapped (t : Team) (width g : Nat) : Bool :=
  (List.range width).any (fun i => (t.lane (g * width + i)).trap)

/-- Whether a lane is a candidate, its deferred mark aside (R160). -/
def State.wouldIssue (s : State) (t : Team) (width n : Nat) : Bool :=
  let l := t.lane n
  !l.exited && decide (l.wait = none) && s.unblocked l.block && (l.trap || !t.groupTrapped width (n / width))

/-- A lane of a slot: team, lane, position, counter, trap mode, deferred mark. -/
structure SlotLane where
  team : Nat
  lane : Nat
  pos : Nat
  pc : Nat
  trap : Bool
  deferred : Bool
  deriving DecidableEq, Repr

/-- The lanes of a slot that would issue but for deferred marks. A group in a paired slot stands in its lower half
alone (R163). -/
def State.slotLanes (s : State) (core idx : Nat) : List SlotLane :=
  s.teams.flatMap (fun e =>
    let t := e.2
    if t.core = core ∧ s.issues e.1 = true then
      let w := (s.gridOf e.1).launch.width
      (List.range t.slots.length).flatMap (fun g =>
        let p := t.slots.getD g (0, 0)
        if p.1 = idx then
          (List.range w).filterMap (fun i =>
            let n := g * w + i
            if s.wouldIssue t w n then
              some ⟨e.1, n, p.2 + i, (t.lane n).pc.toNat, (t.lane n).trap, (t.lane n).deferred⟩
            else none)
        else [])
    else [])

/-- The first lane by counter and then by position (R161). -/
def headLane (ls : List SlotLane) : Option SlotLane :=
  match ls with
  | [] => none
  | x :: r => some (r.foldl (fun m y => if y.pc < m.pc ∨ (y.pc = m.pc ∧ y.pos < m.pos) then y else m) x)

/-- Sorts lane numbers. -/
def insertNat (n : Nat) (l : List Nat) : List Nat :=
  match l with
  | [] => [n]
  | x :: r => if n ≤ x then n :: x :: r else x :: insertNat n r
def sortNats (l : List Nat) : List Nat := l.foldl (fun a n => insertNat n a) []

/-- The head run of a slot (R161, R162): deferred lanes are passed over unless every lane is deferred. -/
def State.headRun (s : State) (core part slot : Nat) : Option Run :=
  let all := s.slotLanes core (part * 16 + slot)
  let cands := all.filter (fun x => !x.deferred)
  let cs := if cands.isEmpty then all else cands
  match headLane cs with
  | none => none
  | some h =>
    let ls := cs.filter (fun x => decide (x.team = h.team ∧ x.pc = h.pc ∧ x.trap = h.trap))
    some ⟨h.team, sortNats (ls.map (·.lane)), BitVec.ofNat 64 h.pc, h.trap⟩

/-- Clears the deferred marks of a team's lanes in a slot. -/
def Team.clearMarks (t : Team) (width idx : Nat) : Team :=
  let ns := (List.range t.slots.length).flatMap (fun g =>
    if (t.slots.getD g (0, 0)).1 = idx then (List.range width).map (fun i => g * width + i) else [])
  ns.foldl (fun t n => if (t.lane n).deferred then t.setLane n { t.lane n with deferred := false } else t) t

/-- The slot next issues an instruction: its marks are cleared (R162). -/
def State.clearMarks (s : State) (core idx : Nat) : State :=
  { s with teams := SMap.mapV {} s.teams (fun k t => if t.core = core then t.clearMarks (s.gridOf k).launch.width idx else t) }

/-- Clears the wait of a run's lanes whose waiting instruction issues again (R160). -/
def State.clearBlocks (s : State) (r : Run) : State :=
  let t := s.team r.team
  s.setTeam r.team (r.lanes.foldl (fun t n => if (t.lane n).block = .none then t else t.setLane n { t.lane n with block := .none }) t)

/-- The run whose instruction issues in the present turn, with the state in which it issues: the slot's marks
cleared (DEDUCED log 67). -/
def State.issuing (s : State) : Option (Run × State) :=
  match s.turn with
  | .slot c p i =>
    match s.headRun c p i with
    | some r => some (r, (s.clearMarks c (p * 16 + i)).clearBlocks r)
    | none => none
  | _ => none

/-- Runs an instruction for the head run; with no head run the turn is left empty (R163). -/
def onRun (s : State) (f : Run → State → Out) : Out :=
  match s.issuing with
  | some (r, s) => f r s
  | none => .next s

/-- The core of a team. -/
def State.coreOf (s : State) (tk : Nat) : Nat := (s.team tk).core

/-- Who a lane or sequencer of a team is for the memory system. -/
def State.whoOf (s : State) (tk : Nat) : Who :=
  { core := some (s.team tk).core, time := 0, asid := s.asidOf tk, grid := keyGrid tk, ix := keyIx tk }

/-- Whether a team has a place on a core. -/
def Team.placed (t : Team) : Bool := !t.slots.isEmpty

/-- The team of an agent. -/
def Agent.team (a : Agent) : Nat :=
  match a with
  | .lane t _ => t
  | .seq t => t

/-- Who an agent is at an address: the answers to its forwarded pieces are its own. -/
def State.whoAt (s : State) (a : Agent) (va : Nat) : Who := { s.whoOf a.team with va := va, owner := .agent a }

/-! ## Dispatcher accesses -/

/-- What an access of the dispatcher comes to: its result, a check that fails, or what it waits for (R203, R327, R330). -/
inductive Disp (α : Type) where
  | ok (x : α)
  | fail
  | wait (p : PageWait)
  deriving DecidableEq, Repr

/-- A read of the dispatcher waits no more for a page of a context (R330). -/
def State.endPageWait (s : State) (asid page : Nat) : State :=
  { s with dsp := { s.dsp with pageWaits := s.dsp.pageWaits.filter (fun x => decide (x ≠ (asid, page))) } }

/-- The place of an address for the dispatcher: a physical one, or one of a context's space walked at once (R113,
R115). Code pages are not written (R66). It waits for a frame that is away and for a page that is to be regenerated (R327,
R330, DEDUCED log 23, DEDUCED log 64). -/
def State.dispPlace (s : State) (asid : Option Nat) (va : Nat) (writes : Bool) : Disp Loc × State :=
  let place (pa : Nat) : Disp Loc :=
    match s.reachPa pa with
    | .none => .fail
    | .storage => .wait { b := .readBack (pa / 4096) }
    | _ =>
      if isFramePa pa && s.inFlight pa then .wait { b := .readBack (pa / 4096) }
      else if writes && s.inCode pa then .fail
      else .ok (.pa pa)
  match asid with
  | none => (place va, s)
  | some asid =>
    let o := (s.walk asid va).1
    let s := s.afterWalk asid o
    match o with
    | .ok pa r w _ => (if (if writes then w else r) then place pa else .fail, s)
    | .fault _ _ => (.fail, s)
    | .wait b => (.wait { b := b }, s)
    | .regen page slot frame _ =>
      if s.regenFails { asid := asid } page slot ≠ 0 then (.fail, (s.afterRegen asid page slot).endPageWait asid page)
      else (.wait ⟨.regen asid page, slot, frame⟩, s)

/-- The places of page stretches. -/
def State.dispPlaces (s : State) (asid : Option Nat) (writes : Bool) (cs : List (Nat × Nat)) : Disp (List (Loc × Nat)) × State :=
  match cs with
  | [] => (.ok [], s)
  | c :: r =>
    match s.dispPlace asid c.1 writes with
    | (.ok l, s) =>
      (match State.dispPlaces s asid writes r with
        | (.ok ls, s) => (.ok ((l, c.2) :: ls), s)
        | o => o)
    | (.fail, s) => (.fail, s)
    | (.wait p, s) =>
      -- a stretch that fails decides before one that waits
      match State.dispPlaces s asid writes r with
      | (.fail, s) => (.fail, s)
      | (_, s) => (.wait p, s)

/-- The runs of n bytes at an address for the dispatcher. -/
def State.dispRuns (s : State) (asid : Option Nat) (va n : Nat) (writes : Bool) : Disp (List (Loc × Nat)) × State :=
  if 2 ^ 56 < va + n then (.fail, s) else s.dispPlaces asid writes (cutPages (n / 4096 + 2) va n)

/-- No context: the number of none (R97). -/
abbrev noAsid : Nat := 512

/-- Who the dispatcher is for a context. -/
def dispWho (asid : Nat) : Who := { core := none, time := 0, asid := asid, grid := 0, ix := 0 }

/-- A wait of the dispatcher: the regeneration grid of the page starts, and the wait is noted; or the owner is asked (R322,
R330). -/
def State.dispHold (s : State) (asid : Option Nat) (p : PageWait) : State :=
  let s := s.startWait { asid := asid.getD noAsid } p
  match p.b with
  | .regen a page => { s with dsp := { s.dsp with pageWaits := (s.dsp.pageWaits ++ [(a, page)]).eraseDups } }
  | _ => s

/-- Stores bytes for the dispatcher, if every check passes and nothing holds it; with `full`, whole lines lose their
poison (R174, R235, R243) (DEDUCED log 46). -/
def State.dispStore (s : State) (asid : Option Nat) (va : Nat) (bs : List Byte) (full : Bool) : Disp Unit × State :=
  match s.dispRuns asid va bs.length true with
  | (.fail, s) => (.fail, s)
  | (.wait p, s) => (.wait p, s.dispHold asid p)
  | (.ok r, s) =>
    if s.mustWait 0 true r then (.wait { b := .access 0 true r }, s)
    else (.ok (), s.storeRuns (dispWho (asid.getD noAsid)) 0 (linePieces r) bs false full)

/-- Loads bytes for the dispatcher: a check that fails or a poisoned line gives none (R113). -/
def State.dispLoad (s : State) (asid : Option Nat) (va n : Nat) : Disp (List Byte) × State :=
  match s.dispRuns asid va n false with
  | (.fail, s) => (.fail, s)
  | (.wait p, s) => (.wait p, s.dispHold asid p)
  | (.ok r, s) =>
    let w := dispWho (asid.getD noAsid)
    let ps := linePieces r
    if s.mustWait 0 false r then (.wait { b := .access 0 false r }, s)
    else
      let s := s.askRemote w ps
      if ps.any (fun p => s.awaits w.owner p.1 p.2) then (.wait { b := .none }, s)
      else
        let x := s.loadRuns w ps
        (if x.1.2 then .fail else .ok x.1.1, x.2)

/-! ## Trace records (R120, R121) -/

/-- A write that waits is kept in order (R235, R327, R330). -/
def State.postpone (s : State) (x : LateWrite) : State := { s with dsp := { s.dsp with late := s.dsp.late ++ [x] } }

/-- Writes trace slot data for a context whose capture is open, or counts the drop. -/
def State.traceWrite (s : State) (asid : Nat) (bs : List Byte) : State :=
  let c := s.ctx asid
  if c.rcd.trpages = 0 then s
  else
    match c.cap with
    | .off => s
    | .stalled => s.setCtx asid { c with capDrops := c.capDrops + 1 }
    | .opened =>
      let slots := c.rcd.trpages * 64
      let va := c.rcd.trbase + 64 * (1 + c.capWrites % (slots - 1))
      match s.dispStore (some asid) va bs false with
      | (.ok _, s) => s.setCtx asid { c with capWrites := c.capWrites + 1 }
      | (.fail, s) => s.setCtx asid { c with cap := .stalled, capDrops := c.capDrops + 1 }
      | (.wait _, s) => (s.setCtx asid { c with capWrites := c.capWrites + 1 }).postpone ⟨some asid, va, bs, false, .trace⟩

/-- Team coordinates x [15:0], y [31:16], z [47:32] (R112). -/
def Grid.coords (g : Grid) (ix : Nat) : Nat :=
  ix % g.launch.gx + ix / g.launch.gx % g.launch.gy * 2 ^ 16 + ix / (g.launch.gx * g.launch.gy) * 2 ^ 32

/-- A trace record of a captured team: 1 dispatch, 2 swap out, 3 swap in, 4 barrier release, 5 exit, 6 fault
(R121). -/
def State.traceEvent (s : State) (tk event : Nat) : State :=
  let g := s.gridOf tk
  let t := s.team tk
  if g.captured then
    s.traceWrite g.asid
      (leBytes 8 (1 + event * 2 ^ 8 + g.asid * 2 ^ 16 + t.core * 2 ^ 25) ++ leBytes 8 s.fab.tick ++
        leBytes 8 g.launch.seq.toNat ++ leBytes 8 (g.coords (keyIx tk)) ++ leBytes 8 t.phases.toNat ++
        leBytes 8 t.seq.pc.toNat ++ leBytes 16 0)
  else s

/-! ## Unhandled faults -/

/-- The bytes of the record (R174). -/
def faultBytes (g : Grid) (ix : Nat) (r : FaultRec) : List Byte :=
  leBytes 8 (r.stream + r.cls * 2 ^ 8 + r.code * 2 ^ 16 + g.launch.seq.toNat * 2 ^ 32) ++
    leBytes 8 (g.coords ix) ++ leBytes 8 r.iaddr.toNat ++ leBytes 8 r.daddr.toNat ++
    leBytes 8 (r.group + r.width * 2 ^ 8) ++ leBytes 8 r.lanes ++ leBytes 8 r.nrec ++ leBytes 8 0 ++
    (List.range 24).flatMap (fun i => leBytes 8 (r.records.getD i 0).toNat)

/-- Whether a team of a context is stopped when the context faults (R136). -/
def faultsWith (st : TeamState) : Bool := decide (st = .dispatched ∨ st = .running ∨ st = .swapped ∨ st = .exiting)

/-- Stops a context's teams (R98, R136), with trace EVENT 6 for each. -/
def State.stopTeams (s : State) (asid : Nat) : State :=
  s.teams.foldl (fun s e =>
    if s.asidOf e.1 = asid ∧ faultsWith e.2.st = true then
      (s.setTeam e.1 { s.team e.1 with st := .faulted, closing := decide (e.2.st = .running) }).traceEvent e.1 6
    else s) s

/-- The record of a fault that no record can be written for is logged (R174). -/
def State.noRecord (s : State) (grid : Nat) : State := s.logEntry 0x0B (s.grid grid).asid (s.grid grid).launch.seq 0 0

/-- Writes the record of an unhandled fault at FREC (R174). -/
def State.writeRecord (s : State) (tk : Nat) (r : FaultRec) : State :=
  let g := s.gridOf tk
  if g.rcd.frec = 0 then s
  else
    let bs := faultBytes g (keyIx tk) r
    match s.dispStore (some g.asid) g.rcd.frec bs true with
    | (.ok _, s) => s
    | (.fail, s) => s.noRecord (keyGrid tk)
    | (.wait _, s) => s.postpone ⟨some g.asid, g.rcd.frec, bs, true, .fault (keyGrid tk)⟩

/-- The stream that a record names, as a number that orders them (R174): the sequencer, then the groups. -/
def FaultRec.place (r : FaultRec) : Nat := if r.stream = 0 then 0 else 1 + r.group

/-- A context that was moving faults: the target starts no more of its teams, and the words are this chip's (R98). -/
def State.endMoving (s : State) (asid : Nat) : State :=
  { s with grids := SMap.mapV {} s.grids (fun _ g => if g.asid = asid ∧ g.arrived = false then { g with moved := false } else g) }

/-- The faulted transition of R98. The record is written as the clock ends (R174): of several faults of one clock that which
comes first in the record's order, and of equal ones the one that was raised first (DESIGN CHOICE log 86). -/
def State.faultContext (s : State) (tk : Nat) (r : FaultRec) : State :=
  let asid := s.asidOf tk
  let c := s.ctx asid
  match c.st with
  | .faulted =>
    (match c.faultNow with
      | some x => if r.place < x.2.place then s.setCtx asid { c with faultNow := some (tk, r) } else s
      | none => s)
  | .wiped => s
  | .free => s
  | _ =>
    let s := (if c.st = .migrating then s.endMoving asid else s).stopTeams asid
    s.setCtx asid { s.ctx asid with st := .faulted, faultNow := some (tk, r), moveTo := none }

/-- The record of the fault that stopped a context is written, once (R174). -/
def State.settleFault (s : State) (asid : Nat) : State :=
  match (s.ctx asid).faultNow with
  | some x => (s.setCtx asid { s.ctx asid with faultNow := none }).writeRecord x.1 x.2
  | none => s

/-- An unhandled fault of either stream (R98, R174), which in a protected interval a consumption turns into a
rollback, which it joins where one is due already (R373, R374). -/
def State.unhandled (s : State) (tk : Nat) (r : FaultRec) : State :=
  let g := s.gridOf tk
  if r.cls = 6 then
    match g.interval.st with
    | .opened | .logging =>
      if g.interval.rolls < (s.policyOf g.rcd).rollmax then
        s.setGrid (keyGrid tk) { g with interval := { g.interval with st := .rolling } }
      else
        ((s.setGrid (keyGrid tk) { g with interval := { g.interval with st := .closed } }).logEntry 5 g.asid
          g.launch.seq 0 0).faultContext tk r
    | .rolling => s
    | .unprotected =>
      ((s.setGrid (keyGrid tk) { g with interval := { g.interval with st := .closed } }).logEntry 5 g.asid
        g.launch.seq 0 0).faultContext tk r
    | _ => s.faultContext tk r
  else s.faultContext tk r

/-! ## Lane traps -/

/-- A fault of one lane: class, code, data address, and for class 0x04 the bytes that fault on each page and the
KIND of its page records (R172, R204, R205). -/
structure LaneFault where
  lane : Nat
  cls : Nat
  code : Nat
  addr : Word
  pages : List Nat
  kind : Nat
  deriving DecidableEq, Repr

/-- The page records of a group (R205): one per page, in ascending lane order, the lower page first (DEDUCED log 60). -/
def pageRecords (width g : Nat) (fs : List LaneFault) : List Word :=
  let items := (fs.filter (fun f => decide (f.cls = 4 ∧ f.lane / width = g))).flatMap (fun f =>
    f.pages.map (fun a => (a, f)))
  (items.foldl (fun (acc : List Nat × List Word) x =>
    if acc.1.contains (x.1 / 4096) then acc
    else
      let win := if windowBase ≤ x.1 then 1 else 0
      (acc.1 ++ [x.1 / 4096], acc.2 ++ [BitVec.ofNat 64 (win * 2 ^ 60 + x.2.kind * 2 ^ 56 +
        x.1 / 2 ^ 12 % 2 ^ 44 * 2 ^ 12 + x.2.lane % width * 2 ^ 6 + x.2.code % 2 ^ 6)])) ([], [])).2

/-- The fault recorded for a lane of several it raised: the lower class (R172). -/
def lowestFault (fs : List LaneFault) (n : Nat) : Option LaneFault :=
  match fs.filter (fun f => decide (f.lane = n)) with
  | [] => none
  | f :: r => some (r.foldl (fun m x => if x.cls < m.cls then x else m) f)

/-- List of words as a map from 0 on. -/
def wordMap (l : List Word) (i : Nat) : SMap Word :=
  match l with
  | [] => []
  | w :: r => if w = 0 then wordMap r (i + 1) else (i, w) :: wordMap r (i + 1)

/-- A lane trap in every lane of a run (R171, R172, R205): `epc` is the address recorded. Unhandled when LVEC is
zero or the run is in trap mode. -/
def laneTrap (s : State) (r : Run) (epc : Word) (fs : List LaneFault) : State :=
  let g := s.gridOf r.team
  let w := g.launch.width
  let t := s.team r.team
  let unhandled := decide (g.rcd.lvec = 0) || r.trap
  let t' := r.lanes.foldl (fun t n =>
    let l := t.lane n
    let f := lowestFault fs n
    let recs := pageRecords w (n / w) fs
    let l := { l with
      lcause := match f with
        | some f => BitVec.ofNat 64 (f.cls * 256 + f.code)
        | none => 0
      lepc := epc
      laddr := match f with
        | some f => f.addr
        | none => 0
      lnrec := BitVec.ofNat 8 (Nat.min recs.length 128)
      lprec := wordMap (recs.take 32) 0 }
    t.setLane n (if unhandled then l else { l with trap := true, h := [], pc := g.rcd.lvec })) t
  let s := s.setTeam r.team t'
  if unhandled then
    match r.lanes.findSome? (fun n => lowestFault fs n) with
    | none => s
    | some f =>
      let grp := f.lane / w
      let mask := (r.lanes.filter (fun n => decide (n / w = grp) &&
        (match lowestFault fs n with
          | some x => decide (x.cls = f.cls ∧ x.code = f.code)
          | none => false))).foldl (fun m n => m + 2 ^ (n % w)) 0
      let recs := pageRecords w grp fs
      s.unhandled r.team ⟨1, f.cls, f.code, epc, f.addr, grp, w, mask, Nat.min recs.length 128, recs.take 24⟩
  else s

/-- The same fault in every lane of the run, at the instruction itself. -/
def trapAll (s : State) (r : Run) (cls code : Nat) : Out :=
  .next (laneTrap s r r.pc (r.lanes.map (fun n => ⟨n, cls, code, 0, [], 0⟩)))

/-- The undefined-instruction fault with code 0x01 in the run (R69, R94). -/
def undefinedInRun (s : State) (r : Run) : Out := trapAll s r 1 1

/-- Whether a register field falls under R69: at or above the cap, and no handler register. -/
def State.overCap (s : State) (r : Run) (f : Nat) : Bool :=
  !(r.trap && decide (56 ≤ f ∧ f ≤ 63)) && decide ((s.gridOf r.team).launch.cap ≤ f)

/-- Runs an instruction for the head run after the cap check of R69 on the register fields it names. -/
def onRunRegs (s : State) (fields : List Nat) (f : Run → State → Out) : Out :=
  onRun s (fun r s => if fields.any (s.overCap r) then undefinedInRun s r else f r s)

/-- What an instruction writes in one lane: registers, predicates (value, poison) and the flags it raises. -/
structure LaneOut where
  regs : List (Nat × VReg) := []
  preds : List (Nat × Bool × Bool) := []
  flags : Flags := 0
  deriving DecidableEq, Repr

/-- Applies it, and moves the counter on by the instruction's length. -/
def Lane.apply (l : Lane) (trap : Bool) (len : Nat) (o : LaneOut) : Lane :=
  let l := o.regs.foldl (fun l x => l.setReg trap x.1 x.2) l
  let l := o.preds.foldl (fun l x => l.setPred x.1 x.2.1 x.2.2) l
  { l with lflags := l.lflags ||| o.flags, pc := l.pc + BitVec.ofNat 64 len }

/-- Replaces each lane of a run by a function of it; every lane's new value is computed from the team before
(R25, R178). -/
def Team.updateLanes (t : Team) (ns : List Nat) (f : Nat → Lane → Lane) : Team :=
  ns.foldl (fun a n => a.setLane n (f n (t.lane n))) t

/-- Blocks the lanes of a run until their instruction can be checked again (R160). -/
def State.blockLanes (s : State) (r : Run) (b : Block) : State :=
  let t := s.team r.team
  s.setTeam r.team (t.updateLanes r.lanes (fun _ l => { l with block := b }))

/-- Blocks the lanes of a run for a page or a line, and sets going what they wait for (R322, R330). -/
def State.holdLanes (s : State) (r : Run) (p : PageWait) : State := (s.blockLanes r p.b).startWait (s.gridOf r.team) p

/-- Completes an instruction that writes only registers, predicates and flags of its lanes. -/
def finishLanes (s : State) (r : Run) (len : Nat) (f : Nat → Lane → LaneOut) : Out :=
  let t := s.team r.team
  .next (s.setTeam r.team (t.updateLanes r.lanes (fun n l => l.apply r.trap len (f n l))))

/-- A register-only lane instruction of `len` bytes naming the given register fields. `f` reads the lane (in the
run's trap mode) and says what it writes. -/
def laneOp (s : State) (len : Nat) (fields : List Nat) (f : Run → Team → Nat → Lane → LaneOut) : Out :=
  onRunRegs s fields (fun r s => finishLanes s r len (fun n l => f r (s.team r.team) n l))

/-! ## The sequencer -/

/-- Register n of the sequencer as it names it now: s0 reads zero; in trap mode 24 to 31 are the handler
registers (R146, R151). -/
def Sequencer.reg (q : Sequencer) (n : Nat) : Word :=
  if n = 0 then 0 else if q.trap && decide (24 ≤ n) then SMap.get 0 q.hs (n - 24) else SMap.get 0 q.s n

/-- Writes register n; writes to s0 are ignored. -/
def Sequencer.setReg (q : Sequencer) (n : Nat) (x : Word) : Sequencer :=
  if n = 0 then q
  else if q.trap && decide (24 ≤ n) then { q with hs := SMap.set 0 q.hs (n - 24) x } else { q with s := SMap.set 0 q.s n x }

/-- The loop that a sequencer runs now (R153, R154, DEDUCED log 20). -/
def Sequencer.curLoop (q : Sequencer) : Option LoopState := if q.trap then q.hloop else q.loop
def Sequencer.setLoop (q : Sequencer) (l : Option LoopState) : Sequencer := if q.trap then { q with hloop := l } else { q with loop := l }

/-- An end-of-pass addition: an address register of 0 disables its pair (R92, R153). -/
def stepAdd (q : Sequencer) (addr inc : Nat) : Sequencer :=
  if addr = 0 then q else q.setReg addr (q.reg addr + q.reg inc)

/-- Fields of a LOOP step word (R92). -/
def stepField (w : Word) (lo : Nat) : Nat := w.toNat / 2 ^ lo % 32

/-- Moves the sequencer to the next address; at the end of a loop's body the pass ends (R153). -/
def Sequencer.advance (q : Sequencer) (len : Nat) : Sequencer :=
  let pc := q.pc + BitVec.ofNat 64 len
  match q.curLoop with
  | none => { q with pc := pc }
  | some l =>
    if pc = l.hi then
      let q := stepAdd q (stepField l.step 17) (stepField l.step 12)
      let q := stepAdd q (stepField l.step 27) (stepField l.step 22)
      if l.pass + 1 = l.count then { q.setLoop none with pc := pc }
      else { q.setLoop (some { l with pass := l.pass + 1 }) with pc := l.lo }
    else { q with pc := pc }

/-- Whether the sequencer of a team can issue an instruction: its team runs, it has not exited and waits for
nothing (R146, R308). -/
def State.seqIssues (s : State) (tk : Nat) : Bool :=
  s.issues tk && !(s.team tk).seq.exited && !(s.team tk).seq.parked &&
    (match (s.team tk).seq.wait with
      | none => true
      | some .force => true
      | some (.page _ _) => true
      | some .vwait => true
      | _ => false)

/-- Runs a sequencer instruction for the team whose turn it is; a sequencer that cannot issue leaves the turn
empty. -/
def onSeq (s : State) (f : Nat → Sequencer → State → Out) : Out :=
  match s.turn with
  | .seq tk =>
    if s.seqIssues tk then
      let q := { (s.team tk).seq with wait := none }
      f tk q (s.setTeam tk { s.team tk with seq := q })
    else .next s
  | _ => .next s

/-- Replaces a team's sequencer. -/
def State.setSeq (s : State) (tk : Nat) (q : Sequencer) : State := s.setTeam tk { s.team tk with seq := q }

/-- The sequencer enters trap mode at SVEC, saving the address `epc`; unhandled in trap mode or when SVEC is
zero (R151). -/
def seqTrapAt (s : State) (tk : Nat) (cls code : Nat) (epc addr : Word) : State :=
  let g := s.gridOf tk
  let q := (s.team tk).seq
  let q' := { q with scause := BitVec.ofNat 64 (cls * 256 + code), sepc := epc, saddr := addr }
  if q.trap ∨ g.rcd.svec = 0 then
    (s.setSeq tk q').unhandled tk ⟨0, cls, code, epc, addr, 0, 0, 0, 0, []⟩
  else s.setSeq tk { q' with trap := true, hs := [], hloop := none, wait := none, pc := g.rcd.svec }

/-- A precise sequencer trap at the instruction being issued. -/
def seqTrap (s : State) (tk cls code : Nat) (addr : Word) : Out :=
  .next (seqTrapAt s tk cls code (s.team tk).seq.pc addr)

/-- An asynchronous trap taken at an instruction boundary: %sepc names the next instruction to issue, or the
waiting one, whose wait is held; so is one that a TRET has returned to and that has not issued again (R151, R396). -/
def takeAsync (s : State) (tk : Nat) (a : AsyncTrap) : State :=
  let q := (s.team tk).seq
  let held := match q.wait with
    | some (.bar b p) => some (SeqWait.bar b p, q.pc)
    | some (.cbar p) => some (SeqWait.cbar p, q.pc)
    | some (.gbar p) => some (SeqWait.gbar p, q.pc)
    | _ => q.held
  -- an interrupted ACQ leaves the core's queue (R396)
  let s := match q.wait with
    | some .acq =>
      let c := s.coreAt (s.coreOf tk)
      s.setCore (s.coreOf tk) { c with acq := c.acq.filter (fun x => decide (x.1 ≠ tk)) }
    | _ => s
  let s := s.setSeq tk { (s.team tk).seq with held := held, pending := q.pending.erase a }
  seqTrapAt s tk a.cls a.code q.pc a.addr

/-- Raises an asynchronous trap in a team's sequencer: unhandled when it has exited, is in trap mode, or has no
handler (R257); otherwise it is pending until the next boundary. -/
def raiseAsync (s : State) (tk : Nat) (a : AsyncTrap) (rec : FaultRec) : State :=
  let q := (s.team tk).seq
  if q.exited ∨ q.trap = true ∨ (s.gridOf tk).rcd.svec = 0 then s.unhandled tk rec
  else s.setSeq tk { q with pending := q.pending ++ [a] }

/-- The sequencer's instruction completes: its registers change by f and it goes on to the next address. -/
def State.seqDone (s : State) (tk : Nat) (f : Sequencer → Sequencer) : State := s.setSeq tk ((f (s.team tk).seq).advance 4)

/-- The instruction waits inside itself and issues again (R266, R301, R238). -/
def State.seqStay (s : State) (tk : Nat) : State := s.setSeq tk { (s.team tk).seq with wait := some .force }

/-- The sequencer waits for a page or a line, inside its instruction or to fetch one (R322, R327, R330). -/
def State.seqPage (s : State) (tk : Nat) (p : PageWait) (fetch : Bool) : State :=
  (s.setSeq tk { (s.team tk).seq with wait := some (.page p.b fetch) }).startWait (s.gridOf tk) p

/-- A sequencer instruction of `len` bytes that only changes sequencer registers. -/
def seqOp (s : State) (len : Nat) (f : Sequencer → Sequencer) : Out :=
  onSeq s (fun tk q s => .next (s.setSeq tk ((f q).advance len)))

/-! ## Instruction fetch (R65, R128, R334, R335) -/

/-- Notes the translation under which a line of an instruction cache is fetched (R319, R334). -/
def Core.via (c : Core) (pl asid vl : Nat) : Core :=
  if c.ivia.contains (pl, asid, vl) then c else { c with ivia := (pl, asid, vl) :: c.ivia }

/-- Fills a line of a core's instruction cache; a fill of a full cache replaces a line that the spec leaves open
(R334, DESIGN CHOICE log 18). -/
def State.putCode (s : State) (core pl data : Nat) : State :=
  let c := s.coreAt core
  if 512 ≤ c.icache.length then
    let ic := c.icache.eraseIdx (Config.icacheVictim s.freeCtr % 512)
    { s with freeCtr := s.freeCtr + 1 }.setCore core { c with icache := SMap.set 0 ic pl (data + 1) }
  else s.setCore core { c with icache := SMap.set 0 c.icache pl (data + 1) }

/-- What fetching a halfword or a line gives: its value, a fault code of R128, or a wait. -/
inductive Fetched where
  | ok (w : Nat)
  | fault (code : Nat)
  | wait (p : PageWait)
  deriving DecidableEq, Repr

/-- The bytes of a physical line in a core's instruction cache, fetched at a virtual line of a context, filling it on
a miss (R128, R334). A line that is poisoned, or whose frame is lost, or that the bridge fails to bring, gives code
0x03 (R243, R323). -/
def State.fillLine (s : State) (core asid vl pl : Nat) : Fetched × State :=
  let c := s.coreAt core
  let have_ := SMap.get 0 c.icache pl
  let l := Loc.pa (pl * 64)
  let w : Who := { core := none, time := 0, asid := asid, grid := 0, ix := 0, owner := .walk }
  if have_ ≠ 0 then (.ok (have_ - 1), s.setCore core (c.via pl asid vl))
  else if s.awaits .walk l 64 then (.wait { b := .remote (pl * 64) 64 }, s)
  else
    let x : (List Byte × Bool) × State :=
      match s.forwarded .walk l 64 with
      | some f => (f.reply.getD ([], true), s.dropForward f.tag)
      | none =>
        let s := s.detectAt w l
        match s.hostFault l false with
        | some e => (([], true), s.failHost l e)
        | none => ((s.pieceBytes l 64, s.piecePoison l), s)
    if x.1.2 then (.fault 3, x.2)
    else
      let data := leNat x.1.1
      let s := x.2.putCode core pl data
      (.ok data, s.setCore core ((s.coreAt core).via pl asid vl))

/-- Fetches the halfword at an address for a team (R128). -/
def State.fetchHalf (s : State) (tk : Nat) (va : Nat) : Fetched × State :=
  if 2 ^ 56 ≤ va then (.fault 4, s)
  else
    let core := s.coreOf tk
    let asid := s.asidOf tk
    let tr := s.translate core asid va
    let s := tr.2
    let line (pa : Nat) (s : State) : Fetched × State :=
      match s.reachPa pa with
      | .none => (.fault 1, s)
      | _ =>
        if s.awayNow (.pa pa) then (.wait { b := .readBack (pa / 4096) }, s)
        else
          match s.fillLine core asid (va / 64) (pa / 64) with
          | (.ok d, s) => (.ok (d / 2 ^ (8 * (pa % 64)) % 2 ^ 16), s)
          | o => o
    match tr.1 with
    | .fault _ _ => (.fault 1, s)
    | .wait b => (.wait { b := b }, s)
    | .regen page slot frame _ =>
      if (s.gridOf tk).regenerates page then (.fault 2, s)
      else if s.regenFails (s.gridOf tk) page slot ≠ 0 then (.fault 1, s.afterRegen asid page slot)
      else (.wait ⟨.regen asid page, slot, frame⟩, s)
    | .ok pa _ _ x => if x then line pa s else (.fault 2, s)

/-- Whether the line at an address is present in the instruction cache of a team's core (R334). -/
def State.present (s : State) (tk va : Nat) : Bool :=
  match (s.translate (s.coreOf tk) (s.asidOf tk) va).1 with
  | .ok pa _ _ _ => decide (SMap.get 0 (s.coreAt (s.coreOf tk)).icache (pa / 64) ≠ 0)
  | _ => false

/-- Fetches the instruction at an address: 16 bits when bit 0 of its first halfword is 0, else 32 (R65). It issues with
both its lines present: where the fill of the second replaced the first, the fetch begins again in a later turn (R335). -/
def State.fetchInstr (s : State) (tk : Nat) (va : Nat) : Fetched × State :=
  match s.fetchHalf tk va with
  | (.ok lo, s) =>
    if lo % 2 = 0 then (.ok lo, s)
    else
      match s.fetchHalf tk (va + 2) with
      | (.ok hi, s) => if s.present tk va then (.ok (lo + hi * 2 ^ 16), s) else (.wait { b := .none }, s)
      | o => o
  | o => o

end Sys2Proof.Machine
end

