-- ==== Sys2Proof/Machine/Access.lean ====
section
/-! DEFINITION. Performing accesses that have passed their checks (R202, R206 to R216, R222), the deferred
reductions (R210 to R213), and the accesses that wait (R207, R235, R268). -/

namespace Sys2Proof.Machine

/-! ## Stores that may reach host memory -/

/-- The host bus address of a place in host memory. -/
def State.hostAddr (s : State) (l : Loc) : Nat :=
  match s.reach l with
  | .here k => (k - hostKey 0) % 2 ^ 51
  | _ => 0

/-- Pieces of a store after `done` bytes of it: where its poisoned data would reach host memory they are discarded, and
the grid consumes the error (R374); otherwise they perform. -/
def State.storeOrConsume (s : State) (w : Who) (done : Nat) (ps : List (Loc × Nat)) (bs : List Byte) (poison full : Bool)
    (tk : Nat) (r : FaultRec) : State :=
  match if poison then ps.find? (fun x => s.inHost x.1) else none with
  | some x => s.unhandled tk { r with daddr := BitVec.ofNat 64 (s.hostAddr x.1) }
  | none => s.storeRuns { w with blame := some (tk, r) } done ps bs poison full

/-- The record of a consumption by a lane or sequencer at an instruction (R374). -/
def State.consumeRec (s : State) (a : Agent) (iaddr : Word) : FaultRec :=
  match a with
  | .lane tk n =>
    let w := (s.gridOf tk).launch.width
    ⟨1, 6, 6, iaddr, 0, n / w, w, 2 ^ (n % w), 0, []⟩
  | .seq _ => ⟨0, 6, 6, iaddr, 0, 0, 0, 0, 0, []⟩

/-! ## Atomic steps (R208) -/

/-- Width of an ATOM type code: i32, n32, i64, n64, f32, f64 (R79). -/
def atomWidth (t : Nat) : Nat := if t = 2 ∨ t = 3 ∨ t = 5 then 64 else 32

/-- One step: the new value and the flags of a float step (R208). Ops: add, min, max, and, or, xor, swap,
cas. -/
def atomStep (op t : Nat) (old y c : Nat) : Nat × Flags :=
  let w := atomWidth t
  let sg := decide (t = 0 ∨ t = 2)
  let f := if t = 5 then fmtF64 else fmtF32
  match op with
  | 0 => if 4 ≤ t then fAdd f 0 old y else ((old + y) % 2 ^ w, 0)
  | 1 => if 4 ≤ t then fMinMax f false old y else (if readInt sg w old ≤ readInt sg w y then old else y, 0)
  | 2 => if 4 ≤ t then fMinMax f true old y else (if readInt sg w old ≤ readInt sg w y then y else old, 0)
  | 3 => (old &&& y, 0)
  | 4 => (old ||| y, 0)
  | 5 => (old ^^^ y, 0)
  | 6 => (y, 0)
  | _ => (if old = c then y else old, 0)

/-! ## Recording stores for the auditor (R378) -/

/-- Whether a grid's launch is audited (R377). -/
def Grid.audited (g : Grid) : Bool := g.rcd.det && g.launch.roin

/-- Adds a store record of an audited team. -/
def State.recordStore (s : State) (a : Agent) (va : Word) (size data : Nat) : State :=
  match a with
  | .lane tk n =>
    if (s.gridOf tk).audited then
      let t := s.team tk
      let w := (s.gridOf tk).launch.width
      s.setTeam tk { t with stores := t.stores ++ [⟨n / w, n % w, t.order, va, size, data⟩], order := t.order + 1 }
    else s
  | .seq tk =>
    if (s.gridOf tk).audited then
      let t := s.team tk
      s.setTeam tk { t with stores := t.stores ++ [⟨2 ^ 16, 0, t.order, va, size, data⟩], order := t.order + 1 }
    else s

/-! ## Performing one access -/

/-- Register numbers 64 to 71 name h0 to h7. -/
def Lane.putAbs (l : Lane) (n : Nat) (x : VReg) : Lane :=
  if 64 ≤ n then { l with h := SMap.set {} l.h (n - 64) x } else { l with v := SMap.set {} l.v n x }

/-- The absolute register that a field names in a run. -/
def absReg (trap : Bool) (f : Nat) : Nat := if trap && decide (56 ≤ f) then f + 8 else f

/-- Writes the doublewords of x into consecutive registers. -/
def Lane.putWords (l : Lane) (first k x : Nat) (poison : Bool) : Lane :=
  match k with
  | 0 => l
  | j + 1 => Lane.putWords (l.putAbs first ⟨BitVec.ofNat 64 x, poison⟩) (first + 1) j (x / 2 ^ 64) poison

/-- The FIFO port of an access, if its bytes lie in a bank in FIFO mode (R247). -/
def State.fifoPort (s : State) (runs : List (Loc × Nat)) : Option (Nat × Nat × Nat) :=
  match runs with
  | (.spad t b o, _) :: _ => if (s.team t).fifoBank b then some (t, b, o) else none
  | _ => none

/-- Reads a FIFO port: POP removes the oldest entry, LEVEL counts (R247). -/
def State.fifoRead (s : State) (t b o : Nat) : VReg × State :=
  let tm := s.team t
  let q := SMap.get [] tm.fifos b
  if o = 8 then
    match q with
    | [] => ({}, s)
    | x :: r => (x, s.setTeam t { tm with fifos := SMap.set [] tm.fifos b r })
  else (⟨BitVec.ofNat 64 (q.length + (4095 - q.length) * 2 ^ 32), false⟩, s)

/-- Appends to a FIFO bank. -/
def State.fifoPush (s : State) (t b : Nat) (x : VReg) : State :=
  let tm := s.team t
  s.setTeam t { tm with fifos := SMap.set [] tm.fifos b (SMap.get [] tm.fifos b ++ [x]) }

/-- A push or a pop is one event of the bank, and reading LEVEL another (R229, R248). -/
def State.fifoEvent (s : State) (w : Who) (t b o : Nat) : State :=
  if o = 16 then (s.touchLoad w (.spad t b 0)).setTag w false (.spad t b o)
  else (s.touchStore w (.spad t b 0)).setTag w (decide (o = 0)) (.spad t b o)

/-- Changes a lane of a team. -/
def State.modLane (s : State) (tk n : Nat) (f : Lane → Lane) : State :=
  let t := s.team tk
  s.setTeam tk (t.setLane n (f (t.lane n)))

/-- Bytes that the sequencer's own buffered stores hold for a place, latest last (R148, R238). -/
def bufByte (buf : List BufByte) (l : Loc) (b : Byte) : Byte :=
  buf.foldl (fun v x => if x.loc = l then x.val else v) b

/-- Overlays the store buffer on bytes read from runs. -/
def overlay (buf : List BufByte) (runs : List (Loc × Nat)) (bs : List Byte) : List Byte :=
  match runs with
  | [] => []
  | (l, n) :: r => (List.range n).map (fun i => bufByte buf (l.plus i) (bs.getD i 0)) ++ overlay buf r (bs.drop n)

/-! ## Atomic steps at a place -/

/-- One atomic step here, with the old value, its poison, the flags and the new value (R208, R222, R229). -/
def State.localAtom (s : State) (w : Who) (l : Loc) (op t : Nat) (y c : Word) (poison : Bool) (tk : Nat) (r : FaultRec) :
    (Nat × Bool × Flags × Nat) × State :=
  let n := atomWidth t / 8
  let s := s.detectAt w l
  let old := leNat (s.pieceBytes l n)
  let o := atomStep op t old (y.toNat % 2 ^ atomWidth t) (c.toNat % 2 ^ atomWidth t)
  let p := poison || s.piecePoison l
  ((old, p, o.2, o.1), s.storeOrConsume w 0 [(l, n)] (leBytes n o.1) p false tk r)

/-- One atomic step at a place: here, or by the answer of the chip that owns it (R322). In a lost frame, or where the
bridge fails, it gives zero, poisoned, and a deferred reduction is discarded (R323); a poisoned completion of a frame's
data poisons it and the step performs (R322). -/
def State.atomAt (s : State) (w : Who) (l : Loc) (op t : Nat) (y c : Word) (poison red : Bool) (tk : Nat) (r : FaultRec) :
    (Nat × Bool × Flags × Nat) × State :=
  let n := atomWidth t / 8
  let fails (s : State) : (Nat × Bool × Flags × Nat) × State := ((0, true, 0, 0), if red then s.discardWrite w l else s)
  match s.forwarded w.owner l n with
  | some f =>
    let b := f.reply.getD ([], true)
    let o := atomStep op t (leNat b.1) (y.toNat % 2 ^ atomWidth t) (c.toNat % 2 ^ atomWidth t)
    ((leNat b.1, poison || b.2, o.2, o.1), (s.touchStore w l).dropForward f.tag)
  | none =>
    match s.hostFault l false, s.reach l with
    | some e, _ =>
      if e = .poisoned ∧ l.cached = true then
        State.localAtom { s with dsp := { s.dsp with hostFail := none } } w l op t y c true tk r
      else fails (s.failHost l e)
    | none, .here _ => s.localAtom w l op t y c poison tk r
    | none, _ => fails s

/-- One plane word: bits under the mask take the data, in one step (R215, R229). -/
def State.planeAt (s : State) (w : Who) (l : Loc) (mask data : Nat) (poison : Bool) : Nat × State :=
  let s := s.detectAt w l
  let v := (leNat (s.pieceBytes l 8) &&& (2 ^ 64 - 1 - mask)) ||| (data &&& mask)
  (v, s.storeRuns w 0 [(l, 8)] (leBytes 8 v) poison false)

/-! ## Performing accesses piece by piece (R202, R203) -/

/-- Whether an access takes an answer where its bytes are another chip's (R322). -/
def MemOp.asks (o : MemOp) : Bool :=
  match o with
  | .store _ _ _ => false
  | .plane _ _ _ => false
  | _ => true

/-- The place of the next piece of an access. -/
def Access.front (a : Access) : Option Loc := a.runs.head?.map (·.1)

/-- Whether an access that waits at the line of a place, among the first idx waiting ones, has come to the end of its
wait and goes first (R232: queued accesses are served in arrival order). -/
def State.queuedBefore (s : State) (idx : Nat) (l : Loc) : Bool :=
  (s.parked.take idx).any (fun p => p.held && s.issues p.team && (match p.accs with
    | a :: _ => (match a.runs with
      | x :: _ => decide (tagKey x.1 = tagKey l) && !s.mustWait (keyGrid p.team) a.op.writes [x]
      | [] => false)
    | [] => false))

/-- Whether an access that is made now at the line of a place stands behind one that waits (R140, R232). -/
def State.standsBehind (s : State) (grid : Nat) (writes : Bool) (l : Loc) : Bool :=
  s.queuedBefore s.parked.length l || s.detBefore s.parked.length grid writes l

/-- Whether a FIFO port cannot take, or does not hold, the entry of an access (R248). -/
def State.portWaits (s : State) (a : Access) : Bool :=
  match s.fifoPort a.runs with
  | some (t, b, o) =>
    let q := SMap.get [] (s.team t).fifos b
    if a.op.writes then decide (4095 ≤ q.length) else decide (o = 8) && q.isEmpty
  | none => false

/-- Whether the next piece of an access that stands behind idx waiting ones must wait now (R140, R207, R232, R235, R248, R268,
R327). -/
def State.pieceWaits (s : State) (idx : Nat) (a : Access) (p : Loc × Nat) : Bool :=
  s.mustWait (keyGrid a.agent.team) a.op.writes [p] || s.queuedBefore idx p.1 || s.portWaits a ||
    s.detBefore idx (keyGrid a.agent.team) a.op.writes p.1

/-- Sends the next piece of an access to the chip that owns it, unless it is on its way (R322). -/
def State.askPiece (s : State) (iaddr : Word) (a : Access) (p : Loc × Nat) : State :=
  let w := { s.whoAt a.agent (a.va.toNat + a.done) with blame := some (a.agent.team, s.consumeRec a.agent iaddr) }
  match a.op with
  | .atom op t y c poison _ =>
    if (s.forwarded w.owner p.1 p.2).isNone then
      let s := s.undoLog w p.1
      s.forward w p.1 p.2 false (fun tag pa => .fwdAtom tag pa op t y c poison (s.wantsOld w p.1))
    else s
  | _ => s.askRemote w [p]

/-- The next piece of an access and those behind it. At another chip, which serves it line by line, it takes the rest of its
stretch in the line along (R322). -/
def State.frontPiece (s : State) (a : Access) : Option ((Loc × Nat) × List (Loc × Nat)) :=
  match a.runs with
  | [] => none
  | [p] => some (p, [])
  | p :: q :: r =>
    let n := p.2 + q.2
    let joined := decide (q.1 = p.1.plus p.2 ∧ tagKey q.1 = tagKey p.1)
    if joined && (s.isRemote p.1 || (s.forwarded (.agent a.agent) p.1 n).isSome) then some ((p.1, n), r) else some (p, q :: r)

/-- Performs the next piece of an access that waits for nothing: what it reads, and its effect on memory. -/
def State.doPiece (s : State) (iaddr : Word) (a : Access) (p : Loc × Nat) (rest : List (Loc × Nat)) : Access × State :=
  let w := s.whoAt a.agent (a.va.toNat + a.done)
  let r := s.consumeRec a.agent iaddr
  let a' : Access := { a with runs := rest, done := a.done + p.2 }
  match a.op with
  | .load _ _ _ | .leave _ =>
    let x : (List Byte × Bool) × State :=
      match s.fifoPort a.runs with
      | some (t, b, o) =>
        let y := (s.fifoEvent w t b o).fifoRead t b o
        ((leBytes 8 y.1.val.toNat, y.1.poison), y.2)
      | none => s.loadPiece w p.1 p.2
    ({ a' with got := a.got ++ x.1.1, poison := a.poison || x.1.2 }, x.2)
  | .store size data poison =>
    (a', match s.fifoPort a.runs with
      | some (t, b, _) => (s.fifoEvent w t b 0).fifoPush t b ⟨BitVec.ofNat 64 data, poison⟩
      | none => s.storeOrConsume w a.done [p] (((leBytes size data).drop a.done).take p.2) poison true a.agent.team r)
  | .atom op t y c poison _ =>
    let x := s.atomAt w p.1 op t y c poison false a.agent.team r
    let s := x.2.recordStore a.agent a.va (atomWidth t / 8) x.1.2.2.2
    ({ a' with got := leBytes 8 x.1.1, poison := x.1.2.1 },
      match a.agent with
      | .lane tk n => s.modLane tk n (fun l => { l with lflags := l.lflags ||| x.1.2.2.1 })
      | .seq _ => s)
  | .plane mask data poison =>
    let x := s.planeAt w p.1 mask data poison
    (a', x.2.recordStore a.agent a.va 8 x.1)

/-- An access whose pieces have all performed: its effect on registers. For a sequencer the instruction's effect on its
counter is part of it; a load of a poisoned line traps instead (R148). -/
def State.finish (s : State) (a : Access) : State :=
  let v := leNat a.got
  match a.agent with
  | .lane tk n =>
    (match a.op with
      | .load first size _ => s.modLane tk n (fun l => l.putWords first (Nat.max 1 (size / 8)) v a.poison)
      | .leave k =>
        s.modLane tk n (fun l =>
          let v6 := SMap.get {} l.v 6
          (l.putAbs 7 ⟨BitVec.ofNat 64 v, a.poison⟩).putAbs 6 ⟨v6.val + BitVec.ofNat 64 (16 * k), v6.poison⟩)
      | .store size data _ => s.recordStore a.agent a.va size data
      | .atom _ _ _ _ _ d => s.modLane tk n (fun l => l.putAbs d ⟨BitVec.ofNat 64 v, a.poison⟩)
      | .plane _ _ _ => s)
  | .seq tk =>
    let q := { (s.team tk).seq with parked := false }
    match a.op with
    | .load first size sx =>
      let s := s.setSeq tk q
      if a.poison then seqTrapAt s tk 6 1 q.pc a.va
      else
        let x := if sx then wrapInt 64 (asSigned (8 * size) v) else v % 2 ^ (8 * size)
        s.setSeq tk ((q.setReg first (BitVec.ofNat 64 x)).advance 4)
    | .store size data _ => (s.recordStore a.agent a.va size data).setSeq tk (q.advance 4)
    | _ => s

/-- What performing the next piece of an access comes to. -/
inductive PieceOut where
  | wait (s : State)
  | more (a : Access) (s : State)
  | done (s : State)
  deriving DecidableEq, Repr

/-- The next piece of an access that stands behind idx waiting ones performs, or waits. A sequencer's load sees its own
buffered stores (R148, R238). -/
def State.stepPiece (s : State) (idx : Nat) (iaddr : Word) (a : Access) : PieceOut :=
  match s.frontPiece a with
  | none => .done (s.finish a)
  | some (p, rest) =>
    if s.pieceWaits idx a p then .wait s
    else if a.op.asks && s.awaits (.agent a.agent) p.1 p.2 then .wait (s.askPiece iaddr a p)
    else
      let buf := match a.agent with
        | .seq tk => if (s.fifoPort a.runs).isSome then [] else (s.team tk).seq.sbuf
        | .lane _ _ => []
      let x := s.doPiece iaddr a p rest
      let y := { x.1 with got := a.got ++ overlay buf [p] (x.1.got.drop a.got.length) }
      let b := match a.op with
        | .load _ _ _ => y
        | _ => x.1
      if rest.isEmpty then .done (x.2.finish b) else .more b x.2

/-- How many pieces accesses still have. -/
def pieceCount (as : List Access) : Nat := as.foldl (fun n a => n + a.runs.length) 0

/-- Performs up to a number of pieces, in order, up to the first that must wait; answers the rest, and whether it waits at
its line (R202). -/
def State.performList (s : State) (fuel idx : Nat) (iaddr : Word) (as : List Access) : (List Access × Bool) × State :=
  match as with
  | [] => (([], false), s)
  | a :: r =>
    match fuel with
    | 0 => ((a :: r, false), s)
    | k + 1 =>
      match s.stepPiece idx iaddr a with
      | .wait s => ((a :: r, true), s)
      | .more b s => State.performList s k idx iaddr (b :: r)
      | .done s => State.performList s k idx iaddr r

/-- Marks the agents of waiting accesses: the lanes of the run are no candidates, a sequencer issues nothing (R160,
R203, R207). -/
def State.markWaiting (s : State) (tk : Nat) (lanes : List Nat) : State :=
  let t := s.team tk
  let t := t.updateLanes lanes (fun _ l => { l with block := .perform })
  s.setTeam tk (if lanes.isEmpty then { t with seq := { t.seq with parked := true } } else t)

/-- An instruction of lanes has performed: their counters move on (R160). -/
def State.laneDone (s : State) (tk : Nat) (lanes : List Nat) : State :=
  if lanes.isEmpty then s
  else s.setTeam tk ((s.team tk).updateLanes lanes (fun _ l => { l with block := .none, pc := l.pc + 4 }))

/-- How many pieces the accesses of an instruction perform at once (R202, DESIGN CHOICE log 4). -/
def State.paceOf (s : State) (as : List Access) : Nat := s.pace.getD (pieceCount as)

/-- Whether the checks of a DET grid's accesses are not complete, for a line that a command of the grid may access whose
elements are not known yet (R140, R203, R254): their places, and whether they write. -/
def State.detHold (s : State) (grid : Nat) (as : List Access) : Option (Bool × List (Loc × Nat)) :=
  let writes := as.any (·.op.writes)
  let runs := as.flatMap (·.runs)
  if (s.grid grid).rcd.det && s.commands.any (fun c => c.loose && decide (keyGrid c.team = grid) &&
      (lineNames runs).any (fun k => c.claims.contains k || (writes && c.srcs.contains k))) then some (writes, runs) else none

/-- The tags of all lines of the accesses of a DET grid, from their checks on (R140, R203). -/
def State.tagAll (s : State) (as : List Access) : State :=
  as.foldl (fun s a => if (s.fifoPort a.runs).isSome then s else a.runs.foldl (fun s p => s.setTag (s.whoAt a.agent 0) a.op.writes p.1) s) s

/-- Performs the accesses of an instruction of these lanes, or with none of the sequencer; what must wait is parked
(R202, R203, R207) (DEDUCED log 29). -/
def State.performOrPark (s : State) (tk : Nat) (lanes : List Nat) (iaddr : Word) (as : List Access) : State :=
  let fuel := s.paceOf as
  let x := State.performList { s.tagAll as with pace := none } fuel s.parked.length iaddr as
  match x.1 with
  | ([], _) => x.2.laneDone tk lanes
  | (rest, held) => { x.2.markWaiting tk lanes with parked := x.2.parked ++ [⟨tk, lanes, iaddr, rest, held⟩] }

/-- A waiting entry goes on where its wait has ended (R160): still at the same line it keeps its place in the queue
(R232), and one of a DET grid its place among the grid's (R140). -/
def State.resumeParked (s : State) (idx : Nat) : State :=
  match s.parked.drop idx with
  | [] => s
  | p :: _ =>
    if s.issues p.team then
      let fuel := s.paceOf p.accs
      let x := State.performList { s with pace := none } fuel idx p.iaddr p.accs
      match x.1 with
      | ([], _) => { x.2 with parked := x.2.parked.eraseIdx idx }.laneDone p.team p.lanes
      | (rest, held) =>
        let q : Parked := { p with accs := rest, held := held }
        if (s.grid (keyGrid p.team)).rcd.det = true ∨
            (rest.head?.bind Access.front).map tagKey = (p.accs.head?.bind Access.front).map tagKey then
          { x.2 with parked := x.2.parked.set idx q }
        else { x.2 with parked := x.2.parked.eraseIdx idx ++ [q] }
    else s

/-! ## Deferred reductions (R210 to R213) -/

/-- The grid whose entries a release applies. -/
def BarKind.grid (k : BarKind) : Nat :=
  match k with
  | .bar t _ => keyGrid t
  | .cbar g _ => g
  | .gbar g => g
  | .exit t => keyGrid t

/-- The team of a flush that is one team's. -/
def BarKind.team (k : BarKind) : Option Nat :=
  match k with
  | .bar t _ => some t
  | .exit t => some t
  | _ => none

/-- The order in which entries are applied (R211): team index, group, lane, program order. -/
def redBefore (a b : RedEntry) : Bool :=
  decide (a.ix < b.ix ∨ (a.ix = b.ix ∧ (a.group < b.group ∨ (a.group = b.group ∧ (a.lane < b.lane ∨
    (a.lane = b.lane ∧ a.order ≤ b.order))))))

/-- Inserts into a sorted list of entries, after equals. -/
def insertRed (e : RedEntry) (l : List RedEntry) : List RedEntry :=
  match l with
  | [] => [e]
  | x :: r => if redBefore x e then x :: insertRed e r else e :: x :: r

/-- Sorts entries (R211). -/
def sortRed (l : List RedEntry) : List RedEntry := l.foldl (fun a e => insertRed e a) []

/-- Whether an entry's place still exists: its scratchpad bank has not returned to cache mode for good (R211). The banks
of a team that is swapped out stand in its image, and swaps change no result (R143). -/
def State.redLives (s : State) (e : RedEntry) : Bool :=
  match e.loc with
  | .pa _ => true
  | .spad t b _ => decide ((s.team t).st ≠ .pending) && !s.pastBanks t (b * 32768)

/-- Who applies an entry of a grid: its events stand above every event of every stream (R239). -/
def State.redWho (s : State) (grid : Nat) (e : RedEntry) : Who :=
  { core := some (s.coreOf (teamKey grid e.ix)), time := 0, asid := (s.grid grid).asid, grid := grid, ix := e.ix,
    va := e.va.toNat, owner := .red }

/-- The record of a consumption by an applied entry (R374): it names the lane that issued it. -/
def State.redRec (s : State) (grid : Nat) (e : RedEntry) : FaultRec :=
  ⟨1, 6, 6, e.iaddr, 0, e.group, (s.grid grid).launch.width, 2 ^ e.lane, 0, []⟩

/-- Applies one entry for a grid as one atomic step; its flags are discarded (R211, R222, R239). -/
def State.applyRed (s : State) (grid : Nat) (e : RedEntry) : State :=
  if s.redLives e then
    let who := s.redWho grid e
    let s := s.raiseCore (s.coreOf (teamKey grid e.ix)) (s.maxPts + 1)
    -- an entry sets no tag (R212)
    let tags := (s.grid grid).tags
    let s := (s.atomAt who e.loc e.op e.t e.y 0 e.poison true (teamKey grid e.ix) (s.redRec grid e)).2
    s.setGrid grid { s.grid grid with tags := tags }
  else s

/-- Whether an entry's write must wait (R232, R268, R235, R327). -/
def State.redWaits (s : State) (grid : Nat) (e : RedEntry) : Bool :=
  s.redLives e && (s.mustWait grid true [(e.loc, atomWidth e.t / 8)] || s.standsBehind grid true e.loc)

/-- What applying the next entry comes to: it waits, with what is noted of it, or it is done. An entry at a place of
another chip is sent there and is done when the chip has performed it (R213, R322). -/
def State.stepRed (s : State) (grid : Nat) (e : RedEntry) : Option RedEntry × State :=
  match e.sent with
  | tag + 1 =>
    if s.fab.fwd.any (fun x => decide (x.tag = tag)) then (some e, s) else (none, s)
  | 0 =>
    if s.redWaits grid e then (some e, s)
    else if s.isRemote e.loc then
      let tag := s.fab.nextTag
      let w := { s.redWho grid e with blame := some (teamKey grid e.ix, s.redRec grid e) }
      let s := s.undoLog w e.loc
      let s := (s.touchStore w e.loc).forward w e.loc (atomWidth e.t / 8) true
        (fun tag pa => .fwdAtom tag pa e.op e.t e.y 0 e.poison (s.wantsOld w e.loc))
      (some { e with sent := tag + 1 }, s)
    else (none, s.applyRed grid e)

/-- Whether an entry stands behind an entry for the same bytes of one of the first idx flushes whose entries are not all applied
(R211). -/
def State.redBehind (s : State) (idx grid : Nat) (e : RedEntry) : Bool :=
  (s.releases.take idx).any (fun r => decide (r.kind.grid = grid) &&
    r.entries.any (fun x => overlaps x.loc (atomWidth x.t / 8) e.loc (atomWidth e.t / 8)))

/-- Applies entries of a flush, with idx flushes before it, in order up to the first that waits; answers the rest (R211,
R305). -/
def State.applyReds (s : State) (idx grid : Nat) (es : List RedEntry) : List RedEntry × State :=
  match es with
  | [] => ([], s)
  | e :: r =>
    if s.redBehind idx grid e then (e :: r, s)
    else
      match s.stepRed grid e with
      | (some e, s) => (e :: r, s)
      | (none, s) => State.applyReds s idx grid r

/-! ## The sequencer's store buffer (R238) -/

/-- Puts a run before others, as one with the first of them where it goes on in the same line. -/
def joinRun (l : Loc) (n : Nat) (r : List (Loc × Nat)) : List (Loc × Nat) :=
  match r with
  | (m, k) :: rest => if m = l.plus n ∧ tagKey m = tagKey l then (l, n + k) :: rest else (l, n) :: (m, k) :: rest
  | [] => [(l, n)]

/-- The pieces of buffered bytes of one store. -/
def bufRuns (bs : List BufByte) : List (Loc × Nat) :=
  match bs with
  | [] => []
  | b :: r => joinRun b.loc 1 (bufRuns r)

/-- The stores held in a buffer, by number, in program order. -/
def bufStores (buf : List BufByte) : List Nat := (buf.map (·.store)).eraseDups

/-- The bytes of one buffered store. -/
def bufOf (buf : List BufByte) (n : Nat) : List BufByte := buf.filter (fun b => decide (b.store = n))

/-- The buffered stores, of these numbers in program order, that join where those that a test names do: an earlier store
under a later one that joins goes with it (R238). -/
def joining (buf : List BufByte) (p : BufByte → Bool) (ns : List Nat) : List Nat :=
  match ns with
  | [] => []
  | n :: r =>
    let later := joining buf p r
    if (bufOf buf n).any (fun b => p b || later.any (fun m => (bufOf buf m).any (fun c => decide (c.loc = b.loc)))) then n :: later
    else later

/-- Whether a buffered store must wait at its lines (R232, R235, R268). -/
def State.bufWaits (s : State) (tk : Nat) (runs : List (Loc × Nat)) : Bool :=
  s.mustWait (keyGrid tk) true runs || runs.any (fun r => s.standsBehind (keyGrid tk) true r.1)

/-- Joins buffered stores in program order, up to the first that must wait; answers the numbers of those that joined. -/
def State.joinStores (s : State) (tk : Nat) (buf : List BufByte) (ns : List Nat) : List Nat × State :=
  match ns with
  | [] => ([], s)
  | n :: r =>
    let bs := bufOf buf n
    let runs := bufRuns bs
    if s.bufWaits tk runs then ([], s)
    else
      let x := State.joinStores (s.storeRuns (s.whoOf tk) 0 runs (bs.map (·.val)) false false) tk buf r
      (n :: x.1, x.2)

/-- Joins the buffered stores that a test names, in program order, to the global order; from one that must wait on they stay
(R238, R268). -/
def State.drainIf (s : State) (tk : Nat) (p : BufByte → Bool) : State :=
  let buf := (s.team tk).seq.sbuf
  let x := s.joinStores tk buf (joining buf p (bufStores buf))
  x.2.setSeq tk { (x.2.team tk).seq with sbuf := buf.filter (fun b => !x.1.contains b.store) }

/-- Joins every buffered store, as at FENCE.C (R238). -/
def State.drainAll (s : State) (tk : Nat) : State := s.drainIf tk (fun _ => true)

end Sys2Proof.Machine
end

