-- ==== Sys2Proof/Machine/Operands.lean ====
section
/-! DEFINITION. The operand forms of register-only lane instructions: element by element over one, two or three
sources, with the poison rule of R179, and the cross-lane reads of R193. -/

namespace Sys2Proof.Machine

/-- Applies f to each sub-element of width w of x (R178). -/
def elems1 (w : Nat) (f : Nat → Nat × Flags) (x : Word) : Word × Flags :=
  let o := packElems w (64 / w) (fun i => f (subElem x i w))
  (BitVec.ofNat 64 o.1, o.2)

/-- Applies f to each pair of sub-elements (R178). -/
def elems2 (w : Nat) (f : Nat → Nat → Nat × Flags) (x y : Word) : Word × Flags :=
  let o := packElems w (64 / w) (fun i => f (subElem x i w) (subElem y i w))
  (BitVec.ofNat 64 o.1, o.2)

/-- Applies f to each triple of sub-elements (R178). -/
def elems3 (w : Nat) (f : Nat → Nat → Nat → Nat × Flags) (x y z : Word) : Word × Flags :=
  let o := packElems w (64 / w) (fun i => f (subElem x i w) (subElem y i w) (subElem z i w))
  (BitVec.ofNat 64 o.1, o.2)

/-- One source register: v(d) := f v(a), poisoned as a is (R179). -/
def unary (s : State) (len d a : Nat) (f : Word → Word × Flags) : Out :=
  laneOp s len [d, a] (fun r _ _ l =>
    let x := l.reg r.trap a
    let o := f x.val
    { regs := [(d, ⟨o.1, x.poison⟩)], flags := o.2 })

/-- Two source registers: v(d) := f v(a) v(b), poisoned when either is (R179). -/
def binary (s : State) (len d a b : Nat) (f : Word → Word → Word × Flags) : Out :=
  laneOp s len [d, a, b] (fun r _ _ l =>
    let x := l.reg r.trap a
    let y := l.reg r.trap b
    let o := f x.val y.val
    { regs := [(d, ⟨o.1, x.poison || y.poison⟩)], flags := o.2 })

/-- Three source registers. -/
def ternary (s : State) (len d a b c : Nat) (f : Word → Word → Word → Word × Flags) : Out :=
  laneOp s len [d, a, b, c] (fun r _ _ l =>
    let x := l.reg r.trap a
    let y := l.reg r.trap b
    let z := l.reg r.trap c
    let o := f x.val y.val z.val
    { regs := [(d, ⟨o.1, x.poison || y.poison || z.poison⟩)], flags := o.2 })

/-- A comparison of sub-elements 0 into a predicate, poisoned when a source is (R166, R184). -/
def compare2 (s : State) (p a b : Nat) (f : Word → Word → Bool × Flags) : Out :=
  laneOp s 4 [a, b] (fun r _ _ l =>
    let x := l.reg r.trap a
    let y := l.reg r.trap b
    let o := f x.val y.val
    { preds := [(p, o.1, x.poison || y.poison)], flags := o.2 })

/-- Width and signedness of an integer type code (R70). -/
def intWidth (t : BitVec 3) : Nat := 8 * 2 ^ (t.toNat % 4)
def intSigned (t : BitVec 3) : Bool := decide (t.toNat < 4)

/-- A result without flags. -/
def noFlag (x : Nat) : Nat × Flags := (x, 0)

/-- A 12-bit immediate, sign-extended (R74). -/
def imm12 (i : BitVec 12) : Word := i.signExtend 64

/-! ## Cross-lane reads -/

/-- The active lanes of the group that a lane belongs to, in ascending order (R161, R193). -/
def Run.peers (r : Run) (w n : Nat) : List Nat := r.lanes.filter (fun m => decide (m / w = n / w))

/-- A register of lane k (taken modulo the width) of the group of lane n, read as the run reads it (R193). -/
def Team.groupReg (t : Team) (r : Run) (w n k a : Nat) : VReg := (t.lane (n / w * w + k % w)).reg r.trap a

/-- A lane instruction that reads other lanes: f sees the run, the width W and the team before it. -/
def crossOp (s : State) (fields : List Nat) (f : Run → Nat → Team → Nat → Lane → LaneOut) : Out :=
  onRunRegs s fields (fun r s =>
    finishLanes s r 4 (fun n l => f r (s.gridOf r.team).launch.width (s.team r.team) n l))

end Sys2Proof.Machine
end

