-- ==== Sys2Proof/Machine/Barrier.lean ====
section
/-! DEFINITION. Barriers (R303 to R312): arrivals, releases with the deferred reductions they apply, the barrier
instructions of both streams, and the checkpoints that a grid-barrier release writes (R371). -/

namespace Sys2Proof.Machine

/-! ## The numbered barriers of a team -/

def Team.bar (t : Team) (b : Nat) : Barrier := SMap.get {} t.bars b
def Team.setBar (t : Team) (b : Nat) (x : Barrier) : Team := { t with bars := SMap.set {} t.bars b x }

/-- Lanes launched in a team (R157). -/
def State.lanesOf (s : State) (tk : Nat) : List Nat := List.range (s.gridOf tk).launch.lanes

/-- Whether the sequencer waits at a barrier for a phase. -/
def Sequencer.waitsBar (q : Sequencer) (b p : Nat) : Bool := decide (q.wait = some (.bar b p))

/-- Whether R304 is met in automatic mode: an arrival, and every live party arrived or waits. -/
def State.autoMet (s : State) (tk b : Nat) : Bool :=
  let t := s.team tk
  let x := t.bar b
  decide (x.expected = 0 ∧ 1 ≤ x.arr) && !x.releasing &&
    (t.seq.exited || x.seqArr || t.seq.waitsBar b x.phase) &&
    (s.lanesOf tk).all (fun n =>
      let l := t.lane n
      l.exited || l.arrived.getLsbD b || decide (l.wait = some (b, x.phase)))

/-- Clears an arrival bit of every lane. -/
def Team.clearArrived (t : Team) (b : Nat) : Team :=
  { t with lanes := SMap.mapV {} t.lanes (fun _ l => { l with arrived := l.arrived &&& ~~~(BitVec.ofNat 16 (2 ^ b)) }) }

/-- Steps 2 to 4 of a release (R305), and the entries that step 1 takes. -/
def Team.beginRelease (t : Team) (b : Nat) : Team :=
  let x := t.bar b
  let x := { x with
    phase := (x.phase + 1) % 2 ^ 24, arr := 0, seqArr := false, pend := 0, st := .idle, releasing := true
    expected := if x.st = .arming then x.pend else x.expected }
  { (t.clearArrived b).setBar b x with phases := t.phases + 1, red := [] }

/-- Step 5 (R305): ends the waits for a phase of a barrier. -/
def Team.endWaits (t : Team) (b p : Nat) : Team :=
  let t := { t with lanes := SMap.mapV {} t.lanes (fun _ l => if l.wait = some (b, p) then { l with wait := none } else l) }
  if t.seq.waitsBar b p then { t with seq := { t.seq with wait := none }.advance 4 } else t

/-! ## Checkpoints (R371) -/

/-- Whether a location key lies in a team's scratchpad. -/
def inSpad (tk k : Nat) : Bool := decide (spadKey tk 0 0 ≤ k ∧ k < spadKey (tk + 1) 0 0)

/-- The checkpoint image of a team: it waits for a place again (R375). -/
def State.checkpoint (s : State) (tk : Nat) : Checkpoint :=
  ⟨tk, { s.team tk with st := .swapped }, s.mem.filter (fun e => inSpad tk e.1),
    (s.lines.filter (fun e => decide (spadKey tk 0 0 / 64 ≤ e.1 ∧ e.1 < spadKey (tk + 1) 0 0 / 64) && e.2.poison)).map (·.1),
    s.parked.filter (fun p => decide (p.team = tk)), s.releases.filter (fun r => decide (r.kind.team = some tk))⟩

/-- Teams of a grid, as keys, that have been dispatched. -/
def State.teamsOf (s : State) (grid : Nat) : List Nat := (s.teams.map (·.1)).filter (fun k => decide (keyGrid k = grid))

/-- Closes the open interval and opens the next, from checkpoint images of the teams that live (R371, R373). A consumption by
one of the release's entries comes first: the interval rolls back. -/
def State.nextInterval (s : State) (grid : Nat) : State :=
  let g := s.grid grid
  if g.interval.st = .rolling then s else
  let live := (s.teamsOf grid).filter (fun k => decide ((s.team k).st ≠ .retired))
  s.setGrid grid { g with interval := { st := .opened, first := false, images := live.map s.checkpoint, deferred := g.deferred } }

/-! ## Releases -/

/-- The streams that a release ends the waits of go on above every event before it (R239). -/
def State.raiseTeams (s : State) (tks : List Nat) : State :=
  let m := s.maxPts
  tks.foldl (fun (s : State) tk => s.raiseCore (s.coreOf tk) m) s

/-- The last steps of a release: waits end, a trace record, a new span and interval at GBAR (R305, R310, R371). -/
def State.endRelease (s : State) (r : Release) : State :=
  match r.kind with
  | .bar tk b =>
    let t := (s.team tk).endWaits b r.phase
    let more := s.releases.any (fun x => decide (x.kind = r.kind))
    (s.setTeam tk (t.setBar b { t.bar b with releasing := more })).traceEvent tk 4
  | .cbar g c =>
    let q := (s.grid g).q
    let s := s.raiseTeams ((s.teamsOf g).filter (fun k => decide (keyIx k / q = c)))
    { s with teams := SMap.mapV {} s.teams (fun k t =>
      if keyGrid k = g ∧ keyIx k / q = c ∧ t.seq.wait = some (.cbar r.phase) then
        { t with seq := { t.seq with wait := none }.advance 4 }
      else t) }
  | .gbar g =>
    let s := s.raiseTeams (s.teamsOf g)
    let s : State := { s with teams := SMap.mapV {} s.teams (fun k t =>
      if keyGrid k = g ∧ t.seq.wait = some (.gbar r.phase) then
        { t with seq := { t.seq with wait := none }.advance 4 }
      else t) }
    (s.setGrid g { s.grid g with tags := [] }).nextInterval g
  | .exit _ => s

/-- Goes on with the release at an index: its entries are applied up to one that waits; with none left, and no
earlier release of the same barrier, it ends (R305). -/
def State.progressRelease (s : State) (idx : Nat) : State :=
  match s.releases.drop idx with
  | [] => s
  | r :: _ =>
    let x := s.applyReds idx r.kind.grid r.entries
    let s := x.2
    if x.1.isEmpty && !(s.releases.take idx).any (fun y => decide (y.kind = r.kind)) then
      { s with releases := s.releases.eraseIdx idx }.endRelease r
    else { s with releases := s.releases.set idx { r with entries := x.1 } }

/-- A release begins: it is one event where no entry waits (R305). -/
def State.startRelease (s : State) (r : Release) : State :=
  { s with releases := s.releases ++ [r] }.progressRelease s.releases.length

/-- The entries that a flush point of a team applies; in a DET grid they move to the grid's deferred set (R212). -/
def State.flushTeam (s : State) (tk : Nat) (es : List RedEntry) : List RedEntry × State :=
  let g := s.gridOf tk
  if g.rcd.det then ([], s.setGrid (keyGrid tk) { g with deferred := g.deferred ++ es }) else (sortRed es, s)

/-- Releases the current phase of a numbered barrier (R305). -/
def State.releaseBar (s : State) (tk b : Nat) : State :=
  let t := s.team tk
  let x := s.flushTeam tk t.red
  (x.2.setTeam tk (t.beginRelease b)).startRelease ⟨.bar tk b, (t.bar b).phase, x.1⟩

/-- Tests R304 in automatic mode and releases. -/
def State.testAuto (s : State) (tk b : Nat) : State := if s.autoMet tk b then s.releaseBar tk b else s

/-- Counts one arrival: of a lane, or of the sequencer. In automatic mode a second arrival of a party changes
nothing (R304). -/
def Team.arrive (t : Team) (b : Nat) (lane : Option Nat) : Team :=
  let x := t.bar b
  let before := match lane with
    | some n => (t.lane n).arrived.getLsbD b
    | none => x.seqArr
  if x.expected = 0 ∧ before = true then t
  else
    let x := { x with
      arr := x.arr + 1
      st := if x.st = .idle then .arriving else x.st
      seqArr := x.seqArr || decide (lane = none) }
    let t := t.setBar b x
    match lane with
    | some n => t.setLane n { t.lane n with arrived := (t.lane n).arrived ||| BitVec.ofNat 16 (2 ^ b) }
    | none => t

/-- One arrival, with the wait of a BARAW, and the release it may bring (R304, R307). -/
def State.arriveOne (s : State) (tk b : Nat) (lane : Option Nat) (waits : Bool) : State :=
  let t := s.team tk
  let p := (t.bar b).phase
  let t := t.arrive b lane
  let t := if waits then
      (match lane with
        | some n => t.setLane n { t.lane n with wait := some (b, p) }
        | none => { t with seq := { t.seq with wait := some (.bar b p) } })
    else t
  let s := s.setTeam tk t
  let x := t.bar b
  if x.expected ≠ 0 then (if x.expected ≤ x.arr then s.releaseBar tk b else s) else s.testAuto tk b

/-! ## Cluster and grid barriers (R309, R310) -/

/-- Whether a team counts as exited for CBAR and GBAR. -/
def Team.seqGone (t : Team) : Bool := t.seq.exited || decide (t.st = .retired)

/-- Tests the cluster barrier of a cluster and releases it. -/
def State.testCbar (s : State) (grid cluster : Nat) : State :=
  let g := s.grid grid
  let x := SMap.get (0, []) g.cbar cluster
  let n := g.clusterSize cluster
  if !x.2.isEmpty && (List.range n).all (fun r => x.2.contains r || (s.team (teamKey grid (cluster * g.q + r))).seqGone) then
    (s.setGrid grid { g with cbar := SMap.set (0, []) g.cbar cluster (x.1 + 1, []) }).startRelease ⟨.cbar grid cluster, x.1, []⟩
  else s

/-- Tests the grid barrier of a grid: every team has arrived or its sequencer has exited, here or on the chip that the
grid's context moved from (R104). -/
def State.gbarMet (s : State) (grid : Nat) : Bool :=
  let g := s.grid grid
  let ks := s.teamsOf grid
  let gone := ks.filter (fun k => (s.team k).seqGone && !g.gbarArr.contains (keyIx k))
  let away := g.retired - (ks.filter (fun k => decide ((s.team k).st = .retired))).length
  !g.gbarArr.isEmpty && decide (g.gbarArr.length + gone.length + away = g.size)

/-- Every buffered entry of a grid's teams, and the state without them. -/
def State.takeReds (s : State) (grid : Nat) : List RedEntry × State :=
  let es := (s.teamsOf grid).flatMap (fun k => (s.team k).red)
  (es, { s with teams := SMap.mapV {} s.teams (fun k t => if keyGrid k = grid then { t with red := [] } else t) })

/-- Releases the grid barrier: every team's entries and the deferred set are applied in order (R310, R212). -/
def State.testGbar (s : State) (grid : Nat) : State :=
  if s.gbarMet grid then
    let x := s.takeReds grid
    let g := x.2.grid grid
    (x.2.setGrid grid { g with gbarPhase := g.gbarPhase + 1, gbarArr := [], deferred := [] }).startRelease
      ⟨.gbar grid, g.gbarPhase, sortRed (g.deferred ++ x.1)⟩
  else s

/-! ## Exits -/

/-- A party of a team has exited: R304 is tested again (R306), and the team enters exiting when every stream has
exited (R136, R155). -/
def State.afterExit (s : State) (tk : Nat) (seqExit : Bool) : State :=
  let s := (List.range 16).foldl (fun s b => s.testAuto tk b) s
  let s := if seqExit then (s.testCbar (keyGrid tk) ((s.gridOf tk).clusterOf (keyIx tk))).testGbar (keyGrid tk) else s
  let t := s.team tk
  if t.st = .running ∧ t.seq.exited = true ∧ (s.lanesOf tk).all (fun n => (t.lane n).exited) = true then
    s.setTeam tk { t with st := .exiting }
  else s

/-! ## The instructions -/

/-- Advances the lanes of a run past a four-byte instruction. -/
def State.passLanes (s : State) (r : Run) : State :=
  let t := s.team r.team
  s.setTeam r.team (t.updateLanes r.lanes (fun _ l => { l with pc := l.pc + 4 }))

/-- BARA and BARAW in lanes: arrivals in ascending lane order, one event (R303, R307). -/
def laneArrive (s : State) (b : Nat) (waits : Bool) : Out :=
  onRun s (fun r s => .next (r.lanes.foldl (fun s n => s.arriveOne r.team b (some n) waits) (s.passLanes r)))

/-- BARA (R307). -/
def execBara (b : BitVec 4) (s : State) : Out := laneArrive s b.toNat false
/-- BARAW (R307). -/
def execBaraw (b : BitVec 4) (s : State) : Out := laneArrive s b.toNat true
/-- BARW: waits for the next release of the phase in force (R308). -/
def execBarw (b : BitVec 4) (s : State) : Out :=
  onRun s (fun r s =>
    let s := s.passLanes r
    let t := s.team r.team
    let p := (t.bar b.toNat).phase
    .next ((s.setTeam r.team (t.updateLanes r.lanes (fun _ l => { l with wait := some (b.toNat, p) }))).testAuto r.team b.toNat))

/-- BARI: the expected count, at once where idle, else pending (R306). -/
def execBari (c : BitVec 11) (b : BitVec 4) (s : State) : Out :=
  onSeq s (fun tk _ s =>
    let t := s.team tk
    let x := t.bar b.toNat
    let x := if x.st = .idle then { x with expected := c.toNat } else { x with st := .arming, pend := c.toNat }
    .next ((s.setTeam tk (t.setBar b.toNat x)).seqDone tk id))

/-- A sequencer barrier with its fence bit: buffered window stores join first, and the instruction waits for any
that cannot (R238). -/
def fenced (s : State) (f : BitVec 1) (g : Nat → State → Out) : Out :=
  onSeq s (fun tk _ s =>
    if f = 1 then
      let s := s.drainAll tk
      if (s.team tk).seq.sbuf.isEmpty then g tk s else .next (s.seqStay tk)
    else g tk s)

/-- BARA of the sequencer: arrives and continues. -/
def execBarBara (f : BitVec 1) (b : BitVec 4) (s : State) : Out :=
  fenced s f (fun tk s => .next ((s.seqDone tk id).arriveOne tk b.toNat none false))

/-- Resumes a held wait whose instruction issues again after TRET (R396): the wait goes on for the same phase, or
is over. None where no wait is held here. -/
def State.resumeHeld (s : State) (tk : Nat) : Option State :=
  let q := (s.team tk).seq
  match q.held with
  | none => none
  | some (w, pc) =>
    if pc = q.pc ∧ q.trap = false then
      let ended : Bool := match w with
        | .bar b p => decide (((s.team tk).bar b).phase ≠ p) && !s.releases.any (fun r => decide (r.kind = .bar tk b ∧ r.phase = p))
        | .cbar p => decide ((SMap.get (0, []) (s.gridOf tk).cbar ((s.gridOf tk).clusterOf (keyIx tk))).1 ≠ p)
        | .gbar p => decide ((s.gridOf tk).gbarPhase ≠ p) && !s.releases.any (fun r => decide (r.kind = .gbar (keyGrid tk) ∧ r.phase = p))
        | _ => true
      let s := s.setSeq tk { q with held := none }
      some (if ended then s.seqDone tk id else s.setSeq tk { (s.team tk).seq with wait := some w })
    else none

/-- BARW of the sequencer (R308). -/
def execBarBarw (f : BitVec 1) (b : BitVec 4) (s : State) : Out :=
  fenced s f (fun tk s =>
    match s.resumeHeld tk with
    | some s => .next (s.testAuto tk b.toNat)
    | none =>
      let t := s.team tk
      .next ((s.setSeq tk { t.seq with wait := some (.bar b.toNat (t.bar b.toNat).phase) }).testAuto tk b.toNat))

/-- BARAW of the sequencer. -/
def execBarBaraw (f : BitVec 1) (b : BitVec 4) (s : State) : Out :=
  fenced s f (fun tk s =>
    match s.resumeHeld tk with
    | some s => .next (s.testAuto tk b.toNat)
    | none => .next (s.arriveOne tk b.toNat none true))

/-- CBAR (R309). -/
def execCbar (s : State) : Out :=
  onSeq s (fun tk q s =>
    match s.resumeHeld tk with
    | some s => .next s
    | none =>
      let k := keyGrid tk
      let g := s.grid k
      let c := g.clusterOf (keyIx tk)
      let x := SMap.get (0, []) g.cbar c
      let s := s.setGrid k { g with cbar := SMap.set (0, []) g.cbar c (x.1, if x.2.contains (g.rankOf (keyIx tk)) then x.2 else x.2 ++ [g.rankOf (keyIx tk)]) }
      .next ((s.setSeq tk { q with wait := some (.cbar x.1) }).testCbar k c))

/-- GBAR: a party arrives once in a phase (R309, R310). -/
def execGbar (s : State) : Out :=
  onSeq s (fun tk q s =>
    match s.resumeHeld tk with
    | some s => .next s
    | none =>
      let k := keyGrid tk
      let g := s.grid k
      let s := s.setGrid k { g with gbarArr := if g.gbarArr.contains (keyIx tk) then g.gbarArr else g.gbarArr ++ [keyIx tk] }
      .next ((s.setSeq tk { q with wait := some (.gbar g.gbarPhase) }).testGbar k))

/-- A release whose entry waited goes on (R305): the operand names it. After its end, arrivals made meanwhile are
tested in automatic mode. -/
def execReleaseWaitEnd (s : State) : Out :=
  match s.turn with
  | .event _ (.nat idx) =>
    match s.releases.drop idx with
    | [] => .next s
    | r :: _ =>
      let s := s.progressRelease idx
      match r.kind with
      | .bar tk b => .next (s.testAuto tk b)
      | _ => .next s
  | _ => .next s

end Sys2Proof.Machine
end

