-- ==== Sys2Proof/Machine/Engine.lean ====
section
/-! DEFINITION. What the engines share: the places a command names, its claims and unread sources (R233 to R235),
reading its sources, the single writes and arrival updates it makes (R236, R250, R251), its errors (R257), and
the three PUSH queues (R152, R217, R218). -/

namespace Sys2Proof.Machine

/-! ## Command words (R253, R358) -/

def Cmd.word (c : Cmd) (i : Nat) : Nat := (c.words.getD i 0).toNat
def Cmd.op (c : Cmd) : Nat := c.word 0 % 256
def Cmd.count (c : Cmd) : Nat := c.word 0 / 2 ^ 32
def Cmd.dst (c : Cmd) : Nat := c.word 1
def Cmd.src (c : Cmd) : Nat := c.word 2
def Cmd.arriveAddr (c : Cmd) : Nat := c.word 3
/-- Element size of GATHER and SCATTER. -/
def Cmd.esize (c : Cmd) : Nat := 2 ^ (c.word 0 / 2 ^ 17 % 8)
/-- Whether PLANES goes from packed elements to planes. -/
def Cmd.toPlanes (c : Cmd) : Bool := decide (c.word 0 / 2 ^ 16 % 2 = 0)
def Cmd.fmt (c : Cmd) : Nat := c.word 0 / 2 ^ 8 % 256
/-- EXTENT of GATHER and SCATTER. -/
def Cmd.extent (c : Cmd) : Nat := c.word 5 % 2 ^ 32
/-- ROWS of COPY2D. -/
def Cmd.rows (c : Cmd) : Nat := c.word 6 % 2 ^ 32

/-- An address modulo 2^64. -/
def addr64 (a : Nat) : Nat := a % 2 ^ 64
/-- The start of row r under a signed stride. -/
def rowStart (base stride r : Nat) : Nat := addr64 (base + r * stride)

/-- Encoding width, holder width and place in the holder of a plane format code (R214). -/
def planeShape (f : Nat) : Nat × Nat × Nat :=
  match f with
  | 0 => (64, 64, 0)
  | 1 => (32, 32, 0)
  | 2 => (16, 16, 0)
  | 3 => (16, 16, 0)
  | 4 => (19, 32, 13)
  | 5 => (8, 8, 0)
  | 6 => (8, 8, 0)
  | 7 => (6, 8, 0)
  | 8 => (6, 8, 0)
  | 9 => (4, 4, 0)
  | 0x0A => (32, 32, 0)
  | 0x0B => (16, 16, 0)
  | 0x0C => (8, 8, 0)
  | 0x0D => (8, 8, 0)
  | 0x0E => (4, 4, 0)
  | 0x0F => (4, 4, 0)
  | 0x10 => (2, 2, 0)
  | 0x11 => (1, 1, 0)
  | _ => (4, 4, 0)

/-- Bytes of the plane side and of the packed side of a PLANES command (R255). -/
def Cmd.planeBytes (c : Cmd) : Nat := (c.count + 63) / 64 * 8 * (planeShape c.fmt).1
def Cmd.packedBytes (c : Cmd) : Nat := (c.count * (planeShape c.fmt).2.1 + 7) / 8

/-! ## Agents -/

/-- Who a command is for the memory system: an engine with the push's logical time (R228, R233). -/
def State.cmdWho (s : State) (c : Cmd) : Who :=
  { core := none, time := c.pts, asid := s.asidOf c.team, grid := keyGrid c.team, ix := keyIx c.team, cmd := some c.num,
    owner := .engine c.num }

/-- A command as it stands in its queue now: its logical time rises as it accesses memory (R229). -/
def State.cmdNow (s : State) (c : Cmd) : Cmd :=
  match (s.commands ++ s.dsp.pg).find? (fun d => decide (d.num = c.num)) with
  | some d => { c with pts := d.pts }
  | none => c

/-- The record of a consumption by an engine write (R374). -/
def State.cmdRec (s : State) (c : Cmd) : FaultRec :=
  match c.lane with
  | some n => s.consumeRec (.lane c.team n) c.iaddr
  | none => s.consumeRec (.seq c.team) c.iaddr

/-! ## Reading sources -/

/-- A source byte: the bits of it that count, its value, whether its line is poisoned, and the error that reading
it met (code, cause, address). -/
structure SrcByte where
  mask : Nat := 255
  val : Nat := 0
  poison : Bool := false
  err : Option (Nat × Nat × Nat) := none
  deriving DecidableEq, Repr

/-- Loads the line pieces of a stretch, each byte with its own line's poison. -/
def State.readPieces (s : State) (w : Who) (ps : List (Loc × Nat)) : List SrcByte × State :=
  match ps with
  | [] => ([], s)
  | (l, n) :: r =>
    let x := s.loadPiece w l n
    let y := State.readPieces x.2 w r
    (x.1.1.map (fun b => { val := b.toNat, poison := x.1.2 }) ++ y.1, y.2)

/-- What a checked read of a command waits for before it can perform: a frame that is away, or another chip's answers,
which are asked for (R322, R327). -/
def State.readHold (s : State) (w : Who) (ps : List (Loc × Nat)) : Option PageWait × State :=
  if ps.any (fun p => s.awayNow p.1) then (some { b := .access w.grid false ps }, s)
  else
    let s := s.askRemote w ps
    (if ps.any (fun p => s.awaits w.owner p.1 p.2) then some { b := .none } else none, s)

/-- Reads n source bytes at an address for a command (R234, R257): a fault marks them with its error, and a wait
is reported. -/
def State.readStretch (s : State) (c : Cmd) (va n : Nat) : List SrcByte × Option PageWait × State :=
  let w := s.cmdWho c
  let x := s.checkAccess w c.core .load true true true (addr64 va) n
  match x.1 with
  | .fail f => (List.replicate n { err := some (if f.cls = 5 then 4 else 2, f.code, if f.cls = 5 then f.pages.headD f.addr else f.addr) }, none, x.2)
  | .wait p => (List.replicate n {}, some p, x.2)
  | .ok runs =>
    let h := x.2.readHold w (linePieces runs)
    match h.1 with
    | some p => (List.replicate n {}, some p, h.2)
    | none =>
      let y := h.2.readPieces w (linePieces runs)
      (y.1, none, y.2)

/-- Reads stretches in order. -/
def State.readStretches (s : State) (c : Cmd) (xs : List (Nat × Nat)) : List SrcByte × Option PageWait × State :=
  match xs with
  | [] => ([], none, s)
  | x :: r =>
    let a := s.readStretch c x.1 x.2
    let b := State.readStretches a.2.2 c r
    (a.1 ++ b.1, a.2.1.or b.2.1, b.2.2)

/-- The state before reads that must wait, with the forwarded reads that they have sent since (R322). -/
def State.asked (s t : State) : State :=
  { s with fab := { t.fab with fwd := s.fab.fwd ++ t.fab.fwd.filter (fun x => decide (s.fab.nextTag ≤ x.tag)) } }

/-- Cuts n bytes at va at 64-byte boundaries. -/
def lineCuts (fuel va n : Nat) : List (Nat × Nat) :=
  match fuel with
  | 0 => []
  | k + 1 =>
    if n = 0 then []
    else
      let m := Nat.min n (64 - va % 64)
      (va, m) :: lineCuts k (va + m) (n - m)

/-- The source bytes of a copy, read in the stretches that destination lines take (R257). -/
def copyStretches (dst src n : Nat) : List (Nat × Nat) :=
  (lineCuts (n / 64 + 2) dst n).map (fun c => (addr64 (src + (c.1 - dst)), c.2))

/-- What a command does at one destination line: the line's address over 64, and the items. -/
structure PlanUnit where
  line : Nat
  items : List PlanItem
  deriving DecidableEq, Repr

/-- The error with the lowest address among bytes of one line (R257). -/
def lowestErr (bs : List SrcByte) : Option (Nat × Nat × Nat) :=
  (bs.filterMap (·.err)).foldl (fun m e => match m with
    | none => some e
    | some x => if e.2.2 < x.2.2 then some e else some x) none

/-- The units that write a run of destination bytes: one write and one count for each line it touches (R251); an
error among a line's bytes stops there. -/
def lineUnits (fuel va : Nat) (bs : List SrcByte) : List PlanUnit :=
  match fuel with
  | 0 => []
  | k + 1 =>
    match bs with
    | [] => []
    | b :: r =>
      let m := 64 - va % 64
      let here := (b :: r).take m
      let rest := lineUnits k (va + m) ((b :: r).drop m)
      match lowestErr here with
      | some e => [⟨addr64 va / 64, [.fail e.1 e.2.1 e.2.2]⟩]
      | none =>
        let n := (here.filter (fun x => decide (x.mask ≠ 0))).length
        if n = 0 then rest
        else
          ⟨addr64 va / 64, [.write (addr64 va) (here.map (fun x => (x.mask, x.val)))
            (here.any (fun x => decide (x.mask ≠ 0) && x.poison)) 0, .count n]⟩ :: rest

/-- The units of one destination run. -/
def runUnits (va : Nat) (bs : List SrcByte) : List PlanUnit := lineUnits (bs.length / 64 + 2) va bs

/-- Inserts a unit behind those of its line and of lower ones. -/
def insertUnit (u : PlanUnit) (us : List PlanUnit) : List PlanUnit :=
  match us with
  | [] => [u]
  | x :: r => if u.line < x.line then u :: x :: r else x :: insertUnit u r

/-- Destination lines are written in ascending address, and the writes of one line in the order of their rows or elements
(R254). -/
def sortUnits (us : List PlanUnit) : List PlanUnit := us.foldl (fun a u => insertUnit u a) []

/-- A plan ends at its first error. -/
def cutPlan (xs : List PlanItem) : List PlanItem :=
  match xs with
  | [] => []
  | .fail a b c :: _ => [.fail a b c]
  | x :: r => x :: cutPlan r

/-- The items of units, in the order of their writes. -/
def planOf (us : List PlanUnit) : List PlanItem := cutPlan ((sortUnits us).flatMap (·.items))

/-! ## Places, claims and unread sources (R234, R235) -/

/-- The stretches of regions that a command may access, where their places are known: a page that is to be regenerated
lies at its entry's frame (R330). -/
def State.regionRuns (s : State) (c : Cmd) (k : AccKind) (rs : List (Nat × Nat)) : List (Loc × Nat) :=
  rs.flatMap (fun r => (cutPages (r.2 / 4096 + 2) r.1 r.2).filterMap (fun p =>
    match (s.checkChunk c.team c.core k true true r.1 r.2 p).1 with
    | .ok l n => some (l, n)
    | .wait ⟨.regen _ _, _, frame⟩ => some (.pa (frame + p.1 % 4096), p.2)
    | _ => none))

/-- The names of the lines of regions that a command may access (R218, R234, R235). -/
def State.regionLines (s : State) (c : Cmd) (k : AccKind) (rs : List (Nat × Nat)) : List Nat :=
  (lineNames (s.regionRuns c k rs)).eraseDups

/-- The teams whose scratchpad stretches lie in. -/
def spadTeams (runs : List (Loc × Nat)) : List Nat :=
  (runs.filterMap (fun r => match r.1 with
    | .spad t _ _ => some t
    | .pa _ => none)).eraseDups

/-- The owner of a line of device memory gives it up (R232). -/
def State.recall (s : State) (name : Nat) : State :=
  if isFramePa (name * 64) then
    match s.lineKey (.pa (name * 64)) with
    | some k => s.setLine k { s.line k with copies := recalled (s.line k).copies }
    | none => s
  else s

/-- Whether a command numbered n must still wait to read a line that an earlier one has claimed. -/
def State.srcWaits (s : State) (n : Nat) (ks : List Nat) : Bool := ks.any (s.claimedBefore n)

/-- An index of GATHER and SCATTER: sign-extended, modulo EXTENT (R254). -/
def indexOf (extent : Nat) (bs : List SrcByte) : Nat :=
  ((asSigned 32 (leNat (bs.map (fun b => BitVec.ofNat 8 b.val)))) % (extent : Int)).toNat

/-- The index array's values, each with its bytes as read. -/
def State.readIndexes (s : State) (c : Cmd) (k : Nat) : List (List SrcByte) × Option PageWait × State :=
  match k with
  | 0 => ([], none, s)
  | j + 1 =>
    let a := State.readIndexes s c j
    let b := a.2.2.readStretch c (c.word 4 + 4 * j) 4
    (a.1 ++ [b.1], a.2.1.or b.2.1, b.2.2)

/-- The index array's region. -/
def Cmd.indexRegion (c : Cmd) : List (Nat × Nat) := if c.op = 3 ∨ c.op = 4 then [(c.word 4, 4 * c.count)] else []

/-- Whether the elements of a command are not known as it is pushed (R254). -/
def State.ceLoose (s : State) (c : Cmd) : Bool :=
  decide (c.op = 3 ∨ c.op = 4) &&
    (s.srcWaits c.num (s.regionLines c .load c.indexRegion) || (s.readIndexes c c.count).2.1.isSome)

/-- The regions of a copy-engine command: destinations and sources. The elements that an unread index names are
not known; the whole extent stands for them (R254). -/
def State.ceRegions (s : State) (c : Cmd) : List (Nat × Nat) × List (Nat × Nat) :=
  let n := c.count
  let e := c.esize
  match c.op with
  | 1 => ([(c.dst, n)], [(c.src, n)])
  | 2 =>
    ((List.range c.rows).map (fun r => (rowStart c.dst (c.word 5) r, n)),
      (List.range c.rows).map (fun r => (rowStart c.src (c.word 4) r, n)))
  | 5 => ([(c.dst, n)], [])
  | 6 => if c.toPlanes then ([(c.dst, c.planeBytes)], [(c.src, c.packedBytes)]) else ([(c.dst, c.packedBytes)], [(c.src, c.planeBytes)])
  | o =>
    if o = 3 ∨ o = 4 then
      let elems (base : Nat) : List (Nat × Nat) :=
        if !s.ceLoose c then ((s.readIndexes c n).1.map (fun b => indexOf c.extent b)).eraseDups.map (fun j => (addr64 (base + j * e), e))
        else [(base, c.extent * e)]
      if o = 3 then ([(c.dst, n * e)], c.indexRegion ++ elems c.src)
      else (elems c.dst, c.indexRegion ++ [(c.src, n * e)])
    else ([], [])

/-- Element size of an exchange command. -/
def Cmd.xeSize (c : Cmd) : Nat := typeWidth (c.word 0 / 2 ^ 12 % 16) / 8
/-- PEER of an exchange command. -/
def Cmd.peer (c : Cmd) : Nat := c.word 0 / 2 ^ 20 % 2 ^ 12

/-- The regions of an exchange command on a chip whose view has p members (R360). -/
def Cmd.xeRegions (c : Cmd) (chip p : Nat) : List (Nat × Nat) × List (Nat × Nat) :=
  let n := c.count * c.xeSize
  match c.op with
  | 0x11 => ([(c.dst, n)], [(c.src, n)])
  | 0x12 => ([(c.dst, n)], [(c.src, n * p)])
  | 0x13 => ([(c.dst, n * p)], [(c.src, n)])
  | 0x14 => ([(c.dst, n)], if c.peer = chip then [(c.src, n)] else [])
  | 0x15 => ([], [(c.src, n)])
  | 0x16 => ([(c.dst, n)], [])
  | _ => ([], [])

/-! ## Malformed copy-engine commands (R256) -/

/-- Whether an address is a 16-aligned one in a scratchpad bank of the cluster, not in FIFO mode: the arrival
word's place (R250, R256). -/
def State.arrivePlace (s : State) (team a : Nat) : Option Loc :=
  if a % 16 = 0 ∧ windowBase ≤ a then
    match s.checkWindow team .store true a 16 16 with
    | .ok l _ => some l
    | _ => none
  else none

/-- Whether ARRIVE follows R256's rule; a command of the firmware has no team, and so no cluster's scratchpad. -/
def State.arriveOk (s : State) (c : Cmd) : Bool :=
  decide (c.arriveAddr = 0) || (!c.fw && (s.arrivePlace c.team c.arriveAddr).isSome)

/-- Whether a stretch lies whole in scratchpad of the cluster that is not in FIFO mode. -/
def State.inScratch (s : State) (c : Cmd) (va n : Nat) : Bool :=
  decide (windowBase ≤ va ∧ va + n ≤ 2 ^ 64) &&
    (cutPages (n / 4096 + 2) va n).all (fun p => match s.checkWindow c.team .store true p.1 p.2 n with
      | .ok _ _ => true
      | _ => false)

/-- Whether a stretch touches a FIFO bank of the cluster. -/
def State.touchesFifo (s : State) (c : Cmd) (r : Nat × Nat) : Bool :=
  (cutPages (r.2 / 4096 + 2) r.1 r.2).any (fun p =>
    decide (windowBase ≤ p.1 ∧ p.1 < 2 ^ 64) &&
      (match s.windowTeam c.team ((p.1 - windowBase) / 2 ^ 19) with
        | some t => (s.team t).fifoBank ((p.1 - windowBase) % 2 ^ 19 / 32768)
        | none => false))

/-- The addresses that a copy-engine command names itself; with nothing to do at one, the address alone (R256). -/
def Cmd.named (c : Cmd) : List (Nat × Nat) :=
  let n := c.count
  let at_ (a k : Nat) : Nat × Nat := (a, Nat.max 1 k)
  match c.op with
  | 1 => [at_ c.dst n, at_ c.src n]
  | 2 => (List.range c.rows).flatMap (fun r => [at_ (rowStart c.dst (c.word 5) r) n, at_ (rowStart c.src (c.word 4) r) n])
  | 3 => [at_ c.dst (n * c.esize), at_ c.src 1, at_ (c.word 4) (4 * n)]
  | 4 => [at_ c.dst 1, at_ c.src (n * c.esize), at_ (c.word 4) (4 * n)]
  | 5 => [at_ c.dst n]
  | _ => if c.toPlanes then [at_ c.dst c.planeBytes, at_ c.src c.packedBytes] else [at_ c.dst c.packedBytes, at_ c.src c.planeBytes]

/-- Reserved fields that a copy-engine command leaves zero (R253, R254); ESZ, DIR and FMT are, where its OP has no use for them
(DESIGN CHOICE log 89). -/
def Cmd.ceReserved (c : Cmd) : Bool :=
  let w0 := c.word 0
  let hi := decide (w0 / 2 ^ 20 % 2 ^ 12 = 0)
  let esz := decide (w0 / 2 ^ 17 % 8 = 0)
  let dir := decide (w0 / 2 ^ 16 % 2 = 0)
  let fmt := decide (w0 / 2 ^ 8 % 2 ^ 8 = 0)
  let zero (i : Nat) : Bool := decide (c.word i = 0)
  let low32 (i : Nat) : Bool := decide (c.word i / 2 ^ 32 = 0)
  hi && (match c.op with
    | 2 => esz && dir && fmt && low32 6 && zero 7
    | 3 => dir && fmt && low32 5 && zero 6 && zero 7
    | 4 => dir && fmt && low32 5 && zero 6 && zero 7
    | 6 => esz && zero 4 && zero 5 && zero 6 && zero 7
    | _ => esz && dir && fmt && zero 4 && zero 5 && zero 6 && zero 7)

/-- Whether a copy-engine command is well formed (R256). -/
def State.ceOk (s : State) (c : Cmd) : Bool :=
  decide (1 ≤ c.op ∧ c.op ≤ 6) && c.ceReserved &&
    (if c.op = 3 ∨ c.op = 4 then decide (c.word 0 / 2 ^ 17 % 8 ≤ 6 ∧ c.extent ≠ 0) else true) &&
    (if c.op = 2 then decide (c.rows ≠ 0) else true) &&
    (if c.op = 6 then
      let side := if c.toPlanes then c.dst else c.src
      decide (c.fmt ≤ 0x12 ∧ side % 8 = 0) && s.inScratch c side (Nat.max 1 c.planeBytes)
    else true) &&
    s.arriveOk c && !(c.named.any (s.touchesFifo c))

/-! ## Malformed exchange commands (R359, R365) -/

def Cmd.rop (c : Cmd) : Nat := c.word 0 / 2 ^ 8 % 8
def Cmd.ty (c : Cmd) : Nat := c.word 0 / 2 ^ 12 % 16
def Cmd.policy (c : Cmd) : Nat := c.word 0 / 2 ^ 16 % 4
def Cmd.collid (c : Cmd) : Nat := c.word 4 % 2 ^ 32
def Cmd.result (c : Cmd) : Nat := c.word 5

/-- The status of a command pushed without a usable frame view, 0 where there is one (R359). -/
def State.noFrame (s : State) : Nat := if s.fab.isol then 5 else if s.fab.member then 0 else 4

/-- Fields of an exchange command that must be zero, and codes that must be in range (R358, R365). -/
def Cmd.xeFields (c : Cmd) (chip : Nat) : Bool :=
  let w0 := c.word 0
  decide (0x11 ≤ c.op ∧ c.op ≤ 0x16 ∧ c.policy ≠ 3 ∧ c.ty ≤ 11 ∧ c.rop ≤ 5 ∧ (8 ≤ c.ty → c.rop ≤ 2) ∧ w0 / 2 ^ 18 % 4 = 0 ∧
    w0 / 2 ^ 11 % 2 = 0 ∧ c.count ≠ 0 ∧ c.word 4 / 2 ^ 32 = 0 ∧ c.word 6 = 0 ∧ c.word 7 = 0) &&
  decide ((c.op = 0x11 ∨ c.op = 0x12 ∨ c.rop = 0) ∧ (c.op ≤ 0x13 → c.peer = 0) ∧ (c.op = 0x15 → c.dst = 0) ∧
    (c.op = 0x16 → c.src = 0) ∧ (c.op = 0x14 → c.peer ≠ chip → c.src = 0) ∧
    (c.op = 0x15 ∨ c.op = 0x16 → c.peer ≠ chip) ∧ c.result % 16 = 0)

/-- Whether a 16-byte record lies in host memory. -/
def State.recordInHost (s : State) (c : Cmd) : Bool :=
  decide (c.result ≠ 0) &&
    (match (s.checkAccess (s.cmdWho c) c.core .store true true true c.result 16).1 with
      | .ok runs => runs.any (fun r => match r.1 with
          | .pa a => isHostPa a
          | .spad _ _ _ => false)
      | _ => false)

/-- The error of an exchange command at its push, 0 for none (R365). -/
def State.xeCode (s : State) (c : Cmd) : Nat :=
  if !(c.xeFields s.fab.chip && s.arriveOk c && !s.recordInHost c &&
      (decide (s.noFrame ≠ 0 ∨ c.op < 0x14) || s.fab.members.contains c.peer)) then 1
  else if (s.fab.xeq ++ s.fab.xe.map (·.cmd)).any (fun d => decide (d.code = 0 ∧ d.status = 0 ∧ d.collid = c.collid)) then 6
  else 0

/-! ## One write, one count, one error -/

/-- The arrival word's update by n bytes (R251): a single-copy atomic step at its place. -/
def State.arrive (s : State) (w : Who) (l : Loc) (n : Nat) : State :=
  let s := s.detectAt w l
  let bs := s.pieceBytes l 16
  let target := leNat (bs.take 4)
  let count := leNat ((bs.drop 8).take 4)
  let gen := leNat ((bs.drop 12).take 4)
  let x := count + n
  let count' := if target = 0 then x % 2 ^ 32 else x % target
  let gen' := if target = 0 then gen else (gen + x / target) % 2 ^ 32
  s.storePiece w (l.plus 8) (leBytes 8 (count' + gen' * 2 ^ 32)) false false

/-- An engine error in the arrival word: ERR and CAUSE, where ERR is still 0 (R257). -/
def State.arriveErr (s : State) (w : Who) (l : Loc) (code cause : Nat) : State :=
  let s := s.detectAt w l
  if leNat ((s.pieceBytes l 16).drop 4 |>.take 1) = 0 then s.storePiece w (l.plus 4) (leBytes 2 (code + cause * 256)) false false
  else s

/-- Whether an arrival update must wait: a line that another command has claimed or has still to read, or a
captured region (R235, R234, R268). -/
def State.arriveWaits (s : State) (c : Cmd) (l : Loc) : Bool :=
  let k := tagKey l
  s.commands.any (fun d => decide (d.num ≠ c.num) && (d.claims.contains k || d.srcs.contains k)) ||
    s.tileClaims.any (fun d => d.2.contains k) || s.captured l 16

/-- Whether a count must wait for the count of an earlier line write into the same word (R251). -/
def State.countWaits (s : State) (c : Cmd) (l : Loc) : Bool :=
  (s.commands ++ s.dsp.pg).any (fun d => decide (d.num ≠ c.num ∧ 0 < d.wrote ∧ (c.wrote = 0 ∨ d.wrote < c.wrote)) &&
    decide (s.arrivePlace d.team d.arriveAddr = some l))

/-- The next place among the line writes whose counts are still to come. -/
def State.nextWrote (s : State) : Nat := 1 + (s.commands ++ s.dsp.pg).foldl (fun m d => Nat.max m d.wrote) 0

/-- The engine error of a command (R257): the arrival word, then the trap of class 0x0C in the pushing team; a command of
the firmware reports to it (R329). -/
def State.cmdError (s : State) (c : Cmd) (code cause addr : Nat) : State :=
  if c.fw then { s with dsp := { s.dsp with pgErrors := s.dsp.pgErrors ++ [(c.num, code)] } }
  else
    let s := match s.arrivePlace c.team c.arriveAddr with
      | some l => s.arriveErr (s.cmdWho c) l code cause
      | none => s
    raiseAsync s c.team ⟨0x0C, code, BitVec.ofNat 64 addr⟩
      ⟨0, 0x0C, code, (s.team c.team).seq.pc, BitVec.ofNat 64 addr, 0, 0, 0, 0, []⟩

/-- Whether a command's error must wait to be written into its arrival word. -/
def State.errorWaits (s : State) (c : Cmd) : Bool :=
  match if c.fw then none else s.arrivePlace c.team c.arriveAddr with
  | some l => s.arriveWaits c l
  | none => false

/-- Whether an engine's write to a stretch must wait: for an earlier claim, an earlier command that has still to
read the line, a captured region, one captured before its push where the command claims the line, or a frame that is away (R234,
R235, R267, R268, R327). -/
def State.engineWaits (s : State) (c : Cmd) (runs : List (Loc × Nat)) : Bool :=
  (linePieces runs).any (fun p =>
    let k := tagKey p.1
    s.claimedBefore c.num k || s.commands.any (fun d => decide (d.num < c.num) && d.srcs.contains k) ||
      (if c.claims.contains k then s.capturedBefore c.num p.1 p.2 else s.captured p.1 p.2) || s.awayNow p.1)

/-- Records the page that a command waits for. -/
def State.cmdPage (s : State) (num : Nat) (b : Block) : State :=
  match b with
  | .regen a p => s.modCmd num (fun c => { c with page := some (a, p) })
  | _ => s

/-- A command waits: its page is noted, and what it waits for is set going (R322, R330). -/
def State.holdCmd (s : State) (c : Cmd) (p : PageWait) : State := (s.cmdPage c.num p.b).startWait (s.gridOf c.team) p

/-- What came of one item: it waits, it is done, or the command stops at an error; an error that waits stands in its
place. -/
inductive ItemOut where
  | wait (s : State)
  | done (s : State)
  | stop (s : State)
  | late (it : PlanItem) (s : State)
  deriving DecidableEq, Repr

/-- New bytes of a partly written stretch: masked bits of the data, the rest as they stand. -/
def mergeBytes (old : List Byte) (bs : List (Nat × Nat)) : List Byte :=
  match bs with
  | [] => []
  | (m, v) :: r => BitVec.ofNat 8 ((v &&& m) ||| ((old.headD 0).toNat &&& (255 - m))) :: mergeBytes (old.drop 1) r

/-- A command's error: written at once, or later (R257, R268). -/
def State.failItem (s : State) (c : Cmd) (code cause addr : Nat) : ItemOut :=
  if s.errorWaits c then .late (.fail code cause addr) s else .stop (s.cmdError c code cause addr)

/-- The write of a stretch within one line at its places (R235, R243): an error in a line that keeps some of its bits is
found first. At another chip's line the old bytes are asked for, and the write is done when its owner has performed
it (R322). -/
def State.writeLine (s : State) (c : Cmd) (runs : List (Loc × Nat)) (bytes : List (Nat × Nat)) (poison : Bool) : ItemOut :=
  let ps := linePieces runs
  let w := { s.cmdWho c with claim := ps.any (fun p => c.claims.contains (tagKey p.1)) }
  let whole := bytes.all (fun b => decide (b.1 = 255))
  let sent := s.fab.fwd.filter (fun x => decide (x.owner = .engine c.num ∧ x.write = true))
  if !sent.isEmpty then
    if sent.all (fun x => x.reply.isSome) then .done (sent.foldl (fun s x => s.dropForward x.tag) s) else .wait s
  else
    let s := if whole then s else ps.foldl (fun s p => s.detectAt w p.1) (s.askRemote w ps)
    if !whole && ps.any (fun p => s.awaits w.owner p.1 p.2) then .wait s
    else
      let old := ps.flatMap (fun p => match s.forwarded w.owner p.1 p.2 with
        | some x => (x.reply.getD ([], true)).1
        | none => s.pieceBytes p.1 p.2)
      let s := ps.foldl (fun s p => match s.forwarded w.owner p.1 p.2 with
        | some x => s.dropForward x.tag
        | none => s) s
      let data := if whole then bytes.map (fun b => BitVec.ofNat 8 b.2) else mergeBytes old bytes
      let t := s.storeOrConsume w 0 ps data poison whole c.team (s.cmdRec c)
      if ps.any (fun p => s.isRemote p.1) then .wait t else .done t

/-- Performs one item of a command (R235, R236, R251, R257). -/
def State.doItem (s : State) (c : Cmd) (it : PlanItem) : ItemOut :=
  let w := s.cmdWho c
  match it with
  | .write va bytes poison _ =>
    let x := s.checkAccess w c.core .store true true true va bytes.length
    let s := x.2
    match x.1 with
    | .fail f => s.failItem c (if f.cls = 5 then 4 else 3) f.code (if f.cls = 5 then f.pages.headD f.addr else f.addr)
    | .wait p => .wait (s.holdCmd c p)
    | .ok runs => if s.engineWaits c runs then .wait s else s.writeLine c runs bytes poison
  | .count n =>
    match if c.fw then none else s.arrivePlace c.team c.arriveAddr with
    | none => .done s
    | some l =>
      if s.arriveWaits c l || s.countWaits c l then .wait s
      else if s.detCode w true false l ≠ 0 then s.failItem c 4 (s.detCode w true false l) c.arriveAddr
      else .done (s.arrive w l n)
  | .fail code cause addr => s.failItem c code cause addr

/-- What came of a turn of a plan: it waits, so much of it is left with the command's place among the line writes, or
the command stops at an error. -/
inductive PlanOut where
  | wait (s : State)
  | left (xs : List PlanItem) (wrote : Nat) (s : State)
  | stop (s : State)
  deriving DecidableEq, Repr

/-- One turn of a plan: its first item, and with a line write the count that follows it, where it need not wait (R251). -/
def State.runPlan (s : State) (c : Cmd) (it : PlanItem) (rest : List PlanItem) : PlanOut :=
  match s.doItem c it with
  | .wait s => .wait s
  | .stop s => .stop s
  | .late e s => .left [e] 0 s
  | .done s =>
    match it, rest with
    | .write _ _ _ _, .count n :: rest' =>
      (match s.doItem (s.cmdNow c) (.count n) with
        | .done s => .left rest' 0 s
        | .stop s => .stop s
        | .late e s => .left [e] 0 s
        | .wait s => .left rest s.nextWrote s)
    | _, _ => .left rest 0 s

/-- The keys that a plan still writes. -/
def planKeys (xs : List PlanItem) : List Nat :=
  (xs.filterMap (fun i => match i with
    | .write _ _ _ (k + 1) => some k
    | _ => none)).eraseDups

/-- Fills in the keys of the lines that a plan writes, as they are mapped now. -/
def State.keyPlan (s : State) (c : Cmd) (xs : List PlanItem) : List PlanItem :=
  xs.map (fun i => match i with
    | .write va bs p _ =>
      .write va bs p (match s.regionLines c .store [(va, bs.length)] with
        | k :: _ => k + 1
        | [] => 0)
    | i => i)

/-! ## PUSH (R152, R217, R218) -/

/-- The tier whose page engine serves a command: that of its first frame (R328). -/
def State.pgTier (s : State) (words : List Word) : Nat := entryLoc (s.frame ((words.getD 1 0).toNat / 4096 % 2 ^ 30))

/-- Whether a queue (0 CE, 1 XE, 2 PG) has room for one more command (R252, R328, R358). -/
def State.queueRoom (s : State) (q tk : Nat) (words : List Word) : Bool :=
  match q with
  | 0 => decide ((s.coreAt (s.coreOf tk)).ce.length < 32)
  | 1 => decide (s.fab.xeq.length + s.fab.xe.length < 256)
  | _ => decide ((s.dsp.pg.filter (fun c => decide (c.tier = s.pgTier words))).length < Config.pgCapacity)

/-- The tags that a command of a DET grid sets as it claims its lines, where its checks find no higher ones; not of lines that
it may leave alone (R140, R254, DEDUCED log 85). -/
def State.tagCmd (s : State) (c : Cmd) (dst src : List (Loc × Nat)) : State :=
  let w := s.cmdWho c
  let tag (writes : Bool) (s : State) (p : Loc × Nat) : State := if s.detCode w writes false p.1 = 0 then s.setTag w writes p.1 else s
  if c.loose then s else (linePieces dst).foldl (tag true) ((linePieces src).foldl (tag false) s)

/-- A command as it is pushed now, before its claims. -/
def State.newCmd (s : State) (q tk : Nat) (lane : Option Nat) (iaddr : Word) (words : List Word) : Cmd :=
  let core := s.coreOf tk
  let c : Cmd := { num := s.nextPush, team := tk, lane := lane, iaddr := iaddr, core := core, pts := (s.coreAt core).pts,
                   words := words, tier := s.pgTier words }
  if q = 1 then { c with
    code := s.xeCode c, status := s.noFrame, count0 := s.fab.members.length
    old := if s.noFrame ≠ 0 then 0 else if c.op ≤ 0x14 then s.fab.members.length else 2 } else c

/-- The destination and source regions of a command that is well formed (R218, R234, R235). -/
def State.cmdRegions (s : State) (q : Nat) (c : Cmd) : List (Nat × Nat) × List (Nat × Nat) :=
  match q with
  | 0 => if s.ceOk c then s.ceRegions c else ([], [])
  | 1 => if c.code = 0 ∧ c.status = 0 then c.xeRegions s.fab.chip s.fab.members.length else ([], [])
  | _ => ([], [])

/-- A page-table walk for a stretch of regions that waits for a table (R322, R327). -/
def State.regionWait (s : State) (c : Cmd) (k : AccKind) (rs : List (Nat × Nat)) : Option PageWait :=
  rs.findSome? (fun r => (cutPages (r.2 / 4096 + 2) r.1 r.2).findSome? (fun p =>
    match (s.checkChunk c.team c.core k true true r.1 r.2 p).1 with
    | .wait ⟨.regen _ _, _, _⟩ => none
    | .wait p => some p
    | _ => none))

/-- What a PUSH waits for before the command is accepted: a walk that finds the places of its regions, so that all of them are
claimed (R218, R235); and accesses of its DET grid at their lines that have passed their checks and not performed (R140, R203,
DEDUCED log 85). -/
def State.pushHold (s : State) (q tk : Nat) (lane : Option Nat) (words : List Word) : Option PageWait :=
  let c := s.newCmd q tk lane 0 words
  let rs := s.cmdRegions q c
  let behind (writes : Bool) (runs : List (Loc × Nat)) : Option PageWait :=
    if runs.any (fun r => (linePieces [r]).any (fun p => s.detBefore s.parked.length (keyGrid tk) writes p.1)) then
      some { b := .access (keyGrid tk) writes runs }
    else none
  (((s.regionWait c .store rs.1).or (s.regionWait c .load rs.2)).or (behind true (s.regionRuns c .store rs.1))).or
    (behind false (s.regionRuns c .load rs.2))

/-- Accepts a command: it takes its number, its logical time, its claims, whose owners are recalled and which the undo log
takes, and its source lines (R232 to R235, R372). -/
def State.pushCmd (s : State) (q tk : Nat) (lane : Option Nat) (iaddr : Word) (words : List Word) : State :=
  let core := s.coreOf tk
  let c := s.newCmd q tk lane iaddr words
  let rs := s.cmdRegions q c
  let dst := s.regionRuns c .store rs.1
  let src := s.regionRuns c .load rs.2
  let extra := s.regionRuns c .store (if q = 1 ∧ c.result ≠ 0 then [(c.result, 16)] else [])
  let word := ((if c.arriveAddr = 0 then none else s.arrivePlace tk c.arriveAddr).map (fun l => (l, 16))).toList
  let c := { c with claims := (lineNames dst).eraseDups, srcs := (lineNames src).eraseDups, loose := decide (q = 0) && s.ceLoose c,
                    touches := spadTeams (dst ++ src ++ extra ++ word) }
  let s := s.tagCmd c dst src
  let s := c.claims.foldl State.recall s
  let s := (linePieces dst).foldl (fun s p => s.undoLog (s.cmdWho c) p.1) s
  let s := { s with nextPush := s.nextPush + 1 }
  -- a PUSH to XE ends the interval's protection (R373)
  let s := if q = 1 then s.setGrid (keyGrid tk) (s.gridOf tk).unprotect else s
  match q with
  | 0 => let k := s.coreAt core
         s.setCore core { k with ce := k.ce ++ [c] }
  | 1 => { s with fab := { s.fab with xeq := s.fab.xeq ++ [c] } }
  | _ => { s with dsp := { s.dsp with pg := s.dsp.pg ++ [c] } }

/-- A team executes a PUSH, whether its queue has room or not (R377). -/
def State.markPushed (s : State) (tk : Nat) : State := s.setTeam tk { s.team tk with pushed := true }

/-- The eight command words from register first on. -/
def cmdWords (f : Nat → Word) (first : Nat) : List Word := (List.range 8).map (fun i => f (first + i))

/-- The pushes of a run's lanes in ascending order: after the first refusal none is pushed (R217). Answers the
lanes pushed. -/
def State.pushLanes (s : State) (q : Nat) (r : Run) (d : Nat) (ns : List Nat) : List Nat × State :=
  match ns with
  | [] => ([], s)
  | n :: rest =>
    let l := (s.team r.team).lane n
    let ws := cmdWords (fun i => (l.reg r.trap i).val) d
    if s.queueRoom q r.team ws then
      let x := State.pushLanes (s.pushCmd q r.team (some n) r.pc ws) q r d rest
      (n :: x.1, x.2)
    else ([], s)

/-- PUSH of lanes: privilege, then containment, then the pushes and the flag (R106, R217); its pushes are made in one step
(DESIGN CHOICE log 4). -/
def lanePush (s : State) (q p d : Nat) : Out :=
  onRunRegs s ((List.range 8).map (d + ·)) (fun r s =>
    let t := s.team r.team
    if q = 2 ∧ (s.gridOf r.team).rcd.priv = false then trapAll s r 2 1
    else
      let bad := r.lanes.filter (fun n => (List.range 8).any (fun i => ((t.lane n).reg r.trap (d + i)).poison))
      if !bad.isEmpty then .next (laneTrap s r r.pc (bad.map (fun n => ⟨n, 6, 4, 0, [], 0⟩)))
      else
        let words (n : Nat) : List Word := cmdWords (fun i => ((t.lane n).reg r.trap i).val) d
        match r.lanes.findSome? (fun n => if s.queueRoom q r.team (words n) then s.pushHold q r.team (some n) (words n) else none) with
        | some p => .next (s.holdLanes r p)
        | none =>
          let x := (s.markPushed r.team).pushLanes q r d r.lanes
          finishLanes x.2 r 4 (fun n _ => { preds := [(p, !x.1.contains n, false)] }))

/-- PUSH to the copy engine (R217). -/
def execPushCe (p : BitVec 3) (d : BitVec 6) (s : State) : Out := lanePush s 0 p.toNat d.toNat
/-- PUSH to the exchange engine (R217). -/
def execPushXe (p : BitVec 3) (d : BitVec 6) (s : State) : Out := lanePush s 1 p.toNat d.toNat
/-- PUSH to the page engine (R106, R217). -/
def execPushPg (p : BitVec 3) (d : BitVec 6) (s : State) : Out := lanePush s 2 p.toNat d.toNat

/-- PUSH of the sequencer (R89, R106, R152). -/
def seqPush (s : State) (q f d : Nat) : Out :=
  onSeq s (fun tk sq s =>
    if q = 2 ∧ (s.gridOf tk).rcd.priv = false then seqTrap s tk 2 1 0
    else
      let ws := cmdWords sq.reg d
      let room := s.queueRoom q tk ws
      match if room then s.pushHold q tk none ws else none with
      | some p => .next (s.seqPage tk p false)
      | none =>
        let s := s.markPushed tk
        let s := if room then s.pushCmd q tk none sq.pc ws else s
        .next (s.seqDone tk (fun sq => sq.setReg f (if room then 0 else 1))))

/-- PUSH to the copy engine (R152). -/
def execSxPushCe (f : BitVec 3) (d : BitVec 5) (s : State) : Out := seqPush s 0 f.toNat d.toNat
/-- PUSH to the exchange engine (R152). -/
def execSxPushXe (f : BitVec 3) (d : BitVec 5) (s : State) : Out := seqPush s 1 f.toNat d.toNat
/-- PUSH to the page engine (R106, R152). -/
def execSxPushPg (f : BitVec 3) (d : BitVec 5) (s : State) : Out := seqPush s 2 f.toNat d.toNat

end Sys2Proof.Machine
end

