-- ==== Sys2Proof/Machine/Page.lean ====
section
/-! DEFINITION. Pages and frames: invalidation (R318, R319), moving frames (R321, R325), demotion (R326), read-back
(R327), page-engine commands (R328, R329), forwarded accesses (R322, R323), and the end of a regeneration
(R330). -/

namespace Sys2Proof.Machine

/-! ## Invalidation (R319) -/

/-- Removes what a test on virtual stretches names in a context: translations, the L1 copies and the lines of
instruction caches held under them, and what walks have asked other chips for (R319, R334). An owned copy is written back
with its bytes, which memory holds already (R231). -/
def State.dropUnder (s : State) (asid : Nat) (hit : TlbEntry → Bool) (under : Nat → Bool) : State :=
  let code (c : Core) : Core :=
    let gone := (c.ivia.filter (fun x => decide (x.2.1 = asid) && under (x.2.2 * 64))).map (·.1)
    { c with icache := c.icache.filter (fun x => !gone.contains x.1), ivia := c.ivia.filter (fun x => !gone.contains x.1) }
  { s with
    tlb := SMap.mapV [] s.tlb (fun _ l => l.filter (fun e => !(decide (e.asid = asid) && hit e)))
    lines := SMap.mapV {} s.lines (fun _ x => { x with copies := x.copies.filter (fun c => !(decide (c.asid = asid) && under (c.va * 64))) })
    cores := SMap.mapV {} s.cores (fun _ c => code c)
    fab := { s.fab with fwd := s.fab.fwd.filter (fun x => !decide (x.owner = .walk ∧ x.asid = asid)) } }

/-- Removes the translations of a context that overlap a stretch of its space, and every line under them. -/
def State.invalidate (s : State) (asid va size : Nat) : State :=
  let hit (e : TlbEntry) : Bool := decide (e.page < va + size ∧ va < e.page + e.size)
  let gone := (s.tlb.flatMap (·.2)).filter (fun e => decide (e.asid = asid) && hit e)
  s.dropUnder asid hit (fun a => decide (va ≤ a ∧ a < va + size) || gone.any (fun e => decide (e.page ≤ a ∧ a < e.page + e.size)))

/-- Removes every translation of a context and every line under them. -/
def State.invalidateAll (s : State) (asid : Nat) : State := s.dropUnder asid (fun _ => true) (fun _ => true)

/-- Every core's instruction cache drops the lines of a frame (R330, R125). -/
def State.dropCode (s : State) (frame : Nat) : State :=
  { s with cores := SMap.mapV {} s.cores (fun _ c => { c with
      icache := SMap.clear c.icache (frame * 64) (frame * 64 + 64)
      ivia := c.ivia.filter (fun x => decide (x.1 / 64 ≠ frame)) }) }

/-! ## Frames (R320, R321) -/

/-- The location key of a frame's data where it lies here; no tier holds a LOCATION beyond its memory (R2, R3). -/
def frameKey (loc location : Nat) : Option Nat :=
  match loc with
  | 1 => if tierHolds 1 location then some (hbmKey (location * 4096)) else none
  | 2 => if tierHolds 2 location then some (lpddrKey (location * 4096)) else none
  | 3 => some (hostKey (location * 4096))
  | 4 => some (storageKey (location * 4096))
  | _ => none

/-- Line keys of a frame's data. -/
def State.frameLines (s : State) (f : Nat) : List Nat :=
  match frameKey (entryLoc (s.frame f)) (entryLocation (s.frame f)) with
  | some k => (List.range 64).map (fun i => k / 64 + i)
  | none => []

/-- PSN: whether a frame is poisoned (R320). -/
def State.framePsn (s : State) (f : Nat) : Bool := (s.frameLines f).any (fun k => (s.line k).poison)

/-- An indirection entry as it reads: PSN is computed from the lines (R320, R321). -/
def State.frameEntry (s : State) (f : Nat) : Word :=
  BitVec.ofNat 64 ((s.frame f).toNat % 2 ^ 58 + (if s.framePsn f then 2 ^ 58 else 0) + (s.frame f).toNat / 2 ^ 59 * 2 ^ 59)

/-- Errors in a frame's lines are found before it moves (R243). -/
def State.scanFrame (s : State) (f : Nat) : State :=
  (s.frameLines f).foldl (fun s k => s.detect (dispWho noAsid) (.pa (f * 4096 + k % 64 * 64)) k) s

/-- Whether a line of a frame is claimed or still to be read: it moves afterwards (R325). -/
def State.frameBusy (s : State) (f : Nat) : Bool := (List.range 64).any (fun i => s.claimed (f * 64 + i) || s.unread (f * 64 + i))

/-- Moves one line's bytes, timestamps and poison; an owned copy is recalled (R237, R325). -/
def State.moveLine (s : State) (k k' : Nat) : State :=
  let x := s.line k
  let s := s.putBytes (k' * 64) (s.lineBytes k)
  (s.setLine k' { x with copies := recalled x.copies }).setLine k {}

/-- Moves a frame's lines from where they lie here to a new location here (R325). -/
def State.moveLines (s : State) (f loc location : Nat) : State :=
  let e := s.frame f
  match frameKey (entryLoc e) (entryLocation e), frameKey loc location with
  | some a, some b => (List.range 64).foldl (fun s i => s.moveLine (a / 64 + i) (b / 64 + i)) s
  | _, _ => s

/-- The list a tier's free frames are kept in: another chip's stands beside this chip's four (R329). -/
def tierList (loc chip : Nat) : Nat := if loc = 5 then 4096 + chip else loc
/-- Free frames of a tier. -/
def State.freeFrames (s : State) (loc chip : Nat) : List Nat := SMap.get [] s.dsp.freeList (tierList loc chip)
def State.setFree (s : State) (loc chip : Nat) (l : List Nat) : State :=
  { s with dsp := { s.dsp with freeList := SMap.set [] s.dsp.freeList (tierList loc chip) l } }

/-- A frame's lines have moved: LOC and LOCATION, MIG and ACC zero, the old frame freed (R321). -/
def State.endMove (s : State) (f loc location : Nat) : State :=
  let e := s.frame f
  let old := entryLoc e
  let at_ := entryLocation e
  let s := if old = 5 then s.setFree 5 (at_ / 2 ^ 30) (s.freeFrames 5 (at_ / 2 ^ 30) ++ [at_ % 2 ^ 30]) else s.setFree old 0 (s.freeFrames old 0 ++ [at_])
  s.setFrame f (BitVec.ofNat 64 (loc * 2 ^ 61 + (if entryPin e then 2 ^ 59 else 0) + location * 2 ^ 12))

/-- A frame moves within the chip (R325). -/
def State.finishMove (s : State) (f loc location : Nat) : State := (s.moveLines f loc location).endMove f loc location

/-- The location field of a free frame. -/
def locationOf (loc chip x : Nat) : Nat := if loc = 5 then chip * 2 ^ 30 + x else x

/-- Sets or clears MIG. -/
def State.setMig (s : State) (f : Nat) (on : Bool) : State :=
  let e := (s.frame f).toNat
  s.setFrame f (BitVec.ofNat 64 (e / 2 ^ 61 * 2 ^ 61 + (if on then 2 ^ 60 else 0) + e % 2 ^ 60))

/-! ## Page-engine commands (R328, R329) -/

def Cmd.tloc (c : Cmd) : Nat := c.word 0 / 2 ^ 8 % 8
def Cmd.pinv (c : Cmd) : Bool := decide (c.word 0 / 2 ^ 11 % 2 = 1)
def Cmd.tchip (c : Cmd) : Nat := c.word 0 / 2 ^ 12 % 2 ^ 12

/-- The error of a command as a whole, 0 for none (R329). PINV, CHIP and TLOC are read by the OPs that use them alone
(DESIGN CHOICE log 89). -/
def State.pgError (s : State) (c : Cmd) : Nat :=
  let zero (i : Nat) : Bool := decide (c.word i = 0)
  if !(decide (1 ≤ c.op ∧ c.op ≤ 3 ∧ 1 ≤ c.count ∧ c.count ≤ 2 ^ 18 ∧ c.word 0 / 2 ^ 24 % 2 ^ 8 = 0) && zero 2 && zero 4 &&
      zero 5 && zero 6 && zero 7 &&
      (decide (c.op ≠ 1) || decide (c.tloc = 1 ∨ c.tloc = 2 ∨ c.tloc = 3 ∨ c.tloc = 5)) && s.arriveOk c) then 1
  else if c.word 1 / 2 ^ 42 ≠ 0 ∨ c.word 1 % 4096 ≠ 0 ∨ 2 ^ 30 < c.frame0 + c.count then 6
  else 0

/-- Whether a frame already is where a MOVE would put it. -/
def State.inTier (s : State) (f loc chip : Nat) : Bool :=
  let e := s.frame f
  decide (entryLoc e = loc) && (decide (loc ≠ 5) || decide (entryLocation e / 2 ^ 30 = chip))

/-- The error of a MOVE of one frame, 0 for none (R329): a frame that nothing backs can not be moved
(DEDUCED log 35). -/
def State.moveError (s : State) (f loc chip : Nat) : Nat :=
  let e := s.frame f
  if entryLoc e = 0 ∨ 6 ≤ entryLoc e ∨ tierHolds (entryLoc e) (entryLocation e) = false then 6
  else if entryPin e then 7
  else if s.inTier f loc chip then 0
  else if loc = 5 ∧ s.fab.members.contains chip = false then 0x0A
  else if (s.freeFrames loc chip).isEmpty then 8
  else if loc = 3 ∧ s.framePsn f = true then 9
  else 0

/-- Replaces or removes a page-engine command by number. -/
def State.putPg (s : State) (num : Nat) (c : Option Cmd) : State :=
  { s with dsp := { s.dsp with pg := match c with
    | some c => s.dsp.pg.map (fun x => if x.num = num then c else x)
    | none => s.dsp.pg.filter (fun x => decide (x.num ≠ num)) } }

/-- The command stops at an error (R257, R329), which its plan holds until it is reported. -/
def State.stopPg (s : State) (c : Cmd) (code : Nat) : State :=
  s.putPg c.num (some { s.cmdNow c with plan := some [.fail code 0 0], moving := false, flying := false })

/-- One frame is handled: its arrival update comes next (R329). -/
def State.pgHandled (s : State) (c : Cmd) : State :=
  s.putPg c.num (some { s.cmdNow c with plan := some [.count 4096], moving := false, flying := false })

/-! ## Moves to and from other chips (R237, R325) -/

/-- The lines of a moving frame that are on their way: the answers of the other chip, or its acknowledgements. -/
def State.flights (s : State) (c : Cmd) : List Forward := s.fab.fwd.filter (fun x => decide (x.owner = .engine c.num))

/-- A line that is sent for, or is sent. -/
def State.flight (s : State) (c : Cmd) (f chip i : Nat) (write : Bool) : Forward :=
  { tag := 0, chip := chip, owner := .engine c.num, pa := f * 4096 + 64 * i, n := 64, write := write, asid := s.asidOf c.team, grid := keyGrid c.team }

/-- A line goes to a frame of another chip. -/
def State.sendLine (s : State) (c : Cmd) (f i : Nat) (bytes : List Byte) (poison : Bool) (wts rts : Nat) : State :=
  s.sendFor (s.flight c f (c.target / 2 ^ 30) i true) (fun tag => .move tag (c.target % 2 ^ 30 * 4096 + 64 * i) bytes poison wts rts)

/-- The next line of a frame leaves for another chip's frame, or is sent for there; a line that an engine needs where it is
leaves after it (R325). -/
def State.launchLine (s : State) (c : Cmd) (f : Nat) : State :=
  let e := s.frame f
  let i := c.line
  if s.claimed (f * 64 + i) || s.unread (f * 64 + i) then s
  else
    let s := match frameKey (entryLoc e) (entryLocation e) with
      | some a =>
        let s := s.detect (dispWho noAsid) (.pa (f * 4096 + 64 * i)) (a / 64 + i)
        let x := s.line (a / 64 + i)
        (s.setLine (a / 64 + i) { x with copies := recalled x.copies }).sendLine c f i (s.lineBytes (a / 64 + i)) x.poison x.wts x.rts
      | none => s.sendFor (s.flight c f (entryLocation e / 2 ^ 30) i false) (fun tag => .moveAsk tag (entryLocation e % 2 ^ 30 * 4096 + 64 * i))
    s.putPg c.num (some { c with line := i + 1 })

/-- A line that another chip sent comes to rest at a line key with its timestamps, poison and the copies that this chip
holds of it (R237). -/
def State.landLine (s : State) (k : Nat) (x : Forward) : State :=
  let b := x.reply.getD ([], true)
  (s.putBytes (k * 64) b.1).setLine k { s.line k with poison := b.2, wts := x.stamps.1, rts := x.stamps.2 }

/-- The flights of a command are over. -/
def State.dropFlights (s : State) (c : Cmd) : State := (s.flights c).foldl (fun s x => s.dropForward x.tag) s

/-- A move stops at an error: the frame stays where it is, and the free frame goes back to its list (R329). -/
def State.stopFlight (s : State) (c : Cmd) (f chip code : Nat) : State :=
  let s := (s.dropFlights c).setMig f false
  (s.setFree c.tloc chip (c.target % (if c.tloc = 5 then 2 ^ 30 else 2 ^ 42) :: s.freeFrames c.tloc chip)).stopPg c code

/-- The lines of a frame have all come, or are all acknowledged: the move ends (R321); those of a frame that goes from one
other chip to another are sent on first. A line that would bring poison to host memory stops the move (R329, R331,
DEDUCED log 84). -/
def State.landLines (s : State) (c : Cmd) (f chip : Nat) : State :=
  let xs := s.flights c
  let came := xs.filter (fun x => !x.write)
  let bad := if c.tloc = 3 then came.any (fun x => (x.reply.getD ([], true)).2) else xs.any (fun x => x.write && (x.reply.getD ([], false)).2)
  if bad then s.stopFlight c f chip 9
  else
    let s := s.dropFlights c
    match frameKey c.tloc c.target with
    | some b =>
      ((came.foldl (fun (s : State) (x : Forward) => s.landLine (b / 64 + x.pa % 4096 / 64) x) s).endMove f c.tloc c.target).pgHandled c
    | none =>
      if came.isEmpty then (s.endMove f c.tloc c.target).pgHandled c
      else
        came.foldl (fun (s : State) (x : Forward) =>
          let b := x.reply.getD ([], true)
          s.sendLine c f (x.pa % 4096 / 64) b.1 b.2 x.stamps.1 x.stamps.2) s

/-- A move whose lines travel: the next line leaves, or the command waits for the last of them; a chip that is lost meanwhile
ends it (R323). -/
def State.flyFrame (s : State) (c : Cmd) (f chip : Nat) : State :=
  if c.tloc = 5 ∧ s.fab.members.contains chip = false then s.stopFlight c f chip 0x0A
  else if entryLoc (s.frame f) = 7 then s.stopFlight c f chip 6
  else if c.line < 64 then s.launchLine c f
  else if (s.flights c).all (fun x => x.reply.isSome) then s.landLines c f chip
  else s

/-- A frame with MIG set moves. Within the chip its lines move once no engine needs one where it is; to or from another chip it
takes its free frame now, and its lines follow one at a time (R325, R329). -/
def State.migrate (s : State) (c : Cmd) (f chip : Nat) : State :=
  let far := c.tloc = 5 ∨ entryLoc (s.frame f) = 5
  if !far && s.frameBusy f then s
  else
    let s := s.scanFrame f
    let code := s.moveError f c.tloc chip
    let location := locationOf c.tloc chip ((s.freeFrames c.tloc chip).headD 0)
    if code ≠ 0 then (s.setMig f false).stopPg c code
    else
      let t := s.setFree c.tloc chip ((s.freeFrames c.tloc chip).drop 1)
      if far then t.putPg c.num (some { c with flying := true, line := 0, target := location })
      else (t.finishMove f c.tloc location).pgHandled c

/-- The turn of a command on its next frame. -/
def State.pgFrame (s : State) (c : Cmd) : State :=
  let f := c.frame0 + c.pos
  match c.op with
  | 2 =>
    let e := (s.frame f).toNat
    (s.setFrame f (BitVec.ofNat 64 (e / 2 ^ 60 * 2 ^ 60 + (if c.pinv then 2 ^ 59 else 0) + e % 2 ^ 59))).pgHandled c
  | 3 => (s.setFrame f (BitVec.ofNat 64 ((s.frame f).toNat / 2 ^ 12 * 2 ^ 12))).pgHandled c
  | _ =>
    let chip := if c.tloc = 5 then c.tchip else 0
    if c.flying then s.flyFrame c f chip
    else if c.moving then s.migrate c f chip
    else if entryMig (s.frame f) then s
    else
      let code := s.moveError f c.tloc chip
      if code ≠ 0 then s.stopPg c code
      else if s.inTier f c.tloc chip then s.pgHandled c
      else (s.setMig f true).putPg c.num (some { c with moving := true })

/-- One turn of a page-engine command: its check, a frame, or the arrival update or the error that comes of it. -/
def State.advancePg (s : State) (c : Cmd) : State :=
  match c.plan with
  | some (it :: rest) =>
    (match s.runPlan c it rest with
      | .wait s => s
      | .stop s => s.putPg c.num none
      | .left (x :: xs) wrote s => s.putPg c.num (some { s.cmdNow c with plan := some (x :: xs), wrote := wrote })
      | .left [] _ s =>
        if c.pos + 1 = c.count then s.putPg c.num none
        else s.putPg c.num (some { s.cmdNow c with plan := none, pos := c.pos + 1, wrote := 0 }))
  | _ =>
    let code := s.pgError c
    if code ≠ 0 then s.stopPg c code else s.pgFrame c

/-- An event of a page engine: the command at an index takes a turn, where it has the event's operation and no
earlier command of its tier remains (R328). A command whose OP names no operation goes with MOVE. -/
def pgEvent (s : State) (op : Nat) : Out :=
  match s.turn with
  | .event _ (.nat idx) =>
    match s.dsp.pg.drop idx with
    | [] => .next s
    | c :: _ =>
      if (c.op = op ∨ (op = 1 ∧ (c.op = 0 ∨ 3 < c.op))) ∧ (s.dsp.pg.take idx).all (fun d => decide (d.tier ≠ c.tier)) = true then
        .next (s.advancePg c)
      else .next s
  | _ => .next s

/-- MOVE of the page engine (R325, R329). -/
def execPgMove (s : State) : Out := pgEvent s 1
/-- PIN (R329). -/
def execPgPin (s : State) : Out := pgEvent s 2
/-- CLRCNT (R324, R329). -/
def execPgClrcnt (s : State) : Out := pgEvent s 3

/-! ## Demotion (R326) -/

/-- Sets the frame that a tier's engine demotes now. -/
def State.setVictim (s : State) (tier : Nat) (f : Option Nat) : State :=
  { s with dsp := { s.dsp with victim := SMap.set 0 s.dsp.victim tier (match f with
    | some f => f + 1
    | none => 0) } }

/-- The demotion of a frame whose MIG is set goes on: it moves to the next tier of the chain once no engine needs a line of
it and a frame is free there; a frame that leaves LPDDR6 poisoned stays (R325, R326, R331). -/
def State.demoteFrame (s : State) (tier f : Nat) : State :=
  if s.frameBusy f then s
  else
    let s := s.scanFrame f
    if tier = 2 ∧ s.framePsn f = true then (s.setMig f false).setVictim tier none
    else
      match s.freeFrames (tier + 1) 0 with
      | [] => s
      | x :: r => ((s.setFree (tier + 1) 0 r).finishMove f (tier + 1) x).setVictim tier none

/-- The engine stops: an event is posted to the firmware (R326). -/
def State.endDemotion (s : State) (tier : Nat) : State :=
  { s with dsp := { s.dsp with demoting := s.dsp.demoting.filter (fun t => decide (t ≠ tier)), posted := s.dsp.posted + 1 } }

/-- One turn of a tier's demotion (R326): its frame goes on; or it ends, at HIGH free frames or an empty ring; or the
ring's next frame is skipped or becomes the one that migrates (R321). -/
def State.demote (s : State) (tier : Nat) : State :=
  let ring := SMap.get [] s.dsp.victims tier
  match SMap.get 0 s.dsp.victim tier, ring with
  | f + 1, _ => s.demoteFrame tier f
  | 0, [] => s.endDemotion tier
  | 0, f :: r =>
    if SMap.get 0 s.dsp.high tier ≤ (s.freeFrames tier 0).length then s.endDemotion tier
    else
      let s := (s.scanFrame f)
      let s := { s with dsp := { s.dsp with victims := SMap.set [] s.dsp.victims tier r } }
      let e := s.frame f
      if entryLoc e ≠ tier ∨ entryPin e = true ∨ entryMig e = true ∨ (tier = 2 ∧ s.framePsn f = true) then s
      else (s.setMig f true).setVictim tier (some f)

/-- DEMOTION: the operand names the tier: 1 HBM4E, 2 LPDDR6, 3 host. -/
def execDemotion (s : State) : Out :=
  match s.turn with
  | .event _ (.nat tier) =>
    if (tier = 1 ∨ tier = 2 ∨ tier = 3) ∧
        ((s.freeFrames tier 0).length < SMap.get 0 s.dsp.low tier ∨ s.dsp.demoting.contains tier = true) then
      let others := s.dsp.demoting.filter (fun t => decide (t ≠ tier))
      .next (State.demote { s with dsp := { s.dsp with demoting := tier :: others } } tier)
    else .next s
  | _ => .next s

/-! ## Read-back (R327) and firmware's entries (R320, R321) -/

/-- PAGE_READBACK: frame, whether the service succeeded, and the host bus page. -/
def execPageReadback (s : State) : Out :=
  match s.turn with
  | .event _ (.nat3 f ok bus) =>
    if entryLoc (s.frame f) ≠ 4 then .next s
    else if ok = 0 then .next (s.setLoc f 7)
    else
      let e := (s.frame f).toNat
      let s := s.moveLines f 3 (bus % 2 ^ 42)
      .next (s.setFrame f (BitVec.ofNat 64 (3 * 2 ^ 61 + e / 2 ^ 54 % 2 ^ 7 * 2 ^ 54 + bus % 2 ^ 42 * 2 ^ 12 + e % 2 ^ 12)))
  | _ => .next s

/-- A forwarded access whose owner is unreachable ends (R323): a read gives zero, poisoned; an engine's write is over; of
another's write nothing stays. -/
def Forward.ended (x : Forward) : Option Forward :=
  match x.owner, x.write with
  | .engine _, true => some { x with reply := some ([], false) }
  | .flit _ _, true => some { x with reply := some ([], false) }
  | _, true => none
  | _, false => some { x with reply := some (List.replicate x.n 0, true) }

/-- Whether a forward is a line of a page engine's move, which is no access (R325). -/
def State.isFlight (s : State) (x : Forward) : Bool := s.dsp.pg.any (fun c => decide (x.owner = .engine c.num))

/-- Ends the forwarded accesses to chips outside the view: discarded writes are counted and logged (R323). -/
def State.endForwards (s : State) : State :=
  let out (x : Forward) : Bool := x.reply.isNone && !s.fab.members.contains x.chip
  let lost := s.fab.fwd.filter (fun x => out x && x.write && !s.isFlight x)
  let s := lost.foldl (fun s x => s.discardWrite { dispWho x.asid with grid := x.grid } (.pa x.pa)) s
  { s with fab := { s.fab with fwd := s.fab.fwd.filterMap (fun x => if out x then x.ended else some x) } }

/-- A frame whose owner is no member of the view is lost, and what was forwarded to it ends (R321, R323) (DEDUCED log
41). -/
def State.loseFrames (s : State) : State :=
  State.endForwards { s with frames := SMap.mapV 0 s.frames (fun _ e =>
      if entryLoc e = 5 ∧ s.fab.members.contains (entryLocation e / 2 ^ 30) = false then BitVec.ofNat 64 (e.toNat % 2 ^ 61 + 7 * 2 ^ 61) else e) }

/-- INDIRECTION_ENTRY_WRITE: LOC, PIN and LOCATION are written, the rest keeps its value. -/
def execIndirectionEntryWrite (s : State) : Out :=
  match s.turn with
  | .event _ (.natWord f w) =>
    if f < 2 ^ 30 then
      let e := (s.frame f).toNat
      let n := w.toNat
      .next (s.setFrame f (BitVec.ofNat 64 (n / 2 ^ 61 * 2 ^ 61 + e / 2 ^ 60 % 2 * 2 ^ 60 + n / 2 ^ 59 % 2 * 2 ^ 59 +
        n / 2 ^ 12 % 2 ^ 42 * 2 ^ 12 + e % 2 ^ 12)) |>.loseFrames)
    else .next s
  | _ => .next s

/-! ## Forwarded accesses (R322, R323) -/

/-- Forwarded on to a further chip, an access is over when that chip has answered: its answer, or what it waits for. -/
def State.relay (s : State) (o : FwdFor) (ask : State → State) : Option Forward × State :=
  match s.fab.fwd.filter (fun x => decide (x.owner = o)) with
  | [] => (none, ask s)
  | x :: _ => if x.reply.isSome then (some x, s.dropForward x.tag) else (none, s)

/-- Answers a forwarded access. -/
def State.answer (s : State) (dst tag : Nat) (r : List Byte × Bool) (host : Option Nat) (old : Option (List Byte × Bool)) : State :=
  s.enqueue dst (.fwdReply tag r.1 r.2 host old)

/-- What the line of a physical address holds, where it is asked for (R372). -/
def State.oldLine (s : State) (asked : Bool) (pa : Nat) : Option (List Byte × Bool) :=
  match s.lineKey (.pa pa) with
  | some k => if asked then some (s.lineBytes k, (s.line k).poison) else none
  | none => none

/-- The host address to which a write would carry poison, if it would (R331, R374). -/
def State.hostPoison (s : State) (pa : Nat) (poison : Bool) : Option Nat :=
  if poison && s.inHost (.pa pa) then some (s.hostAddr (.pa pa)) else none

/-- Whether the bridge is to fail an access to a place with a poisoned completion (R323). -/
def State.bridgePoison (s : State) (pa : Nat) : Bool := decide (s.hostFault (.pa pa) false = some .poisoned)

/-- Serves a forwarded access or line move that has been delivered, through this chip's table, and answers it; or it waits
as any access of another agent does (R322). What would carry poison to host memory is discarded, and the answer tells the
grid's chip so (R331, R374, DEDUCED log 84). The first component tells whether it is served. -/
def State.serveFlit (s : State) (f : Flit) : Bool × State :=
  let who (tag : Nat) : Who := { dispWho noAsid with owner := .flit f.src tag }
  let ready (pa n : Nat) (writes : Bool) : Bool :=
    !(s.mustWait 0 writes [(.pa pa, n)]) && !s.queuedBefore s.parked.length (.pa pa)
  let onward (tag pa : Nat) : Bool := s.isRemote (.pa pa) || s.fab.fwd.any (fun x => decide (x.owner = .flit f.src tag))
  match f.body with
  | .fwdRead tag pa n =>
    if !ready pa n false then (false, s)
    else
      let w := who tag
      let s := s.askRemote w [(.pa pa, n)]
      if s.awaits w.owner (.pa pa) n then (false, s)
      else
        let x := s.loadRuns w [(.pa pa, n)]
        (true, x.2.answer f.src tag x.1 none none)
  | .fwdWrite tag pa bytes poison old =>
    if !ready pa bytes.length true then (false, s)
    else if onward tag pa then
      match s.relay (.flit f.src tag) (fun s => (s.touchStore (who tag) (.pa pa)).forward (who tag) (.pa pa) bytes.length true
          (fun k a => .fwdWrite k a bytes poison old)) with
      | (some x, s) => (true, s.answer f.src tag ([], false) x.host x.old)
      | (none, s) => (false, s)
    else
      match s.hostPoison pa poison with
      | some a => (true, s.answer f.src tag ([], false) (some a) (s.oldLine old pa))
      | none => (true, (s.storeRuns (who tag) 0 [(.pa pa, bytes.length)] bytes poison true).answer f.src tag ([], false) none (s.oldLine old pa))
  | .fwdAtom tag pa op t y c poison old =>
    let n := atomWidth t / 8
    if !ready pa n true then (false, s)
    else if onward tag pa then
      match s.relay (.flit f.src tag) (fun s => s.forward (who tag) (.pa pa) n false (fun k a => .fwdAtom k a op t y c poison old)) with
      | (some x, s) => (true, s.answer f.src tag (x.reply.getD ([], true)) x.host x.old)
      | (none, s) => (false, s)
    else
      match s.hostPoison pa (poison || s.bridgePoison pa) with
      | some a =>
        let s := if s.bridgePoison pa then { s with dsp := { s.dsp with hostFail := none } } else s
        (true, s.answer f.src tag (s.pieceBytes (.pa pa) n, true) (some a) (s.oldLine old pa))
      | none =>
        let x := s.atomAt (who tag) (.pa pa) op t y c poison false 0 ⟨0, 6, 6, 0, 0, 0, 0, 0, 0, []⟩
        (true, x.2.answer f.src tag (leBytes n x.1.1, x.1.2.1) none (s.oldLine old pa))
  | .move tag pa bytes poison wts rts =>
    if (s.hostPoison pa poison).isSome then (true, s.answer f.src tag ([], true) none none)
    else
      (true, (match s.lineKey (.pa pa) with
        | some k => (s.putBytes (k * 64) bytes).setLine k { poison := poison, wts := wts, rts := rts, copies := [] }
        | none => s).answer f.src tag ([], false) none none)
  | .moveAsk tag pa =>
    if !ready pa 64 true then (false, s)
    else
      let s := s.detectAt (who tag) (.pa pa)
      match s.lineKey (.pa pa) with
      | some k =>
        let x := s.line k
        (true, (s.setLine k { x with copies := recalled x.copies }).enqueue f.src (.moved tag (s.lineBytes k) x.poison x.wts x.rts))
      | none => (true, s.enqueue f.src (.moved tag (List.replicate 64 0) true 0 0))
  | _ => (true, s)

/-- FORWARDED_ACCESS: the operand names one of the delivered accesses; one source's are served in order. -/
def execForwardedAccess (s : State) : Out :=
  match s.turn with
  | .event _ (.nat idx) =>
    match s.fab.inbox.drop idx with
    | [] => .next s
    | f :: _ =>
      if (s.fab.inbox.take idx).any (fun x => decide (x.src = f.src)) then .next s
      else
        match s.serveFlit f with
        | (true, s) => .next { s with fab := { s.fab with inbox := s.fab.inbox.eraseIdx idx } }
        | (false, s) => .next s
  | _ => .next s

/-- HOST_BRIDGE_ERROR: the bridge reports how the next access to host memory ends (R323). -/
def execHostBridgeError (s : State) : Out :=
  match s.turn with
  | .event _ (.bridge e) => .next { s with dsp := { s.dsp with hostFail := some e } }
  | _ => .next s

/-! ## The end of a regeneration (R330) -/

/-- Whether some access waits for a page of a context: of a lane, a sequencer, an engine or the device. -/
def State.pageWaiters (s : State) (asid page : Nat) : Bool :=
  s.teams.any (fun t => t.2.lanes.any (fun l => decide (l.2.block = .regen asid page)) ||
    decide (t.2.seq.wait = some (.page (.regen asid page) false) ∨ t.2.seq.wait = some (.page (.regen asid page) true))) ||
  (s.commands ++ s.dsp.pg).any (fun c => decide (c.page = some (asid, page))) ||
  s.dsp.late.any (fun x => decide (x.asid = asid ∧ x.va < page + 4096 ∧ page < x.va + x.bytes.length)) ||
  s.dsp.pageWaits.contains (asid, page)

/-- The entry becomes valid: V 1, REGEN 0, SLOT 0, the rest kept. -/
def validEntry (e : Nat) : Nat := e % 2 ^ 56 / 2 ^ 7 * 2 ^ 7 + e % 2 ^ 6 / 2 * 2 + 1

/-- Writes the entry of a regenerated page: instruction caches first, then one store, then the invalidation. Answers
what it waits for where a table of the walk is away; an entry that the walk no longer finds is left as it is. -/
def State.validatePage (s : State) (asid page : Nat) : Option PageWait × State :=
  let o := (s.walk asid page).1
  match o with
  | .wait b => (some { b := b }, s)
  | .regen _ _ frame entryPa =>
    (match s.readEntry entryPa with
      | .ok e =>
        if s.mustWait 0 true [(.pa entryPa, 8)] then (some { b := .none }, s)
        else
          let s := (s.afterWalk asid o).dropCode (frame / 4096)
          let s := s.storePiece (dispWho asid) (.pa entryPa) (leBytes 8 (validEntry e)) false false
          (none, s.invalidate asid page 4096)
      | .error _ => (none, s))
  | _ => (none, s)

/-- REGENERATION_COMPLETE: the page's grid has ended. With status 0 the entry is written and the waiting accesses are
checked again; with another they fault, and the grid is forgotten once none is left (DESIGN CHOICE log 36). -/
def execRegenerationComplete (s : State) : Out :=
  match s.turn with
  | .event _ (.nat2 asid page) =>
    match s.regenGrid asid page with
    | none => .next s
    | some k =>
      let g := s.grid k
      match g.regenStatus with
      | none => .next s
      | some st =>
        if st = 0 then
          match s.validatePage asid page with
          | (some p, s) => .next (s.dispHold (some asid) p)
          | (none, s) => .next ((s.endPageWait asid page).setGrid k {})
        else if s.pageWaiters asid page then .next (s.setGrid k { g with regenFailed := true })
        else .next (s.setGrid k {})
  | _ => .next s

end Sys2Proof.Machine
end

