-- ==== Sys2Proof/Machine/Queue.lean ====
section
/-! DEFINITION. Host and port queues (R107 to R116, R119, R397): registers, packets and what makes one malformed,
dependences, completion words, and the interrupts that follow them. -/

namespace Sys2Proof.Machine

/-! ## Queues and interrupts -/

def State.queue (s : State) (q : Nat) : HostQueue := SMap.get {} s.dsp.queues q
def State.setQueue (s : State) (q : Nat) (x : HostQueue) : State :=
  { s with dsp := { s.dsp with queues := SMap.set {} s.dsp.queues q x } }
def State.port (s : State) (c : Nat) : PortQueue := SMap.get {} s.dsp.ports c
def State.setPort (s : State) (c : Nat) (x : PortQueue) : State :=
  { s with dsp := { s.dsp with ports := SMap.set {} s.dsp.ports c x } }

/-- Numbers of queues: host queue q is q; a record of class c that came through port p has 256 + 32 p + c. -/
def portNumber (port cls : Nat) : Nat := 256 + 32 * port + cls
def queueClass (q : Nat) : Nat := (q - 256) % 32
def queuePort (q : Nat) : Nat := (q - 256) / 32

/-- Fields of QCTL (R108). -/
def HostQueue.en (x : HostQueue) : Bool := x.qctl.getLsbD 0
def HostQueue.err (x : HostQueue) : Bool := x.qctl.getLsbD 1
def HostQueue.priv (x : HostQueue) : Bool := x.qctl.getLsbD 2
def HostQueue.ctxcmd (x : HostQueue) : Bool := x.qctl.getLsbD 3
def HostQueue.log2size (x : HostQueue) : Nat := x.qctl.toNat / 2 ^ 16 % 16
def HostQueue.ivec (x : HostQueue) : Nat := x.qctl.toNat / 2 ^ 20 % 64
def HostQueue.asid (x : HostQueue) : Nat := x.qctl.toNat / 2 ^ 32 % 512
def HostQueue.size (x : HostQueue) : Nat := 2 ^ x.log2size

/-- Replaces n bits of a word from bit lo on. -/
def putField (w : Word) (lo n x : Nat) : Word :=
  BitVec.ofNat 64 (w.toNat - w.toNat / 2 ^ lo % 2 ^ n * 2 ^ lo + x % 2 ^ n * 2 ^ lo)

/-- Sets a bit of QCTL. -/
def HostQueue.setBit (x : HostQueue) (lo : Nat) (b : Bool) : HostQueue := { x with qctl := putField x.qctl lo 1 b.toNat }

/-- Enters the error state (R110); a disabled queue keeps its state. -/
def HostQueue.fail (x : HostQueue) : HostQueue :=
  { x.setBit 1 true with st := if x.st = .disabled then .disabled else .error }

/-- Whether a vector's message is held back: by its mask or by the function's (R116). -/
def Dispatcher.masked (d : Dispatcher) (v : Nat) : Bool := d.msixFunction || d.msixMask.getLsbD v

/-- Sends a vector's message, or leaves its pending bit where it is masked (R116) (DESIGN CHOICE log 1). -/
def State.sendMsi (s : State) (v : Nat) : State :=
  let d := s.dsp
  if d.masked v then { s with dsp := { d with msixPending := d.msixPending ||| BitVec.ofNat 64 (2 ^ v) } }
  else { s with dsp := { d with messages := v :: d.messages } }

/-- The vector of a queue's completion interrupts (R108, R119). -/
def State.queueVector (s : State) (q : Nat) : Nat := if q < 256 then (s.queue q).ivec else (s.port (queueClass q)).vector

/-- The completion interrupt of a packet (R116). -/
def State.interrupt (s : State) (c : CompWord) : State :=
  let v := s.queueVector c.queue
  if c.intr ∧ v ≠ 0 then s.sendMsi v else s

/-- Counts a drop at a launch port (R119). -/
def State.countDrop (s : State) (port : Nat) : State :=
  { s with dsp := { s.dsp with drops := SMap.set 0 s.dsp.drops port (SMap.get 0 s.dsp.drops port + 1) } }

/-- Whether a grid still has something to end: a regeneration grid that has ended only waits to be forgotten. -/
def Grid.active (g : Grid) : Bool := g.live && decide (g.regenStatus = none)

/-! ## Completion words (R113, R115, R397) -/

/-- The bytes of a completion word: SEQ above the low word, which holds STATUS, and a CAPSTOP's drop count. -/
def CompWord.word (c : CompWord) (low : Nat) : Word := BitVec.ofNat 64 (low % 2 ^ 32 + c.seq.toNat * 2 ^ 32)

/-- References that a code object has: live grids, and grids whose words are not written (R125, R397). -/
def State.references (s : State) (obj : Nat) : Nat :=
  let held := s.dsp.queues.flatMap (fun q => q.2.held)
  let late := s.dsp.late.filterMap (fun x => match x.kind with
    | .word h _ => some h
    | _ => none)
  (s.grids.filter (fun e => e.2.active && decide (e.2.launch.obj = obj))).length +
    ((held ++ late).filter (fun h => decide (h.obj = obj))).length

/-- Drops a range of physical bytes from every instruction cache. -/
def State.dropRange (s : State) (pa n : Nat) : State :=
  { s with cores := SMap.mapV {} s.cores (fun _ c => { c with
      icache := SMap.clear c.icache (pa / 64) ((pa + n + 63) / 64)
      ivia := c.ivia.filter (fun x => !decide (pa / 64 ≤ x.1 ∧ x.1 < (pa + n + 63) / 64)) }) }

/-- The object becomes unloaded (R125). -/
def State.unload (s : State) (k : Nat) : State :=
  let o := SMap.get {} s.dsp.objs k
  let s := s.dropRange (o.pa + objCodeOff o.image) (objCodeSize o.image)
  { s with dsp := { s.dsp with objs := SMap.set {} s.dsp.objs k { o with st := .unloaded, image := [] } } }

/-- A reference to an object has gone (R125). -/
def State.releaseObj (s : State) (k : Nat) : State :=
  let o := SMap.get {} s.dsp.objs k
  if o.st = .draining ∧ s.references k = 0 then s.unload k else s

/-- Tries to store a completion word. -/
def State.storeWord (s : State) (c : CompWord) (w : Word) : Disp Unit × State := s.dispStore c.asid c.addr (leBytes 8 w.toNat) false

/-- A completion word that cannot be stored yet waits behind those that wait already. -/
def State.postponeWord (s : State) (h : HeldWrite) (drop : Bool) : State :=
  s.postpone ⟨h.cw.asid, h.cw.addr, leBytes 8 h.word.toNat, false, .word h drop⟩

/-- A completion write that faulted: a host queue holds it and enters the error state, a port drops and counts it (R110,
R119, R397); as its address space goes it is dropped and counted (R99). -/
def State.wordFault (s : State) (h : HeldWrite) (drop : Bool) : State :=
  if drop then { s with dsp := { s.dsp with lostWords := s.dsp.lostWords + 1 } }
  else if h.cw.queue < 256 then
    let x := s.queue h.cw.queue
    s.setQueue h.cw.queue { x.fail with held := x.held ++ [h] }
  else s.countDrop (queuePort h.cw.queue)

/-- Writes a completion word, with its interrupt (R115, R116); one that must wait is written later, in order. -/
def State.writeWord (s : State) (h : HeldWrite) (drop : Bool) : State :=
  if h.cw.addr = 0 then s
  else if s.dsp.late.any (fun x => decide (x.kind ≠ .trace)) then s.postponeWord h drop
  else
    match s.storeWord h.cw h.word with
    | (.ok _, s) => s.interrupt h.cw
    | (.wait _, s) => s.postponeWord h drop
    | (.fail, s) => s.wordFault h drop

/-- Writes a packet's completion word. -/
def State.complete (s : State) (c : CompWord) (low : Nat) : State := s.writeWord ⟨c, c.word low, 0⟩ false

/-- The oldest write of the device that waits is made, or fails as one at once does (R99, R120, R174, R397). -/
def State.tryLate (s : State) : State :=
  match s.dsp.late with
  | [] => s
  | x :: rest =>
    let drop (s : State) : State := { s with dsp := { s.dsp with late := rest } }
    match s.dispStore x.asid x.va x.bytes x.full with
    | (.wait _, s) => s
    | (.ok _, s) =>
      (match x.kind with
        | .word h _ => ((drop s).interrupt h.cw).releaseObj h.obj
        | _ => drop s)
    | (.fail, s) =>
      match x.kind with
      | .fault g => (drop s).noRecord g
      | .word h d => ((drop s).wordFault h d).releaseObj h.obj
      | .trace =>
        let a := x.asid.getD noAsid
        let c := s.ctx a
        (drop s).setCtx a { c with
          cap := if c.cap = .opened then .stalled else c.cap, capWrites := c.capWrites - 1, capDrops := c.capDrops + 1 }

/-! ## Packets (R111, R112, R117) -/

/-- A packet: eight doublewords. -/
abbrev Packet := List Nat

def Packet.w (p : Packet) (i : Nat) : Nat := p.getD i 0
def Packet.kind (p : Packet) : Nat := p.w 0 % 256
def Packet.asid (p : Packet) : Nat := p.w 0 / 2 ^ 16 % 512
def Packet.cwaddr (p : Packet) : Nat := p.w 5
def Packet.depaddr (p : Packet) : Nat := p.w 6
def Packet.seq (p : Packet) : Nat := p.w 7 / 2 ^ 32
def Packet.depseq (p : Packet) : Nat := p.w 7 % 2 ^ 32
def Packet.regs (p : Packet) : Nat := p.w 0 / 2 ^ 40 % 256
def Packet.graph (p : Packet) : Nat := p.w 0 / 2 ^ 48 % 256
def Packet.cx (p : Packet) : Nat := Nat.max 1 (p.w 4 % 16)
def Packet.cy (p : Packet) : Nat := Nat.max 1 (p.w 4 / 16 % 16)
def Packet.sbanks (p : Packet) : Nat := p.w 4 / 2 ^ 16 % 32

/-- Bytes as doublewords. -/
def dwords (n : Nat) (bs : List Byte) : List Nat := (List.range n).map (fun i => leNat ((bs.drop (8 * i)).take 8))

/-- LAUNCH, CAPSTART and CAPSTOP name addresses of their context; the other kinds physical ones (R111). -/
def virtualKind (k : Nat) : Bool := decide (k = 1 ∨ k = 7 ∨ k = 8)
/-- The kinds of context commands (R111). -/
def commandKind (k : Nat) : Bool := decide (2 ≤ k ∧ k ≤ 6)

/-- What a queue allows its packets (R108, R119): a port queue has PRIV 0 and CTXCMD 0. -/
structure QueueRights where
  number : Nat
  priv : Bool
  ctxcmd : Bool
  asid : Nat
  deriving DecidableEq, Repr

/-- INTR, a field of LAUNCH (R112, R116). -/
def Packet.intr (p : Packet) : Bool := decide (p.kind = 1) && (p.w 0).testBit 8

/-- Whether CWADDR and DEPADDR are in the packet's own context (R111, R114). -/
def Packet.virtual (p : Packet) (r : QueueRights) : Bool :=
  virtualKind p.kind || (!commandKind p.kind && !r.ctxcmd)

/-- The completion word that a packet names. -/
def Packet.compWord (p : Packet) (r : QueueRights) : CompWord :=
  ⟨if p.virtual r then some p.asid else none, p.cwaddr, BitVec.ofNat 32 p.seq, p.intr, r.number⟩

/-- An address field's rules: 8-aligned, and the zero bits of R111. -/
def addrOk (virt : Bool) (a : Nat) : Bool := decide (a % 8 = 0 ∧ a < (if virt then 2 ^ 56 else 2 ^ 52))

/-- Malformed by its ASID: a LAUNCH or capture packet of a context that the queue may not name (R114). -/
def Packet.wrongAsid (p : Packet) (r : QueueRights) : Bool := virtualKind p.kind && !r.priv && decide (p.asid ≠ r.asid)

/-- The fields of a launch record, its code object's aside (R112). -/
def Packet.launchFields (p : Packet) : Bool :=
  decide (p.w 0 / 2 ^ 10 % 2 ^ 6 = 0 ∧ p.w 0 / 2 ^ 25 % 2 ^ 15 = 0 ∧ p.w 0 / 2 ^ 56 = 0 ∧
    (p.graph = 0 ∨ (4 ≤ p.graph ∧ p.graph ≤ 64)) ∧ p.w 1 % 64 = 0 ∧ p.w 1 < 2 ^ 56 ∧ p.w 3 < 2 ^ 48 ∧
    p.w 3 % 2 ^ 16 ≠ 0 ∧ p.w 3 / 2 ^ 16 % 2 ^ 16 ≠ 0 ∧ p.w 3 / 2 ^ 32 % 2 ^ 16 ≠ 0 ∧
    p.w 4 / 2 ^ 8 % 2 ^ 8 = 0 ∧ p.w 4 / 2 ^ 21 = 0 ∧ p.cx ≤ 12 ∧ p.cy ≤ 10 ∧ p.cx * p.cy ≤ 12 ∧ p.sbanks ≤ 16) &&
  capOk p.regs

/-- The launch that a record names (R112, R123): none where its entry makes it malformed (DEDUCED log 55). -/
def State.packetLaunch (s : State) (p : Packet) : Option Launch :=
  match s.launchOf p.asid (p.w 1) with
  | none => none
  | some l =>
    if (SMap.get {} s.dsp.objs l.obj).st = .draining ∨ (p.regs ≠ 0 ∧ p.regs < l.cap) ∨
        p.sbanks * 32768 < l.image.length then none
    else
      some { l with
        graph := if p.graph = 0 then l.graph else p.graph
        cap := if p.regs = 0 then l.cap else p.regs
        roin := (p.w 0).testBit 9
        arg := BitVec.ofNat 64 (p.w 2)
        gx := p.w 3 % 2 ^ 16, gy := p.w 3 / 2 ^ 16 % 2 ^ 16, gz := p.w 3 / 2 ^ 32
        cx := p.cx, cy := p.cy, sbanks := p.sbanks, seq := BitVec.ofNat 32 p.seq }

/-- Whether a packet is malformed, the entry of a LAUNCH aside (R9, R111, R112, R114, R117). A record address of a
CREATE or UPDATE with any of bits 63 to 52 set is no physical address, and the packet malformed (DEDUCED log 81). -/
def Packet.malformed (p : Packet) (r : QueueRights) : Bool :=
  let k := p.kind
  let virt := virtualKind k
  p.wrongAsid r || !(virt || commandKind k) || (commandKind k && !r.ctxcmd) || !addrOk virt p.cwaddr || !addrOk virt p.depaddr ||
    (if k = 1 then !p.launchFields
     else
      decide (p.w 0 / 2 ^ 8 % 2 ^ 8 ≠ 0 ∨ p.w 0 / 2 ^ 25 ≠ 0 ∨ p.w 2 ≠ 0 ∨ p.w 3 ≠ 0 ∨ p.w 4 ≠ 0) ||
        (if k = 2 ∨ k = 3 then decide (p.w 1 % 128 ≠ 0 ∨ 2 ^ 52 ≤ p.w 1)
         else if k = 4 then decide (2 ^ 12 ≤ p.w 1) else decide (p.w 1 ≠ 0)))

/-- Whether no context has the identifier that a packet names: free or wiped (R114). -/
def State.noContext (s : State) (a : Nat) : Bool :=
  match (s.ctx a).st with
  | .free => true
  | .wiped => true
  | _ => false

/-- Status 0x0A of a malformed packet, where R114 lets it be written (DEDUCED log 49). -/
def State.rejectPacket (s : State) (p : Packet) (r : QueueRights) : State :=
  let virt := p.virtual r
  if p.cwaddr = 0 ∨ addrOk virt p.cwaddr = false ∨ p.wrongAsid r = true ∨
      (!virtualKind p.kind && virt && (s.noContext p.asid || (!r.priv && decide (p.asid ≠ r.asid)))) = true then s
  else s.complete (p.compWord r) 0x0A

/-! ## Dependences (R113) -/

/-- What a packet's dependence has come to. -/
inductive Dep where
  | unmet
  | met
  | failed
  | wait
  deriving DecidableEq, Repr

/-- Reads the word at DEPADDR. -/
def State.dependence (s : State) (p : Packet) : Dep × State :=
  if p.depaddr = 0 then (.met, s)
  else
    match s.dispLoad (if virtualKind p.kind then some p.asid else none) p.depaddr 8 with
    | (.fail, s) => (.failed, s)
    | (.wait _, s) => (.wait, s)
    | (.ok bs, s) =>
      let w := leNat bs
      (if 2 ^ 31 ≤ (w / 2 ^ 32 + 2 ^ 32 - p.depseq) % 2 ^ 32 then .unmet else if w % 256 = 0 then .met else .failed, s)

/-! ## The head packet -/

/-- Rights of a host queue, and of a class's port queue for a record of a port. -/
def State.hostRights (s : State) (q : Nat) : QueueRights :=
  ⟨q, (s.queue q).priv, (s.queue q).ctxcmd, (s.queue q).asid⟩
def State.portRights (s : State) (port cls : Nat) : QueueRights := ⟨portNumber port cls, false, false, (s.port cls).asid⟩

/-- The physical address of a queue's slot (R107): host bus addresses lie in the direct-host region, and one is taken
modulo 2 to the 51 (DESIGN CHOICE log 82). -/
def HostQueue.slot (x : HostQueue) : Nat :=
  let a := x.qbase.toNat / 64 % 2 ^ 46 * 64 + 64 * x.head
  if x.qbase.getLsbD 63 then a else 2 ^ 51 + a % 2 ^ 51

/-- The queue goes on to the next packet (R110). -/
def HostQueue.next (x : HostQueue) : HostQueue :=
  let h := (x.head + 1) % x.size
  { x with head := h, st := if x.st = .error then .error else if h = x.tail then .idle else .active }

/-- The head packet of a queue: its rights and doublewords; none where it must wait, and where its read faults, which
brings a host queue into the error state (R110). -/
def State.headPacket (s : State) (q : Nat) : Option (QueueRights × Packet) × State :=
  if q < 256 then
    match s.dispLoad none (s.queue q).slot 64 with
    | (.ok bs, s) => (some (s.hostRights q, dwords 8 bs), s)
    | (.wait _, s) => (none, s)
    | (.fail, s) => (none, s.setQueue q (s.queue q).fail)
  else
    match (s.port (queueClass q)).recs with
    | [] => (none, s)
    | (port, bs) :: _ => (some (s.portRights port (queueClass q), dwords 8 bs), s)

/-- The queue's head packet is done with. A host queue that a held write brought into the error state stays there,
past the packet (R110). -/
def State.popPacket (s : State) (q : Nat) : State :=
  if q < 256 then s.setQueue q (s.queue q).next
  else
    let x := s.port (queueClass q)
    s.setPort (queueClass q) { x with recs := x.recs.drop 1, blocked := false }

/-- The head packet's dependence is not met (R110). -/
def State.blockQueue (s : State) (q : Nat) : State :=
  if q < 256 then s.setQueue q { s.queue q with st := .blocked }
  else s.setPort (queueClass q) { s.port (queueClass q) with blocked := true }

/-- The head packet names no context: a host queue enters the error state, a port queue drops the record (R114). -/
def State.dropHead (s : State) (q : Nat) (r : QueueRights) : State :=
  if q < 256 then s.setQueue q (s.queue q).fail else (s.countDrop (queuePort r.number)).popPacket q

/-- A malformed head packet (R114): a host queue writes its status, a port queue drops and counts the record (R119). -/
def State.rejectHead (s : State) (q : Nat) (r : QueueRights) (p : Packet) : State :=
  if q < 256 then (s.rejectPacket p r).popPacket q else (s.countDrop (queuePort r.number)).popPacket q

/-- The state as it is after accesses of the dispatcher that must wait: reads that it has asked other chips for before
stay asked (R322). -/
def State.rewind (s t : State) : State :=
  { t with fab := { t.fab with fwd := s.fab.fwd ++ t.fab.fwd.filter (fun x => decide (s.fab.nextTag ≤ x.tag)) } }

/-- What acting on a packet comes to: its effect, or a wait that leaves it where it is. -/
inductive Acted where
  | done (s : State)
  | reject (s : State)
  | wait (s : State)
  deriving DecidableEq, Repr

/-- Takes the head packet of a queue (R109, R110, R114): set apart, malformed, blocked on its dependence, failed by it,
or acted on by f, which does not move the queue. Where an access must wait, the packet stays, to be read again as
from the state `before` its own read. -/
def State.takePacket (s before : State) (q : Nat) (r : QueueRights) (p : Packet)
    (f : QueueRights → Packet → State → Acted) : State :=
  if virtualKind p.kind && s.noContext p.asid then s.dropHead q r
  else if p.malformed r then s.rejectHead q r p
  else
    match s.dependence p with
    | (.wait, t) => before.rewind t
    | (.unmet, s) => s.blockQueue q
    | (.failed, s) => (s.complete (p.compWord r) 0x09).popPacket q
    | (.met, t) =>
      match f r p t with
      | .done s => s.popPacket q
      | .reject s => s.rejectHead q r p
      | .wait t => before.rewind t

/-- Whether a queue has a head packet to take. While an image hands over, packets wait in their queues (R384). -/
def State.queueActive (s : State) (q : Nat) (blocked : Bool) : Bool :=
  decide (s.fw.handing = none) && if q < 256 then decide ((s.queue q).st = if blocked then .blocked else .active)
  else !(s.port (queueClass q)).recs.isEmpty && decide ((s.port (queueClass q)).blocked = blocked)

end Sys2Proof.Machine
end

