-- ==== Sys2Proof/Machine/Context.lean ====
section
/-! DEFINITION. Contexts (R97 to R106) and the packets that the dispatcher takes (R109 to R117, R120, R122): LAUNCH,
the context commands and the capture packets, and how a context's grids end. -/

namespace Sys2Proof.Machine

/-! ## The context record (R100, R101) -/

/-- A record's doublewords. -/
abbrev RawRecord := List Nat

def RawRecord.w (r : RawRecord) (i : Nat) : Nat := r.getD i 0
/-- Bits [hi:lo] of a doubleword. -/
def RawRecord.f (r : RawRecord) (i lo n : Nat) : Nat := r.w i / 2 ^ lo % 2 ^ n

/-- The fields of a record. -/
def RawRecord.fields (r : RawRecord) : CtxRecord :=
  { version := r.f 0 24 8, prio := r.f 0 21 3, mclass := r.f 0 16 5, priv := decide (r.f 0 12 1 = 1),
    det := decide (r.f 0 11 1 = 1), ptroot := r.f 1 0 52, quantum := r.f 2 16 16, regcap := r.f 2 0 8,
    lvec := BitVec.ofNat 64 (r.w 3), svec := BitVec.ofNat 64 (r.w 4), bpcount := r.f 5 56 8, bptab := r.f 5 0 56,
    qrtab := r.f 6 0 56, qrdims := r.f 7 0 11, trbase := r.f 8 0 56, sample := r.f 9 32 16, trpages := r.f 9 0 32,
    frec := r.f 10 0 56 }

/-- ASID of a record. -/
def RawRecord.asid (r : RawRecord) : Nat := r.f 0 0 9

/-- Check 0x01: reserved fields and VERSION. -/
def RawRecord.formOk (r : RawRecord) : Bool :=
  decide (r.f 0 32 32 = 0 ∧ r.f 0 13 3 = 0 ∧ r.f 0 9 2 = 0 ∧ r.f 1 52 12 = 0 ∧ r.f 2 32 32 = 0 ∧ r.f 2 8 8 = 0 ∧
    r.f 6 56 8 = 0 ∧ r.f 7 11 53 = 0 ∧ r.f 8 56 8 = 0 ∧ r.f 9 48 16 = 0 ∧ r.f 10 56 8 = 0 ∧ r.f 0 24 8 = 2) &&
    (List.range 5).all (fun i => decide (r.w (11 + i) = 0))

/-- Check 0x03: REGCAP and QUANTUM. -/
def RawRecord.valuesOk (r : RawRecord) : Bool := capOk (r.f 2 0 8) && decide (r.f 2 16 16 = 0 ∨ 100 ≤ r.f 2 16 16)

/-- Check 0x04: alignments and zero bits of addresses. -/
def RawRecord.addressesOk (r : RawRecord) : Bool :=
  decide (r.f 1 0 12 = 0 ∧ r.f 3 56 8 = 0 ∧ r.f 3 0 1 = 0 ∧ r.f 4 56 8 = 0 ∧ r.f 4 0 1 = 0 ∧ r.f 5 0 6 = 0 ∧
    r.f 6 0 12 = 0 ∧ r.f 8 0 12 = 0 ∧ r.f 10 0 8 = 0)

/-- Check 0x05: BPCOUNT and QRDIMS. -/
def RawRecord.countsOk (r : RawRecord) : Bool := decide (r.f 5 56 8 ≤ 64 ∧ r.f 7 0 11 ≤ 1024)

/-- The status of a CREATE of a record (R101): 0 where every check passes. -/
def State.createStatus (s : State) (r : RawRecord) (priv : Bool) : Nat :=
  if !r.formOk then 1
  else if (s.ctx r.asid).st ≠ .free then 2
  else if !r.valuesOk then 3
  else if !r.addressesOk then 4
  else if !r.countsOk then 5
  else if r.fields.priv && !priv then 6
  else 0

/-- The status of an UPDATE of a context (R102). -/
def Context.updateStatus (c : Context) (asid : Nat) (r : RawRecord) : Nat :=
  if r.asid ≠ asid ∨ r.fields.ptroot ≠ c.rcd.ptroot ∨ r.fields.det ≠ c.rcd.det ∨ r.fields.priv ≠ c.rcd.priv then 2
  else if !r.formOk then 1
  else if !r.valuesOk then 3
  else if !r.addressesOk then 4
  else if !r.countsOk then 5
  else 0

/-- The record at a physical address, or none where the read must wait; one that cannot be read reads as zeros, which no
check accepts (DEDUCED log 25). -/
def State.readRecord (s : State) (pa : Nat) : Option RawRecord × State :=
  match s.dispLoad none pa 128 with
  | (.ok bs, s) => (some (dwords 16 bs), s)
  | (.fail, s) => (some [], s)
  | (.wait _, s) => (none, s)

/-- The breakpoint entries of a record, read in its context's space (R130, R131), or none where the read must wait; no
entries where it faults (DEDUCED log 25). -/
def State.readBreaks (s : State) (asid : Nat) (r : CtxRecord) : Option (List BpEntry) × State :=
  match s.dispLoad (some asid) r.bptab (16 * r.bpcount) with
  | (.ok bs, s) =>
    let ws := dwords (2 * r.bpcount) bs
    (some ((List.range r.bpcount).map (fun i => ⟨i, BitVec.ofNat 64 (ws.getD (2 * i) 0), BitVec.ofNat 64 (ws.getD (2 * i + 1) 0)⟩)), s)
  | (.fail, s) => (some [], s)
  | (.wait _, s) => (none, s)

/-! ## The state of a context (R97, R98) -/

/-- Whether a context has a team on a core. -/
def State.hasResident (s : State) (asid : Nat) : Bool :=
  s.teams.any (fun e => !e.2.slots.isEmpty && decide (s.asidOf e.1 = asid ∧ e.2.st ≠ .retired))

/-- Whether a context has a live grid. -/
def State.hasGrid (s : State) (asid : Nat) : Bool := s.grids.any (fun e => e.2.active && decide (e.2.asid = asid))

def State.setCtxSt (s : State) (a : Nat) (st : CtxState) : State := s.setCtx a { s.ctx a with st := st }

/-- Whether a team has started: it has been dispatched and has not retired. -/
def Team.started (t : Team) : Bool := decide (t.st ≠ .pending ∧ t.st ≠ .retired)

/-- Whether a team of a context has started and not retired. -/
def State.hasStarted (s : State) (asid : Nat) : Bool := s.teams.any (fun e => e.2.started && decide (s.asidOf e.1 = asid))

/-! ## Ends of grids -/

/-- The bytes and line state of a team's scratchpad go (R245). -/
def State.wipeSpad (s : State) (tk : Nat) : State :=
  { s with
    mem := SMap.clear s.mem (spadKey tk 0 0) (spadKey (tk + 1) 0 0)
    lines := SMap.clear s.lines (spadKey tk 0 0 / 64) (spadKey (tk + 1) 0 0 / 64)
    bad := SMap.clear s.bad (spadKey tk 0 0 / 64) (spadKey (tk + 1) 0 0 / 64) }

/-- Removes a grid's teams, with their images and what they wait for. -/
def State.dropTeams (s : State) (k : Nat) : State :=
  let tks := s.teamsOf k
  let s := tks.foldl (fun s tk => s.wipeSpad tk) s
  let mine (tk : Nat) : Bool := decide (keyGrid tk = k)
  { s with
    teams := s.teams.filter (fun e => !mine e.1)
    parked := s.parked.filter (fun p => !mine p.team)
    releases := s.releases.filter (fun r => decide (r.kind.grid ≠ k))
    cores := SMap.mapV {} s.cores (fun _ c => { c with acq := c.acq.filter (fun x => !mine x.1) }) }

/-- Forgets a grid: its teams, its snapshot and its place in the order; its reference goes (R125, R338). -/
def State.dropGrid (s : State) (k : Nat) : State :=
  let obj := (s.grid k).launch.obj
  let s := (s.dropTeams k).setGrid k {}
  { s with dsp := { s.dsp with order := s.dsp.order.filter (fun x => decide (x ≠ k))
                               rects := s.dsp.rects.filter (fun x => decide (x.1 ≠ k)) } }.releaseObj obj

/-- The live grids of a context, in order of acceptance. -/
def State.gridsOf (s : State) (asid : Nat) : List Nat :=
  s.dsp.order.filter (fun k => (s.grid k).live && decide ((s.grid k).asid = asid))

/-- A grid is ended by RESUME: its teams retire, its entries are discarded, and its word follows its engine
commands (R98, R115). A regeneration grid is forgotten (DEDUCED log 53). -/
def State.endGrid (s : State) (k status : Nat) : State :=
  let g := s.grid k
  match g.regen with
  | some _ => s.dropGrid k
  | none => (s.dropTeams k).setGrid k { g with
      endWith := some status, deferred := [], placed := [], passed := [], behind := [],
      interval := { g.interval with st := .closed, undo := [], images := [] } }

/-- A line is undefined (R10): its 64 bytes are free values, not poisoned. -/
def State.freeLine (s : State) (w : Who) (l : Loc) : State :=
  let bs := (List.range 64).map (fun i => (Config.freeWord (s.freeCtr + i)).setWidth 8)
  { s.storeRuns w 0 [(l, 64)] bs false true with freeCtr := s.freeCtr + 64 }

/-- The start of the line of a place. -/
def Loc.lineStart (l : Loc) : Loc :=
  match l with
  | .pa a => .pa (a / 64 * 64)
  | .spad t b o => .spad t b (o / 64 * 64)

/-- The line that an engine was writing when its command was cancelled is undefined (R99, R10). A rollback restores what
lies in device memory: with `hostOnly` only a line of host memory is left so (R375). -/
def State.smear (s : State) (hostOnly : Bool) (c : Cmd) : State :=
  let first : Option (Nat × Nat) := (c.plan.getD []).findSome? (fun i => match i with
    | .write va bs _ _ => some (va, bs.length)
    | _ => none)
  match first with
  | none => s
  | some (va, n) =>
    match (s.checkAccess (s.cmdWho c) c.core .store true true true va n).1 with
    | .ok (r :: _) => if hostOnly && !s.inHost r.1 then s else s.freeLine (s.cmdWho c) r.1.lineStart
    | _ => s

/-- Cancels the engine commands of the teams that a test picks (R99, R375). -/
def State.cancelCmds (s : State) (hostOnly : Bool) (p : Nat → Bool) : State :=
  let mine (c : Cmd) : Bool := !c.fw && p c.team
  let s := (s.commands.filter mine).foldl (fun (s : State) c => s.smear hostOnly c) s
  -- a frame that a cancelled command was moving migrates no more (R320)
  let frames := s.dsp.pg.foldl (fun m c =>
    if mine c && c.moving then
      let f := c.frame0 + c.pos
      SMap.set 0 m f (BitVec.ofNat 64 ((SMap.get 0 m f).toNat - (SMap.get 0 m f).toNat / 2 ^ 60 % 2 * 2 ^ 60))
    else m) s.frames
  { s with
    frames := frames
    cores := SMap.mapV {} s.cores (fun _ c => { c with ce := c.ce.filter (fun x => !mine x) })
    fab := { s.fab with
      xeq := s.fab.xeq.filter (fun x => !mine x), xe := s.fab.xe.filter (fun x => !mine x.cmd)
      fwd := s.fab.fwd.filter (fun x => !(s.commands ++ s.dsp.pg).any (fun c => mine c && decide (x.owner = .engine c.num))) }
    dsp := { s.dsp with pg := s.dsp.pg.filter (fun x => !mine x) } }

/-- The step of a migrating context whose last started team has gone: it is wiped (R98, R104). -/
def State.testMoved (s : State) (asid : Nat) : State :=
  if (s.ctx asid).st = .migrating ∧ s.hasStarted asid = false then s.setCtxSt asid .wiped else s

/-! ## Packets -/

/-- What a packet does once it is accepted, by its kind. -/
def State.doLaunch (s : State) (q : Nat) (p : Packet) (r : QueueRights) (l : Launch) : State :=
  let k := s.dsp.nextGrid
  let c := s.ctx p.asid
  let caught := decide (c.cap ≠ .off ∧ c.capQueue = q ∧ c.capStop = none)
  let s := s.setGrid k { live := true, asid := p.asid, launch := l, cw := p.compWord r, captured := caught,
                         moved := decide (c.st = .migrating) }
  { s with dsp := { s.dsp with nextGrid := k + 1, order := s.dsp.order ++ [k] } }

/-- LAUNCH: a record whose entry makes it malformed is rejected; else its grid joins the order (R112, R118). It waits
where the walk of its entry does (R322, R327). -/
def State.launchPacket (s : State) (q : Nat) (r : QueueRights) (p : Packet) : Acted :=
  match if p.kind = 1 then (s.walk p.asid (p.w 1)).1 else .fault 1 0 with
  | .wait b => .wait (s.dispHold (some p.asid) { b := b })
  | _ =>
    let t := if p.kind = 1 then s.walkEntry p.asid (p.w 1) else s
    match if p.kind = 1 then s.packetLaunch p else none with
    | none => .reject t
    | some l => .done (t.doLaunch q p r l)

/-- CREATE (R98, R101) (DEDUCED log 44). -/
def State.createPacket (s : State) (r : QueueRights) (p : Packet) : Acted :=
  match s.readRecord (p.w 1) with
  | (none, s) => .wait s
  | (some x, s) =>
    let st := s.createStatus x r.priv
    .done ((if st = 0 then s.setCtx x.asid { st := .loading, rcd := x.fields } else s).complete (p.compWord r) st)

/-- UPDATE (R102): breakpoints and capture fields act at once, which is an instruction boundary of every team. -/
def State.updatePacket (s : State) (r : QueueRights) (p : Packet) : Acted :=
  if s.noContext p.asid then .done (s.complete (p.compWord r) 7)
  else
    match s.readRecord (p.w 1) with
    | (none, s) => .wait s
    | (some x, s) =>
      let c := s.ctx p.asid
      let st := c.updateStatus p.asid x
      if st ≠ 0 then .done (s.complete (p.compWord r) st)
      else
        match if c.st = .loading then (some [], s) else s.readBreaks p.asid x.fields with
        | (none, s) => .wait s
        | (some bps, s) => .done ((s.setCtx p.asid { s.ctx p.asid with rcd := x.fields, bps := bps }).complete (p.compWord r) st)

/-- MOVE (R104), to a chip of any number (DESIGN CHOICE log 90). -/
def State.movePacket (s : State) (r : QueueRights) (p : Packet) : Acted :=
  let c := s.ctx p.asid
  match c.st with
  | .ready | .running | .swapped =>
    let s := s.setCtx p.asid { c with st := .migrating, moveTo := some (p.w 1 % 2 ^ 12) }
    .done ((s.complete (p.compWord r) 0).testMoved p.asid)
  | _ => .done (s.complete (p.compWord r) 7)

/-- RESUME (R98): every grid of the context ends, and the context is ready. -/
def State.resumePacket (s : State) (r : QueueRights) (p : Packet) : Acted :=
  if (s.ctx p.asid).st = .faulted then
    let s := s.settleFault p.asid
    let s := (s.gridsOf p.asid).foldl (fun s k => s.endGrid k 0x08) s
    .done ((s.setCtx p.asid { s.ctx p.asid with st := .ready, moveTo := none, faultNow := none }).complete (p.compWord r) 0)
  else .done (s.complete (p.compWord r) 7)

/-- The word of a grid that DESTROY finds without one (R99): of one that something has ended before, with that status
(DEDUCED log 53). -/
def State.destroyWord (s : State) (k : Nat) : State :=
  let g := s.grid k
  if g.regen.isSome || g.moved then s else s.writeWord ⟨g.cw, g.cw.word (g.endWith.getD 0x0B), g.launch.obj⟩ true

/-- DESTROY in the order of R99. -/
def State.destroyPacket (s : State) (r : QueueRights) (p : Packet) : State :=
  if s.noContext p.asid then s.complete (p.compWord r) 7
  else
    let a := p.asid
    let s := (s.settleFault a).cancelCmds false (fun tk => decide (s.asidOf tk = a))
    let ks := s.gridsOf a
    let s := ks.foldl (fun s k => s.dropTeams k) s
    let s := ks.foldl State.destroyWord s
    let s := s.complete (p.compWord r) 0
    let s := ks.foldl (fun s k => s.dropGrid k) s
    s.setCtxSt a .wiped

/-- CAPSTART (R120). -/
def State.capstartPacket (s : State) (q : Nat) (r : QueueRights) (p : Packet) : State :=
  let c := s.ctx p.asid
  if c.cap ≠ .off then s.complete (p.compWord r) 0x0C
  else (s.setCtx p.asid { c with cap := .opened, capQueue := q, capWrites := 0, capDrops := 0 }).complete (p.compWord r) 0

/-- CAPSTOP (R120): its completion is CAPSTOP_COMPLETE's; one while the capture is off completes with status 0x0C (DEDUCED
log 43). -/
def State.capstopPacket (s : State) (q : Nat) (r : QueueRights) (p : Packet) : State :=
  let c := s.ctx p.asid
  if c.cap = .off ∨ c.capQueue ≠ q ∨ c.capStop ≠ none then s.complete (p.compWord r) 0x0C
  else s.setCtx p.asid { c with capStop := some (p.compWord r) }

/-- Acts on an accepted packet by its kind. -/
def State.actPacket (q : Nat) (r : QueueRights) (p : Packet) (s : State) : Acted :=
  match p.kind with
  | 1 => s.launchPacket q r p
  | 2 => s.createPacket r p
  | 3 => s.updatePacket r p
  | 4 => s.movePacket r p
  | 5 => s.resumePacket r p
  | 6 => .done (s.destroyPacket r p)
  | 7 => .done (s.capstartPacket q r p)
  | 8 => .done (s.capstopPacket q r p)
  | _ => .reject s

/-- The head packet of a queue is read and taken, where a test picks its kind. -/
def State.serveQueue (s : State) (q : Nat) (kind : Nat → Bool) (act : QueueRights → Packet → State → Acted) : State :=
  match s.headPacket q with
  | (none, t) => s.rewind t
  | (some (r, p), t) => if kind p.kind then t.takePacket s q r p act else s

/-- A packet event of a queue, for kinds that a test picks: the head packet is taken, where it need not wait. -/
def packetEvent (s : State) (kind : Nat → Bool) (act : Nat → QueueRights → Packet → State → Acted) : Out :=
  match s.turn with
  | .event _ (.nat q) => .next (if s.queueActive q false then s.serveQueue q kind (act q) else s)
  | _ => .next s

/-- LAUNCH (R112); also a packet of an undefined kind, which is malformed (R114) (DEDUCED log 45). -/
def execLaunch (s : State) : Out :=
  packetEvent s (fun k => decide (k = 1 ∨ k = 0 ∨ 8 < k)) (fun q r p s => s.launchPacket q r p)
/-- CREATE (R101). -/
def execCreate (s : State) : Out := packetEvent s (fun k => decide (k = 2)) (fun _ r p s => s.createPacket r p)
/-- UPDATE (R102). -/
def execUpdate (s : State) : Out := packetEvent s (fun k => decide (k = 3)) (fun _ r p s => s.updatePacket r p)
/-- MOVE (R104). -/
def execMove (s : State) : Out := packetEvent s (fun k => decide (k = 4)) (fun _ r p s => s.movePacket r p)
/-- RESUME (R98). -/
def execResume (s : State) : Out := packetEvent s (fun k => decide (k = 5)) (fun _ r p s => s.resumePacket r p)
/-- DESTROY (R99). -/
def execDestroy (s : State) : Out := packetEvent s (fun k => decide (k = 6)) (fun _ r p s => .done (s.destroyPacket r p))
/-- CAPSTART (R120). -/
def execCapstart (s : State) : Out := packetEvent s (fun k => decide (k = 7)) (fun q r p s => .done (s.capstartPacket q r p))
/-- CAPSTOP (R120). -/
def execCapstop (s : State) : Out := packetEvent s (fun k => decide (k = 8)) (fun q r p s => .done (s.capstopPacket q r p))

/-- DEPENDENCE_REREAD: the waited word of a blocked queue is read again; a dependence that is met or failed brings the
packet to its end in the same step (R110, R113). -/
def execDependenceReread (s : State) : Out :=
  match s.turn with
  | .event _ (.nat q) => .next (if s.queueActive q true then s.serveQueue q (fun _ => true) (State.actPacket q) else s)
  | _ => .next s

/-- CONTEXT_LOADED: the record has been read and checked (R98, R131). -/
def execContextLoaded (s : State) : Out :=
  match s.turn with
  | .event _ (.nat a) =>
    let c := s.ctx a
    if c.st = .loading then
      match s.readBreaks a c.rcd with
      | (none, t) => .next (s.rewind t)
      | (some bps, s) => .next (s.setCtx a { s.ctx a with st := .ready, bps := bps })
    else .next s
  | _ => .next s

/-- Removes what is tagged with a context's identifier (R99). -/
def State.dropTagged (s : State) (a : Nat) : State :=
  let s := s.invalidateAll a
  { s with dsp := { s.dsp with pageWaits := s.dsp.pageWaits.filter (fun x => decide (x.1 ≠ a)) } }

/-- Held writes of a context's LAUNCH and capture packets are discarded (R397), with the references of their grids. -/
def State.dropHeld (s : State) (a : Nat) : State :=
  let gone := (s.dsp.queues.flatMap (fun q => q.2.held)).filter (fun h => decide (h.cw.asid = some a))
  let s := { s with dsp := { s.dsp with queues := SMap.mapV {} s.dsp.queues (fun _ x =>
      { x with held := x.held.filter (fun h => decide (h.cw.asid ≠ some a)) }) } }
  gone.foldl (fun (s : State) h => s.releaseObj h.obj) s

/-- Whether a grid's word is this chip's to write and is not written (R104, R115): all its teams have retired here, or
something has ended it. -/
def Grid.wordDue (g : Grid) : Bool :=
  g.active && g.regen.isNone && !g.moved && (decide (g.retired = g.size) || g.endWith.isSome)

/-- A grid whose last team does not retire here leaves this chip: its deferred set, empty but in a DET grid, and its
snapshot go to firmware, which carries them to the target (R104, R344). -/
def State.carryGrid (s : State) (k : Nat) : State :=
  let g := s.grid k
  let s := s.dropGrid k
  if g.started then
    { s with dsp := { s.dsp with carried := s.dsp.carried ++ [⟨g.asid, g.launch.seq, g.deferred, g.qr⟩] } }
  else s

/-- ERASURE_COMPLETE: the identifier is released (R98, R99, R397), once every word that this chip owes the context is
written and its engine commands are done (R104, R115). Grids that run on at a MOVE's target leave here. -/
def execErasureComplete (s : State) : Out :=
  match s.turn with
  | .event _ (.nat a) =>
    let ks := s.gridsOf a
    if (s.ctx a).st = .wiped ∧ (s.ctx a).capStop = none ∧ ks.any (fun k => (s.grid k).wordDue) = false ∧
        (s.commands ++ s.dsp.pg).any (fun c => !c.fw && decide (s.asidOf c.team = a)) = false ∧
        s.dsp.late.any (fun x => decide (x.asid = some a)) = false then
      .next ((((ks.foldl State.carryGrid s).dropTagged a).dropHeld a).setCtx a {})
    else .next s
  | _ => .next s

/-- CAPSTOP_COMPLETE: every team of every captured grid has retired, and every record is written or counted (R120, R122). -/
def execCapstopComplete (s : State) : Out :=
  match s.turn with
  | .event _ (.nat a) =>
    let c := s.ctx a
    match c.capStop with
    | none => .next s
    | some cw =>
      let open_ := s.grids.any (fun e => e.2.captured && e.2.live && decide (e.2.asid = a) && decide (e.2.endWith = none) &&
        decide (e.2.retired < e.2.size))
      let late := s.dsp.late.any (fun x => decide (x.kind = .trace ∧ x.asid = some a))
      if open_ || late then .next s
      else
        match if c.rcd.trpages = 0 then (Disp.ok (), s)
          else s.dispStore (some a) c.rcd.trbase (leBytes 8 c.capWrites ++ leBytes 8 c.capDrops) false with
        | (.wait _, s) => .next s
        | (_, s) =>
          let s := s.setCtx a { s.ctx a with cap := .off, capStop := none }
          .next (s.complete cw (Nat.min c.capDrops (2 ^ 24 - 1) * 256))
  | _ => .next s

end Sys2Proof.Machine
end

