-- ==== Sys2Proof/Machine/CopyEngine.lean ====
section
/-! DEFINITION. The copy engine (R252 to R257). A command first reads all its sources, then makes one line write or
one arrival update in each of its turns (DESIGN CHOICE log 3). -/

namespace Sys2Proof.Machine

/-! ## Plans (R254, R255) -/

/-- What a command's reading comes to: units, what it waits for, and the state after the reads. -/
abbrev Planned := List PlanUnit × Option PageWait × State

/-- One contiguous copy. -/
def State.planCopy (s : State) (c : Cmd) (dst src n : Nat) : Planned :=
  let x := s.readStretches c (copyStretches dst src n)
  (runUnits dst x.1, x.2)

/-- COPY2D: the first k rows (R254). -/
def State.planRows (s : State) (c : Cmd) (k : Nat) : Planned :=
  match k with
  | 0 => ([], none, s)
  | j + 1 =>
    let a := State.planRows s c j
    let b := a.2.2.planCopy c (rowStart c.dst (c.word 5) j) (rowStart c.src (c.word 4) j) c.count
    (a.1 ++ b.1, a.2.1.or b.2.1, b.2.2)

/-- The error of an index that could not be read. -/
def badIndex (bs : List SrcByte) : Option (Nat × Nat × Nat) := lowestErr bs

/-- The bytes of GATHER, element by element (R254): a poisoned index gives zero, poisoned. -/
def State.gatherBytes (s : State) (c : Cmd) (ixs : List (List SrcByte)) : List SrcByte × Option PageWait × State :=
  match ixs with
  | [] => ([], none, s)
  | b :: r =>
    let x : List SrcByte × Option PageWait × State :=
      match badIndex b with
      | some e => (List.replicate c.esize { err := some e }, none, s)
      | none =>
        if b.any (·.poison) then (List.replicate c.esize { poison := true }, none, s)
        else s.readStretch c (c.src + indexOf c.extent b * c.esize) c.esize
    let y := State.gatherBytes x.2.2 c r
    (x.1 ++ y.1, x.2.1.or y.2.1, y.2.2)

/-- The units of SCATTER, element by element from number k on (R254), and the error of an index, which ends it: one that
cannot be read, or a poisoned one, at the index's address (R257, DEDUCED log 32). -/
def State.scatterUnits (s : State) (c : Cmd) (k : Nat) (ixs : List (List SrcByte)) :
    (List PlanUnit × List PlanItem) × Option PageWait × State :=
  match ixs with
  | [] => (([], []), none, s)
  | b :: r =>
    match badIndex b with
    | some e => (([], [.fail e.1 e.2.1 e.2.2]), none, s)
    | none =>
      if b.any (·.poison) then (([], [.fail 5 0 (addr64 (c.word 4 + 4 * k))]), none, s)
      else
        let x := s.planCopy c (addr64 (c.dst + indexOf c.extent b * c.esize)) (addr64 (c.src + k * c.esize)) c.esize
        let y := State.scatterUnits x.2.2 c (k + 1) r
        ((x.1 ++ y.1.1, y.1.2), x.2.1.or y.2.1, y.2.2)

/-- FILL: the pattern's bytes (R254). -/
def Cmd.fillBytes (c : Cmd) : List SrcByte :=
  (List.range c.count).map (fun i => { val := c.src / 2 ^ (8 * (i % 8)) % 256 })

/-- Bit i of a string of source bytes. -/
def srcBit (bs : List SrcByte) (i : Nat) : Bool := (bs.getD (i / 8) {}).val.testBit (i % 8)

/-- A byte whose bits are given for positions 0 to 7: none where the bit keeps its value. -/
def bitsByte (f : Nat → Option Bool) (deps : List SrcByte) : SrcByte :=
  (List.range 8).foldl (fun (x : SrcByte) i =>
    match f i with
    | some b => { x with mask := x.mask + 2 ^ i, val := x.val + if b then 2 ^ i else 0 }
    | none => x) { mask := 0, poison := deps.any (·.poison), err := lowestErr deps }

/-- PLANES from packed elements (R255): byte o of the plane side. -/
def packedToPlane (c : Cmd) (src : List SrcByte) (o : Nat) : SrcByte :=
  let sh := planeShape c.fmt
  let b := sh.1
  let q0 := o / (8 * b) * 64 + o % 8 * 8
  let k := o % (8 * b) / 8
  let bit (q : Nat) : Nat := q * sh.2.1 + sh.2.2 + (b - 1 - k)
  let elem (q : Nat) : List SrcByte :=
    (List.range ((sh.2.1 + 7) / 8 + 1)).filterMap (fun j =>
      let at_ := q * sh.2.1 / 8 + j
      if at_ ≤ ((q + 1) * sh.2.1 - 1) / 8 then src[at_]? else none)
  bitsByte (fun i => if q0 + i < c.count then some (srcBit src (bit (q0 + i))) else none)
    ((List.range 8).flatMap (fun i => if q0 + i < c.count then elem (q0 + i) else []))

/-- PLANES to packed elements (R255): byte o of the packed side. -/
def planeToPacked (c : Cmd) (src : List SrcByte) (o : Nat) : SrcByte :=
  let sh := planeShape c.fmt
  let b := sh.1
  let h := sh.2.1
  let at_ (q k : Nat) : Nat := q / 64 * 8 * b + 8 * k + q % 64 / 8
  let qs := (List.range 8).map (fun i => (8 * o + i) / h)
  bitsByte (fun i =>
    let q := (8 * o + i) / h
    let p := (8 * o + i) % h
    if q < c.count then
      some (decide (sh.2.2 ≤ p ∧ p < sh.2.2 + b) && srcBit src (8 * at_ q (b - 1 - (p - sh.2.2)) + q % 8))
    else none)
    (qs.eraseDups.flatMap (fun q => if q < c.count then (List.range b).filterMap (fun k => src[at_ q k]?) else []))

/-- What a command's plan comes to: items, what it waits for, and the state after the reads. -/
abbrev CePlan := List PlanItem × Option PageWait × State

/-- The plan of a well-formed command: every source is read (R234), and the lines follow in the order of their writes
(R254). -/
def State.planCe (s : State) (c : Cmd) : CePlan :=
  let n := c.count
  match c.op with
  | 1 =>
    let x := s.planCopy c c.dst c.src n
    (planOf x.1, x.2)
  | 2 =>
    let x := s.planRows c c.rows
    (planOf x.1, x.2)
  | 3 =>
    let ix := s.readIndexes c n
    let x := ix.2.2.gatherBytes c ix.1
    (planOf (runUnits c.dst x.1), ix.2.1.or x.2.1, x.2.2)
  | 4 =>
    let ix := s.readIndexes c n
    let x := ix.2.2.scatterUnits c 0 ix.1
    (cutPlan (planOf x.1.1 ++ x.1.2), ix.2.1.or x.2.1, x.2.2)
  | 5 => (planOf (runUnits c.dst c.fillBytes), none, s)
  | _ =>
    if c.toPlanes then
      let x := s.readStretches c (copyStretches c.src c.src c.packedBytes)
      (planOf (runUnits c.dst ((List.range c.planeBytes).map (packedToPlane c x.1))), x.2)
    else
      let x := s.readStretches c (copyStretches c.src c.src c.planeBytes)
      (planOf (runUnits c.dst ((List.range c.packedBytes).map (planeToPacked c x.1))), x.2)

/-! ## Turns of a command -/

/-- Replaces or removes the command at an index of a core's queue. -/
def State.putCe (s : State) (core idx : Nat) (c : Option Cmd) : State :=
  let k := s.coreAt core
  s.setCore core { k with ce := match c with
    | some c => k.ce.set idx c
    | none => k.ce.eraseIdx idx }

/-- The command leaves the queue when nothing is left to do (R252). -/
def State.keepCe (s : State) (core idx : Nat) (c : Cmd) : State :=
  match c.plan with
  | some [] => s.putCe core idx none
  | _ => s.putCe core idx (some c)

/-- A command starts: malformed, or waiting for an earlier write of its sources, or all its sources read (R234,
R256). Its claims become the lines its plan writes. -/
def State.startCe (s : State) (core idx : Nat) (c : Cmd) : State :=
  if !s.ceOk c then s.putCe core idx (some { c with plan := some [.fail 1 0 0], claims := [], srcs := [] })
  else
    let rs := s.ceRegions c
    if s.srcWaits c.num (s.regionLines c .load rs.2) then s
    else
      let x := s.planCe c
      match x.2.1 with
      | some p => (s.asked x.2.2).holdCmd c p
      | none =>
        let s := x.2.2
        let items := s.keyPlan c x.1
        s.keepCe core idx { s.cmdNow c with plan := some items, claims := planKeys items, srcs := [], page := none }

/-- One turn of a command (R251, R252, R257). -/
def State.advanceCe (s : State) (core idx : Nat) (c : Cmd) : State :=
  match c.plan with
  | none => s.startCe core idx c
  | some [] => s.putCe core idx none
  | some (it :: rest) =>
    match s.runPlan c it rest with
    | .wait s => s
    | .stop s => s.putCe core idx none
    | .left xs wrote s =>
      s.keepCe core idx { s.cmdNow c with plan := some xs, claims := planKeys xs, page := none, wrote := wrote }

/-- An event of a core's copy engine: the command at an index takes a turn, where it has the event's operation and
every earlier command has started (R252). A command whose OP names no operation goes with COPY. -/
def ceEvent (s : State) (op : Nat) : Out :=
  match s.turn with
  | .event _ (.nat2 core idx) =>
    let q := (s.coreAt core).ce
    match q.drop idx with
    | [] => .next s
    | c :: _ =>
      if (c.op = op ∨ (op = 1 ∧ (c.op = 0 ∨ 6 < c.op))) ∧ (q.take idx).all (fun d => d.plan.isSome) = true then
        .next (s.advanceCe core idx c)
      else .next s
  | _ => .next s

/-- COPY (R254). -/
def execCopy (s : State) : Out := ceEvent s 1
/-- COPY2D (R254). -/
def execCopy2d (s : State) : Out := ceEvent s 2
/-- GATHER (R254). -/
def execGather (s : State) : Out := ceEvent s 3
/-- SCATTER (R254). -/
def execScatter (s : State) : Out := ceEvent s 4
/-- FILL (R254). -/
def execFill (s : State) : Out := ceEvent s 5
/-- PLANES (R255). -/
def execPlanes (s : State) : Out := ceEvent s 6

end Sys2Proof.Machine
end

