-- ==== Sys2Proof/Machine/Special.lean ====
section
/-! DEFINITION. The special functions of R53 and R54: reciprocal, reciprocal square root, exp2, log2, sin,
cos and tanh, each correctly rounded to nearest even. A value that is not a quotient of naturals is enclosed
in fixed point between two bounds; when both round alike that is the result, else a finer enclosure is tried
(DEDUCED log 19). -/

namespace Sys2Proof.Machine

/-- The sum of z^(2k+1) / (2k+1) over k, in fixed point of P fraction bits: the inverse hyperbolic tangent of
z, or with alternating signs the inverse tangent. `t` is the current power z^(2k+1). -/
def atanSeries (alt : Bool) (fuel P : Nat) (z2 t k : Int) : Int :=
  match fuel with
  | 0 => 0
  | n + 1 =>
    let term := t / (2 * k + 1)
    let rest := atanSeries alt n P z2 (t * z2 / (2 ^ P : Nat)) (k + 1)
    if alt then term - rest else term + rest

/-- Inverse hyperbolic tangent of a fixed-point z, at most 1/3. -/
def fxAtanh (P : Nat) (z : Int) : Int := atanSeries false (P / 3 + 4) P (z * z / (2 ^ P : Nat)) z 0

/-- Inverse tangent of 1 / n, for n at least 5. -/
def fxAtanInv (P n : Nat) : Int :=
  let z : Int := ((2 ^ P / n : Nat) : Int)
  atanSeries true (P / 4 + 4) P (z * z / (2 ^ P : Nat)) z 0

/-- The natural logarithm of 2, as twice the inverse hyperbolic tangent of 1/3. -/
def fxLn2 (P : Nat) : Int := 2 * fxAtanh P ((2 ^ P / 3 : Nat) : Int)

/-- Pi, as 16 atan(1/5) - 4 atan(1/239). -/
def fxPi (P : Nat) : Int := 16 * fxAtanInv P 5 - 4 * fxAtanInv P 239

/-- The Taylor terms t * y^j / ((k+1) ... (k+j)) summed over j. -/
def expSeries (fuel P : Nat) (y t k : Int) : Int :=
  match fuel with
  | 0 => 0
  | n + 1 => t + expSeries n P y (t * y / (2 ^ P : Nat) / (k + 1)) (k + 1)

/-- The exponential of a fixed-point y from 0 to 1. -/
def fxExp (P : Nat) (y : Int) : Int := expSeries (P / 3 + 8) P y ((2 ^ P : Nat) : Int) 0

/-- Alternating Taylor sums of sine (k = 1) and cosine (k = 0). -/
def trigSeries (fuel P : Nat) (y2 t k : Int) : Int :=
  match fuel with
  | 0 => 0
  | n + 1 => t - trigSeries n P y2 (t * y2 / (2 ^ P : Nat) / ((k + 1) * (k + 2))) (k + 2)

/-- Sine of a fixed-point y from 0 to 2. -/
def fxSin (P : Nat) (y : Int) : Int := trigSeries (P / 6 + 8) P (y * y / (2 ^ P : Nat)) y 1
/-- Cosine of a fixed-point y from 0 to 2. -/
def fxCos (P : Nat) (y : Int) : Int := trigSeries (P / 6 + 8) P (y * y / (2 ^ P : Nat)) ((2 ^ P : Nat) : Int) 0

/-- The fixed-point image of n / d. -/
def fxOf (P n d : Nat) : Int := ((n * 2 ^ P / d : Nat) : Int)

/-- Quadrant and remainder of n / d modulo a half turn of pi / 2, exactly reduced (R53). -/
def fxReduce (P n d : Nat) : Int × Int :=
  let g := 160
  let x := fxOf (P + g) n d
  let hp := fxPi (P + 2 * g) / ((2 ^ (g + 1) : Nat) : Int)
  let hpFine := fxPi (P + 2 * g) / 2
  let k := x / hp
  (k, (x * ((2 ^ g : Nat) : Int) - k * hpFine) / ((2 ^ (2 * g) : Nat) : Int))

/-- A fixed-point approximation with P fraction bits, scaled by 2^s. -/
structure Approx where
  v : Int
  s : Int
  deriving DecidableEq, Repr

/-- 2 to the power (-1)^neg n / d. -/
def fxExp2 (P : Nat) (neg : Bool) (n d : Nat) : Approx :=
  let x := signedNum neg (n * 2 ^ P) / (d : Int)
  let k := x / ((2 ^ P : Nat) : Int)
  let fr := x - k * ((2 ^ P : Nat) : Int)
  ⟨fxExp P (fr * fxLn2 P / ((2 ^ P : Nat) : Int)), k⟩

/-- The base-2 logarithm of n / d. -/
def fxLog2 (P n d : Nat) : Approx :=
  let e := ratLog2 n d
  let m : Int := if 0 ≤ e then ((n * 2 ^ P / (d * 2 ^ e.toNat) : Nat) : Int) else ((n * 2 ^ (-e).toNat * 2 ^ P / d : Nat) : Int)
  let one : Int := ((2 ^ P : Nat) : Int)
  let z := (m - one) * one / (m + one)
  ⟨e * one + 2 * fxAtanh P z * one / fxLn2 P, 0⟩

/-- Sine or cosine of n / d, for n / d not negative. -/
def fxTrig (P : Nat) (cosine : Bool) (n d : Nat) : Approx :=
  let r := fxReduce P n d
  let q := (r.1 + (if cosine then 1 else 0)) % 4
  let v := if q % 2 = 0 then fxSin P r.2 else fxCos P r.2
  ⟨if 2 ≤ q then -v else v, 0⟩

/-- Hyperbolic tangent of n / d, for n / d positive and below 64. -/
def fxTanh (P n d : Nat) : Approx :=
  let one : Int := ((2 ^ P : Nat) : Int)
  let y := fxOf P (2 * n) d
  let k := y / fxLn2 P
  let e := fxExp P (y - k * fxLn2 P) * ((2 ^ k.toNat : Nat) : Int)
  ⟨(e - one) * one / (e + one), 0⟩

/-- Rounds to nearest even a value known only to lie within 2^(24-P+s) of v 2^(s-P), if both ends round
alike; NX is raised, the value being no quotient of naturals. -/
def roundApprox (f : FFmt) (P : Nat) (a : Approx) : Option (Nat × Flags) :=
  let err : Int := ((2 ^ 24 : Nat) : Int)
  let one (x : Int) : Nat × Flags :=
    if 0 ≤ a.s then f.round 0 (decide (x < 0)) (x.natAbs * 2 ^ a.s.toNat) (2 ^ P)
    else f.round 0 (decide (x < 0)) x.natAbs (2 ^ (P + (-a.s).toNat))
  let lo := one (a.v - err)
  let hi := one (a.v + err)
  if lo.1 = hi.1 ∧ (lo.2 ||| flagNX) = (hi.2 ||| flagNX) then some (lo.1, lo.2 ||| flagNX) else none

/-- Tries finer and finer enclosures; the last one decides in any case (DEDUCED log 19). -/
def roundRefined (f : FFmt) (g : Nat → Approx) (ps : List Nat) : Nat × Flags :=
  match ps with
  | [] => (f.canonicalNaN, flagNX)
  | P :: r => match roundApprox f P (g P) with
    | some o => o
    | none => roundRefined f g r

/-- The precisions tried, in fraction bits. -/
def refineBits : List Nat := [400, 800, 1600]

/-- Reciprocal (R54). -/
def fRcp (f : FFmt) (x : Nat) : Nat × Flags := fDiv f 0 (f.pack false (f.bias * 2 ^ f.m)) x

/-- Reciprocal square root (R54). -/
def fRsq (f : FFmt) (x : Nat) : Nat × Flags :=
  match f.decode x with
  | .nan s => (f.canonicalNaN, flagIf s flagNV)
  | .inf s => if s then (f.canonicalNaN, flagNV) else (f.pack false 0, 0)
  | .fin s n d =>
    if n = 0 then (f.pack s (f.maxMag + 1), flagDZ)
    else if s then (f.canonicalNaN, flagNV)
    else
      let r := sqrtQuot f.sqrtBits d n
      f.round 0 false r.1 r.2

/-- exp2 (R54). Beyond 2^(E+1) in size the result overflows or vanishes whatever the fraction. -/
def fExp2 (f : FFmt) (x : Nat) : Nat × Flags :=
  match f.decode x with
  | .nan s => (f.canonicalNaN, flagIf s flagNV)
  | .inf s => if s then (f.pack false 0, 0) else (f.pack false (f.maxMag + 1), 0)
  | .fin s n d =>
    if 2 ^ (f.E + 1) * d ≤ n then
      if s then f.round 0 false 1 (2 ^ 2 ^ (f.E + 1)) else f.round 0 false (2 ^ 2 ^ (f.E + 1)) 1
    else if n % d = 0 then
      if s then f.round 0 false 1 (2 ^ (n / d)) else f.round 0 false (2 ^ (n / d)) 1
    else roundRefined f (fun P => fxExp2 P s n d) refineBits

/-- log2 (R54). -/
def fLog2 (f : FFmt) (x : Nat) : Nat × Flags :=
  match f.decode x with
  | .nan s => (f.canonicalNaN, flagIf s flagNV)
  | .inf s => if s then (f.canonicalNaN, flagNV) else (f.pack false (f.maxMag + 1), 0)
  | .fin s n d =>
    if n = 0 then (f.pack true (f.maxMag + 1), flagDZ)
    else if s then (f.canonicalNaN, flagNV)
    else
      let e := ratLog2 n d
      if (if 0 ≤ e then decide (n = d * 2 ^ e.toNat) else decide (n * 2 ^ (-e).toNat = d)) then
        f.round 0 (decide (e < 0)) e.natAbs 1
      else roundRefined f (fun P => fxLog2 P n d) refineBits

/-- sin (R54). -/
def fSin (f : FFmt) (x : Nat) : Nat × Flags :=
  match f.decode x with
  | .nan s => (f.canonicalNaN, flagIf s flagNV)
  | .inf _ => (f.canonicalNaN, flagNV)
  | .fin s n d =>
    if n = 0 then (f.pack s 0, 0)
    else roundRefined f (fun P => let a := fxTrig P false n d; ⟨if s then -a.v else a.v, a.s⟩) refineBits

/-- cos (R54). -/
def fCos (f : FFmt) (x : Nat) : Nat × Flags :=
  match f.decode x with
  | .nan s => (f.canonicalNaN, flagIf s flagNV)
  | .inf _ => (f.canonicalNaN, flagNV)
  | .fin _ n d =>
    if n = 0 then f.round 0 false 1 1
    else roundRefined f (fun P => fxTrig P true n d) refineBits

/-- tanh (R54). From 64 on the value lies above 1 - 2^-100 and below 1. -/
def fTanh (f : FFmt) (x : Nat) : Nat × Flags :=
  match f.decode x with
  | .nan s => (f.canonicalNaN, flagIf s flagNV)
  | .inf s => f.round 0 s 1 1
  | .fin s n d =>
    if n = 0 then (f.pack s 0, 0)
    else if 64 * d ≤ n then f.round 0 s (2 ^ 100 - 1) (2 ^ 100)
    else roundRefined f (fun P => let a := fxTanh P n d; ⟨if s then -a.v else a.v, a.s⟩) refineBits

end Sys2Proof.Machine
end

