-- ==== Sys2Proof/Machine/Convert.lean ====
section
/-! DEFINITION. Conversions (R57, R58), Q16 (R37 to R40), E8M0 (R41, R58) and the codes of types and matrix
formats (R43, R70). -/

namespace Sys2Proof.Machine

/-- The kind of a scalar number format: floating point, integer of a width, sign, or Q16 index. -/
inductive NumKind where
  | flt (f : FFmt)
  | int (sg : Bool) (w : Nat)
  | s1
  | q16
  deriving DecidableEq, Repr

/-- The format of a lane float type code of two bits (R70). -/
def laneFloat (t : Nat) : FFmt :=
  match t with
  | 0 => fmtF16
  | 1 => fmtB16
  | 2 => fmtF32
  | _ => fmtF64

/-- The kind of a lane type code (R70). -/
def laneKind (t : Nat) : NumKind :=
  match t with
  | 0 => .int true 8
  | 1 => .int true 16
  | 2 => .int true 32
  | 3 => .int true 64
  | 4 => .int false 8
  | 5 => .int false 16
  | 6 => .int false 32
  | 7 => .int false 64
  | 8 => .flt fmtF16
  | 9 => .flt fmtB16
  | 10 => .flt fmtF32
  | _ => .flt fmtF64

/-- The component kind of a matrix format code (R43); a complex format's component is its kind here. -/
def matrixKind (c : Nat) : NumKind :=
  match c with
  | 0x00 | 0x13 => .flt fmtF64
  | 0x01 | 0x14 => .flt fmtF32
  | 0x02 | 0x15 => .flt fmtF16
  | 0x03 | 0x16 => .flt fmtB16
  | 0x04 => .flt fmtF19
  | 0x05 => .flt fmtE5M2
  | 0x06 => .flt fmtE4M3
  | 0x07 => .flt fmtE3M2
  | 0x08 => .flt fmtE2M3
  | 0x09 => .flt fmtE2M1
  | 0x0A => .int true 32
  | 0x0B => .int true 16
  | 0x0C | 0x17 => .int true 8
  | 0x0D => .int false 8
  | 0x0E => .int true 4
  | 0x0F => .int false 4
  | 0x10 => .int true 2
  | 0x11 => .s1
  | _ => .q16

/-- Rounds a finite exact value to an integer under a mode, with whether it is inexact. -/
def roundToInt (mode : Nat) (neg : Bool) (n d : Nat) : Int × Bool :=
  let k := roundMag mode neg n d 0
  (signedNum neg k.1, k.2)

/-- Floating point to an integer of width w (R57): saturates with NV, a NaN gives 0 with NV, NX when inexact
and in range. -/
def floatToInt (sg : Bool) (w mode : Nat) (v : FVal) : Nat × Flags :=
  match v with
  | .nan _ => (0, flagNV)
  | .inf s => (wrapInt w (if s then intMin sg w else intMax sg w), flagNV)
  | .fin s n d =>
    let r := roundToInt mode s n d
    if r.1 < intMin sg w then (wrapInt w (intMin sg w), flagNV)
    else if intMax sg w < r.1 then (wrapInt w (intMax sg w), flagNV)
    else (wrapInt w r.1, flagIf r.2 flagNX)

/-- The number that stands for a zeroed element of a tile (R282): no encoding, since S1 and Q16 hold no zero. -/
def zeroed : Nat := 2 ^ 64

/-- The value of an S1 encoding (R36). -/
def s1Value (x : Nat) : Int := if x = zeroed then 0 else if x % 2 = 1 then -1 else 1

/-- The level L of a Q16 index (R37). -/
def q16Level (i : Nat) : Int :=
  if i = zeroed then 0 else
  match i % 16 with
  | 0 => -127
  | 1 => -90
  | 2 => -69
  | 3 => -53
  | 4 => -39
  | 5 => -27
  | 6 => -16
  | 7 => -5
  | 8 => 5
  | 9 => 16
  | 10 => 27
  | 11 => 39
  | 12 => 53
  | 13 => 69
  | 14 => 90
  | _ => 127

/-- The index among the first n whose level is nearest to t = num / den; on a tie the level of smaller size
(R40). -/
def q16Nearest (n : Nat) (num : Int) (den : Nat) : Nat :=
  match n with
  | 0 => 0
  | 1 => 0
  | k + 1 =>
    let b := q16Nearest k num den
    let dist (i : Nat) : Nat := (num - q16Level i * (den : Int)).natAbs
    if dist k < dist b ∨ (dist k = dist b ∧ (q16Level k).natAbs < (q16Level b).natAbs) then k else b

/-- Quantisation to a Q16 index under an effective scale c (R40). -/
def q16Quantise (x c : FVal) : Nat × Flags :=
  match x, c with
  | .nan _, _ => (8, flagNV)
  | _, .nan _ => (8, flagNV)
  | _, .inf _ => (8, flagNV)
  | .inf s, .fin t k _ =>
    if k = 0 then (8, flagNV) else (if s = t then 15 else 0, flagOF ||| flagNX)
  | .fin s n d, .fin t k e =>
    if k = 0 then (8, flagNV)
    else if n = 0 then (if s = t then 8 else 7, flagNX)
    else
      let num := signedNum (s != t) (n * e * 127)
      let den := d * k
      let i := q16Nearest 16 num den
      (i, flagIf (decide (127 * den < num.natAbs)) flagOF ||| flagIf (decide (num ≠ q16Level i * (den : Int))) flagNX)

/-- Dequantisation with an effective scale c given exactly (R39, R192). -/
def q16Dequantise (f : FFmt) (mode i : Nat) (c : FVal) : Nat × Flags :=
  let l := q16Level i
  deliverExact f mode (mulExact (.fin (decide (l < 0)) l.natAbs 127) c)

/-- The effective scale (q + 1) / 256 times S (R38), exact. -/
def q16Scale (q : Nat) (S : FVal) : FVal := (mulExact (.fin false (q + 1) 256) S).1

/-- A value to an E8M0 scale (R58). -/
def toE8M0 (v : FVal) : Nat × Flags :=
  match v with
  | .nan _ => (0xFF, flagNV)
  | .inf _ => (0xFF, flagNV)
  | .fin _ n d =>
    if n = 0 then (0, flagNX)
    else
      let e := ratLog2 n d
      if e < -127 then (0, flagNX)
      else if 127 < e then (0xFE, flagNX)
      else
        let exact := if 0 ≤ e then decide (n = d * 2 ^ e.toNat) else decide (n * 2 ^ (-e).toNat = d)
        ((e + 127).toNat, flagIf (!exact) flagNX)

/-- The value of an E8M0 scale (R41). -/
def ofE8M0 (e : Nat) : FVal :=
  if e % 256 = 255 then .nan false
  else if 127 ≤ e % 256 then .fin false (2 ^ (e % 256 - 127)) 1
  else .fin false 1 (2 ^ (127 - e % 256))

/-- The exact value of an element of a kind, Q16 as its level alone (R57). -/
def numValue (k : NumKind) (x : Nat) : FVal :=
  match k with
  | .flt f => f.decode x
  | .int sg w => .ofInt (readInt sg w x)
  | .s1 => .ofInt (s1Value x)
  | .q16 => .ofInt (q16Level x)

/-- Conversion between kinds other than Q16 (R57). An integer goes to a narrower integer in the saturating
form, which raises IV when it clamps; so does -1 from S1 to an unsigned type, and a conversion to S1 raises NV alone
(DESIGN CHOICE log 74). -/
def convertNum (src dst : NumKind) (mode x : Nat) : Nat × Flags :=
  match dst with
  | .flt f =>
    let v := numValue src x
    let o := f.deliver mode v
    (o.1, v.sigFlag ||| o.2)
  | .int sg w =>
    match src with
    | .flt f => floatToInt sg w mode (f.decode x)
    | .int sg' w' =>
      if w' = w then (x % 2 ^ w, 0) else
      if w' < w then (wrapInt w (readInt sg' w' x), 0) else clampInt flagIV sg w (readInt sg' w' x)
    | .s1 => clampInt flagIV sg w (s1Value x)
    | .q16 => clampInt flagIV sg w (q16Level x)
  | .s1 =>
    match numValue src x with
    | .nan _ => (0, flagNV)
    | v => (if v.neg then 1 else 0, 0)
  | .q16 => q16Quantise (numValue src x) (.fin false 1 1)

/-- The low w bits of an integer source read by its own signedness (CVTW, R57). -/
def convertWrap (sg : Bool) (ws wd x : Nat) : Nat := wrapInt wd (readInt sg ws x)

/-- The holder width h of a packed narrow format (R192). -/
def holderWidth (c : Nat) : Nat :=
  match c with
  | 0x09 | 0x0E | 0x0F | 0x12 => 4
  | 0x10 => 2
  | 0x11 => 1
  | _ => 8

end Sys2Proof.Machine
end

