-- ==== Sys2Proof/Machine/LaneCross.lean ====
section
/-! DEFINITION. Cross-lane instructions (R193 to R198). -/

namespace Sys2Proof.Machine

/-- A shuffle (R194): for each sub-element i of width w, `src l i` names a lane index and a sub-element; `bs` are
the further register fields read in the lane itself. The result is poisoned when those are, or when a source
lane's a is. -/
def shuffle (s : State) (w d a : Nat) (bs : List Nat) (src : Run → Lane → Nat → Nat → Nat × Nat) : Out :=
  crossOp s (d :: a :: bs) (fun r gw t n l =>
    let e := 64 / w
    let pick (i : Nat) : VReg × Nat :=
      let q := src r l (n % gw) i
      (t.groupReg r gw n q.1 a, q.2)
    let o := packElems w e (fun i => let p := pick i; noFlag (subElem p.1.val p.2 w))
    let poison := bs.any (fun b => (l.reg r.trap b).poison) || (List.range e).any (fun i => (pick i).1.poison)
    { regs := [(d, ⟨BitVec.ofNat 64 o.1, poison⟩)] })

/-- l - k modulo any power of two up to 64. -/
def laneDown (l k : Nat) : Nat := l + 2 ^ 64 - k

/-- SHFL by register: lane and sub-element from each sub-element of b (R194). -/
def execShfl (w : BitVec 2) (b a d : BitVec 6) (s : State) : Out :=
  shuffle s (widthOf w) d.toNat a.toNat [b.toNat] (fun r l _ i =>
    let x := subElem (l.reg r.trap b.toNat).val i (widthOf w)
    (x / (64 / widthOf w), x % (64 / widthOf w)))

/-- SHFLX by register: lane XOR (R194). -/
def execShflx (w : BitVec 2) (b a d : BitVec 6) (s : State) : Out :=
  shuffle s (widthOf w) d.toNat a.toNat [b.toNat] (fun r l n i =>
    let x := subElem (l.reg r.trap b.toNat).val i (widthOf w)
    (n ^^^ x, i))

/-- SHFLU by register: lane minus (R194). -/
def execShflu (w : BitVec 2) (b a d : BitVec 6) (s : State) : Out :=
  shuffle s (widthOf w) d.toNat a.toNat [b.toNat] (fun r l n i =>
    let x := subElem (l.reg r.trap b.toNat).val i (widthOf w)
    (laneDown n x, i))

/-- SHFLD by register: lane plus (R194). -/
def execShfld (w : BitVec 2) (b a d : BitVec 6) (s : State) : Out :=
  shuffle s (widthOf w) d.toNat a.toNat [b.toNat] (fun r l n i =>
    let x := subElem (l.reg r.trap b.toNat).val i (widthOf w)
    (n + x, i))

/-- SHFL by immediate lane and sub-element (R194). -/
def execXiShfl (w : BitVec 2) (l : BitVec 6) (x_s : BitVec 3) (a d : BitVec 6) (s : State) : Out :=
  shuffle s (widthOf w) d.toNat a.toNat [] (fun _ _ _ i =>
    let e := 64 / widthOf w
    let x := l.toNat * e + x_s.toNat + i
    (x / e, x % e))

/-- SHFLX by immediate (R194). -/
def execXiShflx (w : BitVec 2) (l a d : BitVec 6) (s : State) : Out :=
  shuffle s (widthOf w) d.toNat a.toNat [] (fun _ _ n i => (n ^^^ l.toNat, i))

/-- SHFLU by immediate (R194). -/
def execXiShflu (w : BitVec 2) (l a d : BitVec 6) (s : State) : Out :=
  shuffle s (widthOf w) d.toNat a.toNat [] (fun _ _ n i => (laneDown n l.toNat, i))

/-- SHFLD by immediate (R194). -/
def execXiShfld (w : BitVec 2) (l a d : BitVec 6) (s : State) : Out :=
  shuffle s (widthOf w) d.toNat a.toNat [] (fun _ _ n i => (n + l.toNat, i))

/-- Whether p is poisoned in any active lane of a lane's group (R195). -/
def votePoison (r : Run) (gw : Nat) (t : Team) (n p : Nat) : Bool := (r.peers gw n).any (fun m => (t.lane m).predPoison p)

/-- VOTE.any (R195). -/
def execVoteAny (x_s p : BitVec 3) (s : State) : Out :=
  crossOp s [] (fun r gw t n _ =>
    { preds := [(p.toNat, (r.peers gw n).any (fun m => (t.lane m).pred x_s.toNat), votePoison r gw t n x_s.toNat)] })

/-- VOTE.all (R195). -/
def execVoteAll (x_s p : BitVec 3) (s : State) : Out :=
  crossOp s [] (fun r gw t n _ =>
    { preds := [(p.toNat, (r.peers gw n).all (fun m => (t.lane m).pred x_s.toNat), votePoison r gw t n x_s.toNat)] })

/-- VOTE.ballot: bit m for each active lane m in which p is true (R195). -/
def execVoteBallot (x_s : BitVec 3) (d : BitVec 6) (s : State) : Out :=
  crossOp s [d.toNat] (fun r gw t n _ =>
    let mask := (r.peers gw n).foldl (fun k m => if (t.lane m).pred x_s.toNat then k + 2 ^ (m % gw) else k) 0
    { regs := [(d.toNat, ⟨BitVec.ofNat 64 mask, votePoison r gw t n x_s.toNat⟩)] })

/-- MATCH: the active lanes named by b that hold the same key (R196). -/
def execMatchLanes (w : BitVec 2) (b a d : BitVec 6) (s : State) : Out :=
  crossOp s [d.toNat, a.toNat, b.toNat] (fun r gw t n l =>
    let wd := widthOf w
    let key := subElem (l.reg r.trap a.toNat).val 0 wd
    let bv := l.reg r.trap b.toNat
    let mask := (r.peers gw n).foldl (fun k m =>
      if bv.val.getLsbD (m % gw) && decide (subElem ((t.lane m).reg r.trap a.toNat).val 0 wd = key) then k + 2 ^ (m % gw) else k) 0
    let poison := bv.poison || (r.peers gw n).any (fun m => ((t.lane m).reg r.trap a.toNat).poison)
    { regs := [(d.toNat, ⟨BitVec.ofNat 64 mask, poison⟩)] })

/-- One combining step of RDC and SCAN (R197): add, min, max, and, or, xor. -/
def foldStep (o : Nat) (k : NumKind) (acc x : Nat) : Nat × Flags :=
  match k with
  | .flt f =>
    match o with
    | 0 => fAdd f 0 acc x
    | 1 => fMinMax f false acc x
    | _ => fMinMax f true acc x
  | .int sg w =>
    match o with
    | 0 => noFlag ((acc + x) % 2 ^ w)
    | 1 => noFlag (if readInt sg w acc ≤ readInt sg w x then acc else x)
    | 2 => noFlag (if readInt sg w acc ≤ readInt sg w x then x else acc)
    | 3 => noFlag (acc &&& x)
    | 4 => noFlag (acc ||| x)
    | _ => noFlag (acc ^^^ x)
  | _ => noFlag acc

/-- Entering the first operand (R197): exactly, with NV for a signalling NaN, a NaN written canonical. -/
def foldEntry (k : NumKind) (x : Nat) : Nat × Flags :=
  match k with
  | .flt f => if (f.decode x).isNaN then (f.canonicalNaN, (f.decode x).sigFlag) else (x, 0)
  | _ => (x, 0)

/-- The left fold of one or more operands, with the flags of every step (R197). -/
def foldElems (o : Nat) (k : NumKind) (xs : List Nat) : Nat × Flags :=
  match xs with
  | [] => (0, 0)
  | x :: r => r.foldl (fun acc y => let z := foldStep o k acc.1 y; (z.1, acc.2 ||| z.2)) (foldEntry k x)

/-- Combines a register over lanes, each sub-element position separately (R197). -/
def foldLanes (o : Nat) (k : NumKind) (w : Nat) (vs : List VReg) : VReg × Flags :=
  let e := packElems w (64 / w) (fun i => foldElems o k (vs.map (fun v => subElem v.val i w)))
  (⟨BitVec.ofNat 64 e.1, vs.any (·.poison)⟩, e.2)

/-- RDC: every active lane receives the fold over the active lanes (R197). -/
def execRdc (o : BitVec 3) (t : BitVec 4) (a d : BitVec 6) (s : State) : Out :=
  crossOp s [d.toNat, a.toNat] (fun r gw tm n _ =>
    let vs := ((r.peers gw n)).map (fun m => (tm.lane m).reg r.trap a.toNat)
    let x := foldLanes o.toNat (laneKind t.toNat) (typeWidth t.toNat) vs
    { regs := [(d.toNat, x.1)], flags := x.2 })

/-- SCAN: each active lane receives the fold up to its own (R197). -/
def execScan (o : BitVec 3) (t : BitVec 4) (a d : BitVec 6) (s : State) : Out :=
  crossOp s [d.toNat, a.toNat] (fun r gw tm n _ =>
    let vs := ((r.peers gw n).filter (fun m => decide (m ≤ n))).map (fun m => (tm.lane m).reg r.trap a.toNat)
    let x := foldLanes o.toNat (laneKind t.toNat) (typeWidth t.toNat) vs
    { regs := [(d.toNat, x.1)], flags := x.2 })

end Sys2Proof.Machine
end

