-- ==== Sys2Proof/Machine/Exchange.lean ====
section
/-! DEFINITION. The exchange engine (R358 to R367): accepting commands and reading their sources, READY flits and the
begin boundary, results, view changes in flight, and the writes of a completion. -/

namespace Sys2Proof.Machine

/-- Whether the round's view is due (R354). -/
def Fabric.viewDue (f : Fabric) : Bool :=
  match f.round with
  | some b => decide (b + 3 ≤ f.tick)
  | none => false

/-! ## Operations in flight -/

/-- The operation with a number among the chip's. -/
def State.xeOp (s : State) (num : Nat) : Option XeOp := s.fab.xe.find? (fun x => decide (x.cmd.num = num))

/-- Replaces or removes an operation. -/
def State.putXe (s : State) (num : Nat) (x : Option XeOp) : State :=
  { s with fab := { s.fab with xe := match x with
    | some x => s.fab.xe.map (fun y => if y.cmd.num = num then x else y)
    | none => s.fab.xe.filter (fun y => decide (y.cmd.num ≠ num)) } }

/-- The other parties. -/
def XeOp.others (x : XeOp) (chip : Nat) : List Nat := x.parties.filter (fun p => decide (p ≠ chip))

/-- What this chip's READY flits carry (R359). -/
def XeOp.body (x : XeOp) : ReadyBody :=
  ⟨BitVec.ofNat 32 x.cmd.collid, x.cmd.op, x.cmd.rop, x.cmd.ty, x.cmd.count, x.cmd.peer, x.cmd.policy, x.frame, x.cmd.count0, x.aborted⟩

/-- Enqueues the READY flits together (R359); they wait for a tick with room for all. -/
def State.sendReady (s : State) (x : XeOp) : XeOp × State :=
  match s.fab.putAll (x.others s.fab.chip) (.ready x.body) with
  | some y => ({ x with ready := some y.1 }, { s with fab := y.2 })
  | none => ({ x with ready := none }, s)

/-- The result record's bytes (R362): an aborted operation holds no party's data. -/
def State.recordBytes (s : State) (status old new : Nat) : List (Nat × Nat) :=
  (leBytes 8 (status + s.fab.vnum.toNat * 2 ^ 32) ++ leBytes 8 (old + (if 3 ≤ status then 0 else new) * 2 ^ 16)).map
    (fun b => (255, b.toNat))

/-- The item that writes a command's result record, if it has one. -/
def State.recordItem (s : State) (c : Cmd) (status old new : Nat) : List PlanItem :=
  if c.result = 0 then [] else [.write c.result (s.recordBytes status old new) false 0]

/-- An operation ends without its data: its record is left to write, and an error that it reports (R359, R362, R363,
R365) (DEDUCED log 58). -/
def State.abortXe (s : State) (x : XeOp) (status : Nat) (err : List PlanItem) : State :=
  let c := { s.cmdNow x.cmd with plan := some (s.recordItem x.cmd status x.cmd.old 0 ++ err), claims := [], srcs := [] }
  s.putXe x.cmd.num (some { x with cmd := c })

/-! ## Acceptance: the sources are read (R234, R359, R365) -/

/-- The operation of a command in the view in force. -/
def State.newOp (s : State) (c : Cmd) (src : List SrcByte) (aborted : Bool) : XeOp :=
  { cmd := { s.cmdNow c with srcs := [], page := none }, frame := s.fab.vnum.toNat,
    parties := if c.op ≤ 0x14 then s.fab.members else sortNats [s.fab.chip, c.peer],
    src := src.map (fun b => (BitVec.ofNat 8 b.val, b.poison)), ready := none,
    readys := s.fab.early.filter (fun r => decide (r.2.2.collid.toNat = c.collid)),
    begun := none, data := [], taking := [], rerun := false, aborted := aborted }

/-- An accepted command joins the operations in flight, and its READY flits go out. -/
def State.startXe (s : State) (c : Cmd) (src : List SrcByte) (aborted : Bool) : State :=
  let x := s.sendReady (s.newOp c src aborted)
  let f := x.2.fab
  { x.2 with fab := { f with
    xeq := f.xeq.filter (fun d => decide (d.num ≠ c.num))
    xe := f.xe ++ [x.1]
    early := f.early.filter (fun r => decide (r.2.2.collid.toNat ≠ c.collid)) } }

/-- An accepted command that aborts at once: its record alone (R359). -/
def State.refuseXe (s : State) (c : Cmd) : State :=
  let x := s.newOp c [] false
  let f := s.fab
  State.abortXe { s with fab := { f with xeq := f.xeq.filter (fun d => decide (d.num ≠ c.num)), xe := f.xe ++ [x] } } x c.status []

/-- The turn of a queued command (R359, R365): its error, or its end for want of a usable frame, or its sources are
read. -/
def State.acceptXe (s : State) (c : Cmd) : State :=
  if c.code ≠ 0 then
    if s.errorWaits c then s
    else
      let s := s.cmdError c c.code 0 0
      { s with fab := { s.fab with xeq := s.fab.xeq.filter (fun d => decide (d.num ≠ c.num)) } }
  else if c.status ≠ 0 then s.refuseXe c
  else if s.srcWaits c.num c.srcs then s
  else
    let rs := (c.xeRegions s.fab.chip c.count0).2
    let y := s.readStretches c (rs.flatMap (fun r => copyStretches r.1 r.1 r.2))
    match y.2.1 with
    | some p => (s.asked y.2.2).holdCmd c p
    | none =>
      match lowestErr y.1 with
      | some e => if s.errorWaits c then s else (y.2.2.cmdError c e.1 e.2.1 e.2.2).startXe c [] true
      | none => y.2.2.startXe c y.1 false

/-- An event of the exchange engine: the queued command at an index is accepted, where it has the event's operation.
A command whose OP names no operation goes with ALLRED. -/
def xeEvent (s : State) (op : Nat) : Out :=
  match s.turn with
  | .event _ (.nat idx) =>
    match s.fab.xeq.drop idx with
    | [] => .next s
    | c :: _ => if c.op = op ∨ (op = 0x11 ∧ (c.op < 0x11 ∨ 0x16 < c.op)) then .next (s.acceptXe c) else .next s
  | _ => .next s

/-- ALLRED (R360). -/
def execAllred (s : State) : Out := xeEvent s 0x11
/-- REDSCAT (R360). -/
def execRedscat (s : State) : Out := xeEvent s 0x12
/-- ALLGATH (R360). -/
def execAllgath (s : State) : Out := xeEvent s 0x13
/-- BCAST (R360). -/
def execBcast (s : State) : Out := xeEvent s 0x14
/-- SEND (R360). -/
def execSend (s : State) : Out := xeEvent s 0x15
/-- RECV (R360). -/
def execRecv (s : State) : Out := xeEvent s 0x16

/-! ## Beginning (R359) -/

/-- The READY flit of a party. -/
def XeOp.readyOf (x : XeOp) (p : Nat) : Option (Nat × ReadyBody) :=
  (x.readys.find? (fun r => decide (r.1 = p))).map (·.2)

/-- The flits that this chip sends for an operation in each tick after it begins: the schedule's row for its OP and the
class of its COUNT, which is the first class whose largest COUNT holds it (R367, DESIGN CHOICE log 40). -/
def Fabric.row (f : Fabric) (c : Cmd) : Option (List Nat) :=
  (f.schedule.find? (fun r => decide (r.1 = c.op ∧ c.count ≤ r.2.1))).map (·.2.2)

/-- Every party's READY flits are known, and the boundary m + 2 has come; the view's schedule is loaded on every party
(R367). -/
def XeOp.due (x : XeOp) (f : Fabric) : Bool :=
  decide (x.begun = none ∧ x.cmd.plan = none ∧ f.loaded = true) && (f.row x.cmd).isSome &&
    (match x.ready with
      | none => false
      | some t =>
        decide (t + 2 ≤ f.tick) && (x.others f.chip).all (fun p => match x.readyOf p with
          | some r => decide (r.1 + 2 ≤ f.tick)
          | none => false))

/-- Whether a party's READY agrees with this chip's command (R365). -/
def XeOp.agrees (x : XeOp) (chip : Nat) (r : ReadyBody) : Bool :=
  let c := x.cmd
  decide (r.rop = c.rop ∧ r.ty = c.ty ∧ r.count = c.count ∧ r.policy = c.policy ∧ r.frame = x.frame) &&
    (if c.op = 0x15 ∨ c.op = 0x16 then decide (r.op = 0x2B - c.op ∧ r.peer = chip) else decide (r.op = c.op ∧ r.peer = c.peer))

/-- The bodies of the other parties' READY flits. -/
def XeOp.bodies (x : XeOp) (chip : Nat) : List ReadyBody := (x.others chip).filterMap (fun p => (x.readyOf p).map (·.2))

/-- Whether the sizes of REDSCAT and ALLGATH, set at the pushes, still fit the frame (R359). -/
def XeOp.sized (x : XeOp) (chip : Nat) : Bool :=
  decide (x.cmd.op ≠ 0x12 ∧ x.cmd.op ≠ 0x13) ||
    (decide (x.cmd.count0 = x.parties.length) && (x.bodies chip).all (fun r => decide (r.members = x.parties.length)))

/-- The parties that this chip sends its source to. -/
def XeOp.sendsTo (x : XeOp) (chip : Nat) : List Nat :=
  if x.cmd.op ≤ 0x13 ∨ (x.cmd.op = 0x14 ∧ x.cmd.peer = chip) then x.taking.filter (fun p => decide (p ≠ chip))
  else if x.cmd.op = 0x15 then [x.cmd.peer]
  else []

/-- Bytes of a contribution that one XDATA flit carries, beside COLLID, the part's number and the bytes' poison (R348,
DESIGN CHOICE log 73). -/
def xdataBytes : Nat := 32

/-- A contribution goes to a party in parts, in order (R348). -/
def dataFlits (dst : Nat) (collid : BitVec 32) (src : List (Byte × Bool)) : List (Nat × FlitBody) :=
  (List.range ((src.length + xdataBytes - 1) / xdataBytes)).map (fun i =>
    (dst, .xdata collid i ((src.drop (i * xdataBytes)).take xdataBytes)))

/-- The flits of an operation that the present tick lets go: as many as its schedule's row gives the tick, and in the last of
the row's ticks what is left (R367, DESIGN CHOICE log 40). -/
def XeOp.release (x : XeOp) (f : Fabric) : List (Nat × FlitBody) :=
  match x.begun, f.row x.cmd with
  | some b, some r => if r.length ≤ f.tick - b + 1 then x.togo else x.togo.take (r.getD (f.tick - b) 0)
  | _, _ => []

/-- An operation's data for the present tick goes out (R367). -/
def State.pumpXe (s : State) (x : XeOp) : State :=
  let out := x.release s.fab
  out.foldl (fun s p => s.enqueue p.1 p.2) (s.putXe x.cmd.num (some { x with togo := x.togo.drop out.length }))

/-- The operation begins, or runs again, at the present boundary with the given parties: its data goes out by the
schedule. -/
def State.runXe (s : State) (x : XeOp) (taking : List Nat) (rerun : Bool) : State :=
  let x := { x with begun := some s.fab.tick, taking := taking, data := [], heard := 0, rerun := rerun }
  s.pumpXe { x with togo := (x.sendsTo s.fab.chip).flatMap (fun p => dataFlits p (BitVec.ofNat 32 x.cmd.collid) x.src) }

/-- The begin boundary of an operation (R359, R365). -/
def State.beginXe (s : State) (x : XeOp) : State :=
  let chip := s.fab.chip
  if x.aborted ∨ (x.bodies chip).any (·.aborted) = true then s.abortXe x 3 []
  else if (x.bodies chip).all (x.agrees chip) = false then s.abortXe x 3 [.fail 7 0 0]
  else if x.sized chip = false then s.abortXe x 3 []
  else s.runXe x x.parties false

/-- COLLECTIVE_BEGIN: the operand is the number of the operation's push. -/
def execCollectiveBegin (s : State) : Out :=
  match s.turn with
  | .event _ (.nat num) =>
    match s.xeOp num with
    | some x => if x.due s.fab then .next (s.beginXe x) else .next s
    | none => .next s
  | _ => .next s

/-! ## Results (R360, R361, R363) -/

/-- The parties whose data this chip needs. -/
def XeOp.expects (x : XeOp) (chip : Nat) : List Nat :=
  if x.cmd.op ≤ 0x13 then x.taking.filter (fun p => decide (p ≠ chip))
  else if x.cmd.op = 0x14 then (if x.cmd.peer = chip then [] else [x.cmd.peer])
  else if x.cmd.op = 0x16 then [x.cmd.peer]
  else []

/-- A party's source bytes. -/
def XeOp.sourceOf (x : XeOp) (chip p : Nat) : List (Byte × Bool) :=
  if p = chip then x.src else ((x.data.find? (fun d => decide (d.1 = p))).map (·.2)).getD []

/-- Bytes as an engine's write takes them. -/
def srcBytes (l : List (Byte × Bool)) : List SrcByte := l.map (fun b => { val := b.1.toNat, poison := b.2 })

/-- REWEIGHT's scaling of an element by OLDCNT / NEWCNT (R363). -/
def scaleElem (ty old new v : Nat) : Nat :=
  match laneKind ty with
  | .flt f =>
    (match f.decode v with
      | .fin sg n d => (f.deliver 0 (.fin sg (n * old) (d * new))).1
      | _ => v)
  | .int sg w => wrapInt w (Int.tdiv (readInt sg w v * (old : Int)) (new : Int))
  | _ => v

/-- Element k of a reduction, with its poison: the fold over the parties in ascending number (R361). -/
def XeOp.element (x : XeOp) (chip k : Nat) : List SrcByte :=
  let e := x.cmd.xeSize
  let at_ := if x.cmd.op = 0x12 then x.cmd.count * (x.parties.takeWhile (fun p => decide (p ≠ chip))).length + k else k
  let parts := x.taking.map (fun p => ((x.sourceOf chip p).drop (at_ * e)).take e)
  let v := (foldElems x.cmd.rop (laneKind x.cmd.ty) (parts.map (fun b => leNat (b.map (·.1))))).1
  let v := if x.rerun ∧ x.cmd.policy = 1 ∧ x.cmd.rop = 0 then scaleElem x.cmd.ty x.parties.length x.taking.length v else v
  let poison := parts.any (fun b => b.any (·.2))
  (leBytes e v).map (fun b => { val := b.toNat, poison := poison })

/-- The destination bytes; a lost party's block keeps its contents (R363). -/
def XeOp.output (x : XeOp) (chip : Nat) : List SrcByte :=
  let n := x.cmd.count * x.cmd.xeSize
  match x.cmd.op with
  | 0x13 => x.parties.flatMap (fun p => if x.taking.contains p then srcBytes (x.sourceOf chip p) else List.replicate n { mask := 0 })
  | 0x14 => srcBytes (x.sourceOf chip x.cmd.peer)
  | 0x15 => []
  | 0x16 => srcBytes (x.sourceOf chip x.cmd.peer)
  | _ => (List.range x.cmd.count).flatMap (x.element chip)

/-- STATUS of a completion (R362). -/
def XeOp.status (x : XeOp) : Nat := if x.rerun then 1 + x.cmd.policy else 0

/-- Bytes of one party's contribution. -/
def XeOp.share (x : XeOp) : Nat := x.cmd.count * x.cmd.xeSize * (if x.cmd.op = 0x12 then x.cmd.count0 else 1)

/-- The completion boundary has come: the schedule's ticks are over, every contribution is here, and the boundary lies
after that of the last delivery (R362, R367) (DESIGN CHOICE log 40). -/
def XeOp.finished (x : XeOp) (f : Fabric) : Bool :=
  match x.begun with
  | none => false
  | some b =>
    decide (x.cmd.plan = none ∧ x.heard < f.tick ∧ x.togo = []) &&
      (match f.row x.cmd with
        | some r => decide (b + r.length ≤ f.tick)
        | none => false) &&
      (x.expects f.chip).all (fun p => x.data.any (fun d => decide (d.1 = p ∧ d.2.length = x.share)))

/-- NEWCNT of a completion: the parties whose data the result holds (R362); of BCAST, SEND and RECV the one that
sends (DEDUCED log 58). -/
def XeOp.newCount (x : XeOp) : Nat := if x.cmd.op ≤ 0x13 then x.taking.length else 1

/-- The writes of a completion: the destination's lines, each with its count, then the record (R362). -/
def State.completeXe (s : State) (x : XeOp) : State :=
  let items := planOf (runUnits x.cmd.dst (x.output s.fab.chip)) ++ s.recordItem x.cmd x.status x.cmd.old x.newCount
  let items := s.keyPlan x.cmd items
  s.putXe x.cmd.num (some { x with cmd := { x.cmd with plan := some items, claims := planKeys items } })

/-- One turn of an operation's completion. A view that is installed at this boundary comes first (R363). -/
def State.advanceXe (s : State) (x : XeOp) : State :=
  match x.cmd.plan with
  | none => if x.finished s.fab && !s.fab.viewDue then s.completeXe x else s
  | some [] => s.putXe x.cmd.num none
  | some (it :: rest) =>
    match s.runPlan x.cmd it rest with
    | .wait s => s
    | .stop s => s.putXe x.cmd.num none
    | .left [] _ s => s.putXe x.cmd.num none
    | .left xs wrote s =>
      s.putXe x.cmd.num (some { x with cmd := { s.cmdNow x.cmd with plan := some xs, claims := planKeys xs, page := none, wrote := wrote } })

/-- COLLECTIVE_COMPLETE: the operand is the number of the operation's push. -/
def execCollectiveComplete (s : State) : Out :=
  match s.turn with
  | .event _ (.nat num) =>
    match s.xeOp num with
    | some x => .next (s.advanceXe x)
    | none => .next s
  | _ => .next s

/-! ## View changes in flight (R359, R363, R364) -/

/-- How the view changed for this chip. -/
inductive ViewChange where
  | joined
  | excluded
  | isolated
  deriving DecidableEq, Repr

/-- What a view change does to one operation, with the trap code for its team; 0 where it is over already. -/
def State.changeXe (s : State) (x : XeOp) (v : ViewChange) : Nat × State :=
  if x.cmd.plan.isSome then (0, s)
  else
    match v with
    | .isolated => (4, s.abortXe x 5 [])
    | .excluded => (3, s.abortXe x 4 [])
    | .joined =>
      if x.begun = none then
        let parties := if x.cmd.op ≤ 0x14 then s.fab.members else x.parties
        let x := { x with frame := s.fab.vnum.toNat, readys := [], parties := parties, cmd := { x.cmd with old := parties.length } }
        let y := s.sendReady x
        (1, y.2.putXe x.cmd.num (some y.1))
      else
        let left := x.taking.filter (fun p => s.fab.members.contains p)
        if x.cmd.policy = 2 ∨ (0x14 ≤ x.cmd.op ∧ left.contains x.cmd.peer = false) then (2, s.abortXe x 3 [])
        else (1, s.runXe x left true)

/-- The same for a command that is not accepted yet. -/
def changeCmd (c : Cmd) (members : Nat) (v : ViewChange) : Nat × Cmd :=
  if c.code ≠ 0 ∨ c.status ≠ 0 then (0, c)
  else
    match v with
    | .isolated => (4, { c with status := 5, claims := [], srcs := [] })
    | .excluded => (3, { c with status := 4, claims := [], srcs := [] })
    | .joined => (1, { c with old := if c.op ≤ 0x14 then members else c.old })

/-- The trap of class 0x09 (R364): pending until the sequencer's next boundary outside trap mode; an exited sequencer
takes none. -/
def State.viewTrap (s : State) (tk code : Nat) : State :=
  let q := (s.team tk).seq
  if q.exited then s else s.setSeq tk { q with pending := q.pending ++ [⟨9, code, 0⟩] }

/-- Applies a view change to every operation and queued command, and traps each team once with its highest code. -/
def State.changeView (s : State) (v : ViewChange) : State :=
  let nums := s.fab.xe.map (·.cmd.num)
  let a := nums.foldl (fun (acc : List (Nat × Nat) × State) n => match acc.2.xeOp n with
    | some x => let y := acc.2.changeXe x v
                (acc.1 ++ [(x.cmd.team, y.1)], y.2)
    | none => acc) ([], s)
  let qs := a.2.fab.xeq.map (fun c => (c.team, changeCmd c s.fab.members.length v))
  let s := { a.2 with fab := { a.2.fab with xeq := qs.map (·.2.2), early := [] } }
  let codes := a.1 ++ qs.map (fun x => (x.1, x.2.1))
  (codes.map (·.1)).eraseDups.foldl (fun s tk =>
    let code := codes.foldl (fun m x => if x.1 = tk then Nat.max m x.2 else m) 0
    if code = 0 then s else s.viewTrap tk code) s

end Sys2Proof.Machine
end

