-- ==== Sys2Proof/Machine/Fabric.lean ====
section
/-! DEFINITION. Ticks, flits, ports and views (R345 to R357), VIEW, JOIN and VWAIT (R368), and a chip's stop (R370).
What a boundary brings is done by events of its tick; the next boundary waits for them (DESIGN CHOICE log 2). -/

namespace Sys2Proof.Machine

/-- Runs f on the fabric of the state. -/
def State.modFab (s : State) (f : Fabric → Fabric) : State := { s with fab := f s.fab }

/-! ## What is due at the present boundary -/

/-- The parts of a VIEWREC, once all eleven are here (R357). -/
def Fabric.viewParts (f : Fabric) : Option (Nat × List Nat) :=
  if (List.range 11).all (fun p => f.viewrecs.any (fun r => decide (r.1 = p))) then
    match f.viewrecs with
    | r :: _ => some (r.2.1, sortNats (f.viewrecs.flatMap (fun x => x.2.2)).eraseDups)
    | [] => none
  else none

/-- Whether something of the present boundary is still to be done. -/
def Fabric.pending (f : Fabric) : Bool :=
  f.viewDue || f.viewParts.isSome || !f.suspects.isEmpty || !f.gaps.isEmpty || !f.joins.isEmpty ||
    f.xe.any (fun x => x.due f || x.finished f)

/-! ## Views (R351, R353, R355) -/

/-- Enqueues this tick's beacons (R353): a member that is not isolated and whose servo holds sends them. -/
def Fabric.beacon (f : Fabric) : Fabric :=
  if f.member && !f.isol && !f.servo then (monitorsOf f.members f.chip).foldl (fun f m => f.put f.tick m .beacon) f else f

/-- The counters of SEQ that restart as a view comes in (R349): a member's for the new members, a new member's for every
member. The flits of another chip count from 0 on from the tick `first` in which it has the view too; one whose flits this
boundary has delivered from that tick has begun already (R357). -/
def Fabric.restart (f : Fabric) (members : List Nat) (first : Nat) : Fabric :=
  let new := if f.member then members.filter (fun m => !f.members.contains m) else members
  let due := if first + 2 ≤ f.tick then new.filter (fun c => !f.heard.contains c) else new
  { f with
    seqOut := new.foldl (fun m c => SMap.set 0 m c 0) f.seqOut
    seqFresh := f.seqFresh.filter (fun x => !new.contains x.1) ++ due.map (fun c => (c, first)) }

/-- A view comes into force at the present boundary: SEQ restarts with its new members, miss counts restart, frames
of chips outside it are lost, its schedule is still to be loaded, operations in flight follow, beacons go out (R349, R353, R356,
R363, R367). A gap that this
boundary's delivery showed is raised under the new view. `first` is the tick from which new members count. -/
def State.installView (s : State) (vnum : BitVec 32) (members admitted : List Nat) (first : Nat) : State :=
  let f := s.fab.restart members first
  let s := { s with fab := { f with
    vnum := vnum, members := members, isol := false, schedule := [], loaded := false, installed := f.tick, admitted := admitted, missed := [], round := none,
    events := [], suspects := [], gaps := if members.contains f.chip then f.gaps.filter (fun c => members.contains c) else [],
    viewrecs := [], rejoining := f.rejoining && !members.contains f.chip } }
  let s := s.loseFrames
  (s.changeView (if s.fab.member then .joined else .excluded)).modFab Fabric.beacon

/-- The bitmap part p of a VIEWREC: 384 chips (R357). -/
def viewPart (members : List Nat) (p : Nat) : List Nat := members.filter (fun c => decide (c / 384 = p))

/-- A sponsor sends the view to the chips it sponsored and that the round admitted (R357). -/
def State.sponsor (s : State) (joins : List Nat) : State :=
  let f := s.fab
  let s := s.modFab (fun f => { f with sponsored := [] })
  (f.sponsored.filter (fun c => joins.contains c)).foldl (fun s c =>
    (List.range 11).foldl (fun s p => s.enqueue c (.viewrec p s.fab.vnum.toNat (viewPart s.fab.members p))) s) s

/-- VIEW_INSTALLATION: the end of a round (R354, R355). An operation that begins at this boundary has begun. -/
def execViewInstallation (s : State) : Out :=
  let f := s.fab
  if f.viewDue && !f.xe.any (fun x => x.due f) then
    let gone := f.members.filter (fun m => f.events.any (fun e => decide (e = (m, false))))
    let joins := (f.events.filterMap (fun e => if e.2 && !f.members.contains e.1 then some e.1 else none)).eraseDups
    if f.members.length < 2 * (f.members.length - gone.length) then
      .next ((s.installView (f.vnum + 1) (sortNats (f.members.filter (fun m => !gone.contains m) ++ joins)) joins (f.tick + 2)).sponsor joins)
    else
      .next ((s.modFab (fun f => { f with isol := true, round := none, events := [], suspects := [], gaps := [] })).changeView .isolated)
  else .next s

/-- FIRMWARE_VIEW_INSTALL: fabric firmware installs a view of chips 0 to 4,095 at the present boundary, on each of its members
(R3, R351, R355). -/
def execFirmwareViewInstall (s : State) : Out :=
  match s.turn with
  | .event _ (.view vnum members) => let members := sortNats (members.filter (fun c => decide (c < 4096))).eraseDups
    .next (s.installView vnum members [] s.fab.tick)
  | _ => .next s

/-- VIEWREC: a joiner installs the view when the last part is delivered (R357). -/
def execViewrec (s : State) : Out :=
  match s.fab.viewParts with
  | some v =>
    if s.fab.rejoining then .next (s.installView (BitVec.ofNat 32 v.1) v.2 [] (s.fab.tick - 2)) else .next (s.modFab (fun f => { f with viewrecs := [] }))
  | none => .next s

/-! ## Suspicions and join notices (R353, R354, R357) -/

/-- Raises an event: one flit to every member, in the present tick (DEDUCED log 57). -/
def State.raiseEvent (s : State) (b : FlitBody) : State := s.modFab (fun f => f.members.foldl (fun f m => f.put f.tick m b) f)

/-- RAISE_SUSPICION: the operand is the chip. -/
def execRaiseSuspicion (s : State) : Out :=
  match s.turn with
  | .event _ (.nat c) =>
    let f := s.fab
    if (f.suspects ++ f.gaps).contains c && !f.viewDue then
      .next ((s.modFab (fun f => { f with
        suspects := f.suspects.filter (fun x => decide (x ≠ c))
        gaps := f.gaps.filter (fun x => decide (x ≠ c)) })).raiseEvent (.suspect c f.tick))
    else .next s
  | _ => .next s

/-- JOIN_NOTICE: the operand is the chip that sent the JOIN. -/
def execJoinNotice (s : State) : Out :=
  match s.turn with
  | .event _ (.nat c) =>
    let f := s.fab
    if f.joins.contains c && !f.viewDue then
      let s := s.modFab (fun f => { f with joins := f.joins.filter (fun x => decide (x ≠ c)) })
      if f.member && !f.members.contains c then
        .next ((s.modFab (fun f => { f with sponsored := f.sponsored ++ [c] })).raiseEvent (.notice c f.tick))
      else .next s
    else .next s
  | _ => .next s

/-! ## A tick boundary (R347, R349) -/

/-- The full tick of the low 32 bits that a flit carries. -/
def fullTick (now low : Nat) : Nat := now - (now + 2 ^ 32 - low) % 2 ^ 32

/-- Flits whose tag is checked (R349). -/
def FlitBody.tagged (b : FlitBody) : Bool :=
  match b with
  | .beacon => true
  | .suspect _ _ => true
  | .notice _ _ => true
  | .ready _ => true
  | .xdata _ _ _ => true
  | _ => false

/-- An event of the current view joins the round (R354). A chip that the round's end has isolated holds none: what was
raised at s + 2 is discarded, and only fabric firmware ends its isolation (R354, R355). -/
def Fabric.takeEvent (f : Fabric) (c b : Nat) (joins : Bool) : Fabric :=
  if f.isol then { f with discards := f.discards + 1 }
  else match f.round with
  | none => { f with round := some b, events := [(c, joins)] }
  | some r => if b ≤ r + 1 then { f with events := f.events ++ [(c, joins)] } else f

/-- A READY flit reaches the operation it belongs to, or waits for its push (R359). -/
def Fabric.takeReady (f : Fabric) (src t : Nat) (r : ReadyBody) : Fabric :=
  if f.xe.any (fun x => decide (x.cmd.collid = r.collid.toNat ∧ x.begun = none ∧ x.cmd.plan = none)) then
    { f with xe := f.xe.map (fun x =>
      if x.cmd.collid = r.collid.toNat ∧ x.begun = none ∧ x.cmd.plan = none then
        { x with readys := x.readys.filter (fun y => decide (y.1 ≠ src)) ++ [(src, t, r)] }
      else x) }
  else { f with early := f.early.filter (fun y => !decide (y.1 = src ∧ y.2.2.collid = r.collid)) ++ [(src, t, r)] }

/-- A part of a party's contribution, in order behind the parts before it. -/
def XeOp.takeData (y : XeOp) (src part : Nat) (bs : List (Byte × Bool)) (tick : Nat) : XeOp :=
  let before := if part = 0 then [] else ((y.data.find? (fun d => decide (d.1 = src))).map (·.2)).getD []
  { y with data := y.data.filter (fun d => decide (d.1 ≠ src)) ++ [(src, before ++ bs)], heard := tick }

/-- The answer to a forwarded access: a write of an agent, an entry or the device has performed and is forgotten; what
another waits for is kept (R219, R322). -/
def Fabric.takeReply (f : Fabric) (src tag : Nat) (r : List Byte × Bool) (host : Option Nat) (old : Option (List Byte × Bool))
    (stamps : Nat × Nat) : Fabric :=
  let asked := f.fwd.filter (fun x => decide (x.tag = tag ∧ x.chip = src))
  let refused := asked.filterMap (fun x => match x.blame, host with
    | some b, some a => some (b.1, { b.2 with daddr := BitVec.ofNat 64 a })
    | _, _ => none)
  { f with
    refused := f.refused ++ refused
    olds := f.olds ++ asked.filterMap (fun x => old.map (fun o => (x.grid, x.pa / 64, o.1, o.2)))
    fwd := f.fwd.filterMap (fun x =>
      if x.tag = tag ∧ x.chip = src then
        match x.owner, x.write with
        | .engine _, _ | .flit _ _, _ | _, false => some { x with reply := some r, host := host, old := old, stamps := stamps }
        | _, true => none
      else some x) }

/-- What a flit brings (R348). -/
def Fabric.takeBody (f : Fabric) (x : Flit) : Fabric :=
  match x.body with
  | .beacon => { f with beacons := f.beacons.filter (fun y => decide (y.1 ≠ x.src)) ++ [(x.src, fullTick f.tick x.tick)] }
  | .suspect c b => f.takeEvent c b false
  | .notice c b => f.takeEvent c b true
  | .viewrec p v ms => if f.rejoining then { f with viewrecs := f.viewrecs.filter (fun y => decide (y.1 ≠ p)) ++ [(p, v, ms)] } else f
  | .join => if f.member && !f.members.contains x.src then { f with joins := f.joins ++ [x.src] } else f
  | .ptp => f
  | .ready r => f.takeReady x.src (fullTick f.tick x.tick) r
  | .xdata c part bs => { f with xe := f.xe.map (fun y =>
      if y.cmd.collid = c.toNat ∧ y.begun.isSome ∧ y.cmd.plan = none then y.takeData x.src part bs f.tick else y) }
  | .fwdWrite _ _ _ _ _ | .fwdRead _ _ _ | .fwdAtom _ _ _ _ _ _ _ _ | .move _ _ _ _ _ _ | .moveAsk _ _ => { f with inbox := f.inbox ++ [x] }
  | .fwdReply tag bytes poison host old => f.takeReply x.src tag (bytes, poison) host old (0, 0)
  | .moved tag bytes poison wts rts => f.takeReply x.src tag (bytes, poison) none none (wts, rts)
  | .more _ => f
  | .other _ => { f with discards := f.discards + 1 }

/-- Words 0 and 1 of a flit's header (R348). -/
def Flit.header (x : Flit) : Nat × Nat :=
  (x.body.kind * 2 ^ 40 + x.dst * 2 ^ 28 + x.src * 2 ^ 16 + x.vtag, x.tick * 2 ^ 32 + x.seq)

/-- Whether a flit is one that the layout holds (R348): every field of the header within its bits, a KIND that stands for its
payload, and 48 bytes of payload at most. -/
def Flit.fits (x : Flit) : Bool :=
  decide (x.dst < 2 ^ 12 ∧ x.src < 2 ^ 12 ∧ x.vtag < 2 ^ 16 ∧ x.tick < 2 ^ 32 ∧ x.seq < 2 ^ 32) &&
    (match x.body with
      | .xdata _ _ bs => decide (bs.length ≤ xdataBytes)
      | .more k => decide (k = 0x20 ∨ k = 0x21)
      | .other k => decide (k < 2 ^ 8 ∧ ¬(1 ≤ k ∧ k ≤ 5) ∧ k ≠ 0x10 ∧ k ≠ 0x11 ∧ k ≠ 0x20 ∧ k ≠ 0x21)
      | _ => true)

/-- Delivery of one flit: a gap in SEQ raises suspicion of the source; a flit of another tag is discarded (R349). -/
def Fabric.deliver (f : Fabric) (x : Flit) : Fabric :=
  let anew := f.seqFresh.any (fun y => decide (y.1 = x.src ∧ y.2 ≤ fullTick f.tick x.tick))
  let want := if anew then 0 else SMap.get 0 f.seqIn x.src
  let f := { f with
    seqIn := SMap.set 0 f.seqIn x.src ((x.seq + 1) % 2 ^ 32), heard := x.src :: f.heard
    seqFresh := if anew then f.seqFresh.filter (fun y => decide (y.1 ≠ x.src)) else f.seqFresh }
  let f := if x.seq ≠ want ∧ f.member = true ∧ f.isol = false then { f with gaps := (f.gaps ++ [x.src]).eraseDups } else f
  if x.body.tagged && decide (x.vtag ≠ f.vnum.toNat % 2 ^ 16) then { f with discards := f.discards + 1 } else f.takeBody x

/-- How far a flit's SEQ lies above the one that comes next from its source; the numbers wrap (R348). -/
def Fabric.ahead (f : Fabric) (x : Flit) : Nat := (x.seq + 2 ^ 32 - SMap.get 0 f.seqIn x.src) % 2 ^ 32

/-- Inserts a flit by source and then in ascending sequence (R347). -/
def Fabric.insertFlit (f : Fabric) (x : Flit) (l : List Flit) : List Flit :=
  match l with
  | [] => [x]
  | y :: r =>
    if x.src < y.src ∨ (x.src = y.src ∧ f.ahead x < f.ahead y) then x :: y :: r
    else y :: Fabric.insertFlit f x r

/-- Flits enqueued in the tick that ends are sent and numbered (R347, R349). -/
def Fabric.sendTick (f : Fabric) (t : Nat) (l : List (Nat × Flit)) : List (Nat × Flit) × SMap Nat :=
  match l with
  | [] => ([], f.seqOut)
  | x :: r =>
    if x.1 = t then
      let n := SMap.get 0 f.seqOut x.2.dst
      let y := Fabric.sendTick { f with seqOut := SMap.set 0 f.seqOut x.2.dst ((n + 1) % 2 ^ 32) } t r
      ((x.1, { x.2 with seq := n }) :: y.1, y.2)
    else
      let y := Fabric.sendTick f t r
      (x :: y.1, y.2)

/-- The members that this chip monitors. -/
def Fabric.watched (f : Fabric) : List Nat := f.members.filter (fun m => decide (m ≠ f.chip) && (monitorsOf f.members m).contains f.chip)

/-- The check for one member's beacon of the tick two before (R353). -/
def Fabric.checkOne (f : Fabric) (m : Nat) : Fabric :=
  let first := f.installed + (if f.admitted.contains m then 4 else 2)
  if f.tick < first then f
  else if f.beacons.any (fun b => decide (b.1 = m ∧ b.2 + 2 = f.tick)) then { f with missed := SMap.set 0 f.missed m 0 }
  else
    let n := SMap.get 0 f.missed m + 1
    { f with missed := SMap.set 0 f.missed m n, suspects := if 2 ≤ n then (f.suspects ++ [m]).eraseDups else f.suspects }

/-- The checks of a boundary. -/
def Fabric.check (f : Fabric) : Fabric := if f.member && !f.isol then f.watched.foldl (fun f m => f.checkOne m) f else f

/-- A flit that is held is enqueued, or held on. -/
def State.retryFlit (s : State) (x : Nat × FlitBody) : State :=
  match s.fab.putAll [x.1] x.2 with
  | some y => { s with fab := y.2 }
  | none => { s with fab := { s.fab with unsent := s.fab.unsent ++ [x] } }

/-- Flits held for want of room are tried again, then the data that the schedule gives this tick, and READY flits too (R347,
R359, R367). -/
def State.retryFlits (s : State) : State :=
  let held := s.fab.unsent
  let s := held.foldl State.retryFlit (s.modFab (fun f => { f with unsent := [] }))
  let s := (s.fab.xe.filter (fun x => decide (x.togo ≠ []))).foldl State.pumpXe s
  (s.fab.xe.filter (fun x => decide (x.ready = none ∧ x.begun = none ∧ x.cmd.plan = none))).foldl (fun s x =>
    let y := s.sendReady x
    y.2.putXe x.cmd.num (some y.1)) s

/-- Owners have discarded writes that would have carried poison to host memory: their grids consume the errors (R374). -/
def State.consumeRefused (s : State) : State :=
  s.fab.refused.foldl (fun s x => s.unhandled x.1 x.2) (s.modFab (fun f => { f with refused := [] }))

/-- What lines of other chips held before writes of grids enters their undo logs (R372). -/
def State.takeOlds (s : State) : State :=
  s.fab.olds.foldl (fun (s : State) x =>
    let g := s.grid x.1
    let fill (u : UndoEntry) : UndoEntry := if u.line = x.2.1 ∧ u.bytes = [] then { u with bytes := x.2.2.1, poison := x.2.2.2 } else u
    s.setGrid x.1 { g with interval := { g.interval with undo := g.interval.undo.map fill } }) (s.modFab (fun f => { f with olds := [] }))

/-- The boundary itself: the counter moves on, flits are sent and delivered in order, beacons are checked and sent
unless a view comes first. -/
def State.tickOver (s : State) (arriving : List Flit) : State :=
  let f := s.fab
  let y := f.sendTick f.tick f.outbox
  let f := { f with tick := f.tick + 1, outbox := y.1, seqOut := y.2 }
  let own := (f.outbox.filter (fun x => decide (x.1 + 2 ≤ f.tick ∧ x.2.dst = f.chip))).map (·.2)
  let f := { f with outbox := f.outbox.filter (fun x => decide (f.tick < x.1 + 2)) }
  let due := (own ++ arriving.filter (fun x => x.fits && decide (x.dst = f.chip))).foldl (fun l x => f.insertFlit x l) []
  let f := due.foldl Fabric.deliver { f with heard := [] }
  let f := if f.viewDue then f else f.check.beacon
  { s with fab := f }.takeOlds.consumeRefused.retryFlits

/-- TICK_BOUNDARY: the operand holds the flits that other chips' sends bring here at this boundary. -/
def execTickBoundary (s : State) : Out :=
  match s.turn with
  | .event _ (.flits l) => if s.fab.pending then .next s else .next (s.tickOver l)
  | _ => .next s

/-! ## The servo and the ports (R345, R350) -/

/-- SERVO_OFFSET_EXCEEDED: the chip sends no more beacons. -/
def execServoOffsetExceeded (s : State) : Out := .next (s.modFab (fun f => { f with servo := true }))
/-- SERVO_OFFSET_RESTORED: it sends them again. -/
def execServoOffsetRestored (s : State) : Out := .next (s.modFab (fun f => { f with servo := false }))

/-- A port's state. -/
def Fabric.port (f : Fabric) (p : Nat) : PortState := SMap.get .down f.ports p

/-- Moves a port between states; events to fabric firmware are counted. -/
def portEvent (s : State) (src : Option PortState) (dst : PortState) (tells : Bool) : Out :=
  match s.turn with
  | .event _ (.nat p) =>
    if p < 16 ∧ (src = none ∨ src = some (s.fab.port p)) then
      .next (s.modFab (fun f => { f with ports := SMap.set .down f.ports p dst, reports := if tells then f.reports + 1 else f.reports }))
    else .next s
  | _ => .next s

/-- PORT_ENABLE: training begins. -/
def execPortEnable (s : State) : Out := portEvent s (some .down) .training false
/-- PORT_UP. -/
def execPortUp (s : State) : Out := portEvent s (some .training) .up false
/-- TRAINING_TIMEOUT: fabric firmware is told. -/
def execTrainingTimeout (s : State) : Out := portEvent s (some .training) .down true
/-- LOSS_OF_SIGNAL. -/
def execLossOfSignal (s : State) : Out := portEvent s (some .up) .down false
/-- PORT_DISABLE. -/
def execPortDisable (s : State) : Out := portEvent s none .down false

/-! ## The view instructions (R368) -/

/-- Word k of the member bitmap in force. -/
def Fabric.bitmap (f : Fabric) (k : Nat) : Nat :=
  f.members.foldl (fun x m => if m / 64 = k ∧ m < 4096 then x ||| 2 ^ (m % 64) else x) 0

/-- VIEW. -/
def execView (a d : BitVec 5) (s : State) : Out :=
  onSeq s (fun tk q s =>
    let k := (q.reg a.toNat).toNat
    .next (s.seqDone tk (fun q => q.setReg d.toNat (if k ≤ 63 then BitVec.ofNat 64 (s.fab.bitmap k) else 0))))

/-- JOIN: privileged; only a chip that is neither a member nor isolated asks (R106, R356). -/
def execJoin (a : BitVec 5) (s : State) : Out :=
  onSeq s (fun tk q s =>
    if (s.gridOf tk).rcd.priv = false then seqTrap s tk 2 1 0
    else if s.fab.member || s.fab.isol then .next (s.seqDone tk id)
    else
      .next (((s.enqueue ((q.reg a.toNat).toNat % 2 ^ 12) .join).modFab (fun f => { f with rejoining := true })).seqDone tk id))

/-- VWAIT: until the view's number has reached s(a)'s, or the chip is isolated. -/
def execVwait (a : BitVec 5) (s : State) : Out :=
  onSeq s (fun tk q s =>
    let f := s.fab
    if (f.member && decide ((f.vnum - (q.reg a.toNat).setWidth 32).toNat < 2 ^ 31)) || f.isol then .next (s.seqDone tk id)
    else .next (s.setSeq tk { q with wait := some .vwait }))

/-! ## A stop (R370) -/

/-- CHIP_STOP: what was enqueued in this tick stays unsent; the chip does nothing until a reset. -/
def execChipStop (s : State) : Out :=
  .next { s with
    chipStopped := true
    fab := { s.fab with outbox := s.fab.outbox.filter (fun x => decide (x.1 < s.fab.tick)), unsent := [] } }

end Sys2Proof.Machine
end

