-- ==== Sys2Proof/Machine/TileEval.lean ====
section
/-! DEFINITION. Values of tiles and the arithmetic of their elements (R42, R43, R59 to R63, R284, R285, R290 to
R298). -/

namespace Sys2Proof.Machine

/-! ## Formats (R42, R43, R249, R277, R284) -/

/-- Whether a matrix format code is complex (R42). -/
def isComplex (c : Nat) : Bool := decide (0x13 ≤ c)
/-- Components of an element. -/
def compsOf (c : Nat) : Nat := if isComplex c then 2 else 1
/-- The component format's code of a complex one. -/
def compCode (c : Nat) : Nat :=
  match c with
  | 0x13 => 0x00
  | 0x14 => 0x01
  | 0x15 => 0x02
  | 0x16 => 0x03
  | 0x17 => 0x0C
  | k => k
/-- Encoding width of the component (R214). -/
def encWidth (c : Nat) : Nat := (planeShape (compCode c)).1
/-- Where the encoding lies in its container: 13 for F19 (R31). -/
def encShift (c : Nat) : Nat := (planeShape (compCode c)).2.2
/-- Component bytes of a wide target, 0 for a narrow one (R297). -/
def wideBytes (c : Nat) : Nat :=
  match compCode c with
  | 0x00 => 8
  | 0x01 => 4
  | 0x0A => 4
  | 0x02 => 2
  | 0x03 => 2
  | 0x0B => 2
  | _ => 0
/-- Bytes of a row in plane or packed layout (R284). -/
def rowBytes (c cols : Nat) (packed : Bool) : Nat :=
  if packed then cols * compsOf c * wideBytes c else (cols * compsOf c + 63) / 64 * 8 * encWidth c
/-- The stride in force: 0 selects the least (R284). -/
def strideOf (s rb : Nat) : Nat := if s = 0 then (rb + 7) / 8 * 8 else s

/-- The accumulator value format of a product (R43, R261): code and kind of value. -/
def accOf (c : Nat) : Nat × Nat :=
  if c = 0x00 then (0x00, 0)
  else if c ≤ 0x09 then (0x01, 0)
  else if c ≤ 0x12 then (0x0A, 0)
  else if c = 0x13 then (0x13, 0)
  else if c = 0x17 then (0x17, 1)
  else (0x14, 0)

/-- The number kind of a value's components. -/
def valueKind (vfmt vkind : Nat) : NumKind :=
  match vkind with
  | 1 => .int true 32
  | 2 => if vfmt = 0x12 then .int true 32 else .flt fmtF32
  | _ => matrixKind vfmt

/-- Bits of an element in accumulator memory (R277). -/
def storeBits (vfmt vkind : Nat) : Nat :=
  match vkind with
  | 1 => 64
  | 2 => 32
  | _ => if vfmt = 0x04 then 32 else compsOf vfmt * encWidth vfmt

/-! ## Values -/

/-- A tile's value as evaluation handles it. -/
structure Tile where
  rows : Nat := 0
  cols : Nat := 0
  kdim : Nat := 0
  vfmt : Nat := 0
  vkind : Nat := 0
  val : List Nat := []
  deriving DecidableEq, Repr

/-- Numbers that one element takes in `val`. -/
def Tile.per (t : Tile) : Nat := if t.vkind = 2 then t.kdim / 32 else compsOf t.vfmt

/-- Cuts a list into groups of n. -/
def groups (fuel n : Nat) (xs : List Nat) : List (List Nat) :=
  match fuel with
  | 0 => []
  | k + 1 => if xs.isEmpty then [] else xs.take n :: groups k n (xs.drop n)

/-- Elements of a value, each as its numbers, in order. -/
def Tile.elems (t : Tile) : List (List Nat) := groups (t.rows * t.cols) (Nat.max 1 t.per) t.val

/-- Cuts a list of elements into rows. -/
def rowsOf (fuel n : Nat) (xs : List (List Nat)) : List (List (List Nat)) :=
  match fuel with
  | 0 => []
  | k + 1 => xs.take n :: rowsOf k n (xs.drop n)

/-- Rows of elements. -/
def Tile.grid (t : Tile) : List (List (List Nat)) := rowsOf t.rows t.cols t.elems
/-- Columns of elements. -/
def Tile.columns (t : Tile) : List (List (List Nat)) :=
  (List.range t.cols).map (fun j => t.grid.map (fun r => r.getD j []))

/-- An element's first number. -/
def elem0 (e : List Nat) : Nat := e.headD 0
/-- An element's second number. -/
def elem1 (e : List Nat) : Nat := (e.drop 1).headD 0

/-! ## Chains (R59 to R63) -/

/-- One step of R59: acc + x * y with one rounding. -/
def chainStep (f : FFmt) (acc : Nat × Flags) (x y : FVal) : Nat × Flags :=
  let o := deliverExact f 0 (fmaExact 0 x y (f.decode acc.1))
  (o.1, acc.2 ||| o.2)

/-- One step of R60. -/
def intStep (acc : Nat × Flags) (x y : Int) : Nat × Flags :=
  let e := asSigned 32 acc.1 + x * y
  (wrapInt 32 e, acc.2 ||| flagIf (decide (e < - (2 ^ 31 : Nat) ∨ ((2 ^ 31 : Nat) : Int) ≤ e)) flagIV)

/-- An element's exact value in a product: a Q16 index as its level (R285). -/
def factor (k : NumKind) (x : Nat) : FVal := numValue k x
/-- An integer element in a product. -/
def intFactor (k : NumKind) (x : Nat) : Int :=
  match k with
  | .int sg w => readInt sg w x
  | .s1 => s1Value x
  | .q16 => q16Level x
  | .flt _ => 0

/-- Whether products of a kind are summed in floating point. -/
def NumKind.isFloat (k : NumKind) : Bool :=
  match k with
  | .flt _ => true
  | _ => false

/-- The float accumulator format of a component kind (R43). -/
def accFloat (k : NumKind) : FFmt := if k = .flt fmtF64 then fmtF64 else fmtF32

/-- A real product element (R59, R60). -/
def realChain (k : NumKind) (init : Nat) (ps : List (List Nat × List Nat)) : Nat × Flags :=
  if k.isFloat then ps.foldl (fun a p => chainStep (accFloat k) a (factor k (elem0 p.1)) (factor k (elem0 p.2))) (init, 0)
  else ps.foldl (fun a p => intStep a (intFactor k (elem0 p.1)) (intFactor k (elem0 p.2))) (init, 0)

/-- One step of a component (R61): acc plus or minus x * y. -/
def compStep (k : NumKind) (minus : Bool) (acc : Nat × Flags) (x y : Nat) : Nat × Flags :=
  if k.isFloat then
    let a := factor k x
    chainStep (accFloat k) acc (if minus then a.negate else a) (factor k y)
  else intStep acc (if minus then - intFactor k x else intFactor k x) (intFactor k y)

/-- A complex product element (R61): real and imaginary parts. -/
def complexChain (k : NumKind) (init : List Nat) (ps : List (List Nat × List Nat)) : List Nat × Flags :=
  let o := ps.foldl (fun (a : (Nat × Flags) × (Nat × Flags)) p =>
    let ar := elem0 p.1
    let ai := elem1 p.1
    let br := elem0 p.2
    let bi := elem1 p.2
    let re := compStep k true (compStep k false a.1 ar br) ai bi
    let im := compStep k false (compStep k false a.2 ar bi) ai br
    (re, im)) ((elem0 init, 0), (elem1 init, 0))
  ([o.1.1, o.2.1], o.1.2 ||| o.2.2)

/-- Joins computed elements and their flags. -/
def joinElems (xs : List (List Nat × Flags)) : List Nat × Flags :=
  (xs.flatMap (·.1), xs.foldl (fun f x => f ||| x.2) 0)

/-- A product (R291): real or complex, with an addend's elements or none. -/
def tileProduct (fmt : Nat) (a b : Tile) (add : Option Tile) : Tile × Flags :=
  let k := matrixKind fmt
  let inits := match add with
    | some t => t.elems
    | none => []
  let cols := b.columns
  let cells := a.grid.flatMap (fun r => cols.map (fun c => r.zip c))
  let o := joinElems ((cells.zip (List.range cells.length)).map (fun x =>
    let init := inits.getD x.2 [0, 0]
    if isComplex fmt then complexChain k init x.1
    else let e := realChain k (elem0 init) x.1
         ([e.1], e.2)))
  ({ rows := a.rows, cols := b.cols, kdim := a.cols, vfmt := (accOf fmt).1, vkind := (accOf fmt).2, val := o.1 }, o.2)

/-- Groups of 32 pairs. -/
def blocks32 (fuel : Nat) (ps : List (List Nat × List Nat)) : List (List (List Nat × List Nat)) :=
  match fuel with
  | 0 => []
  | k + 1 => ps.take 32 :: blocks32 k (ps.drop 32)

/-- One partial (R62): FP32 for the formats scaled by E8M0, I8 among them; INT32 for Q16. -/
def partialChain (fmt : Nat) (ps : List (List Nat × List Nat)) : Nat × Flags :=
  let k := matrixKind fmt
  if fmt = 0x12 then ps.foldl (fun a p => intStep a (intFactor k (elem0 p.1)) (intFactor k (elem0 p.2))) (0, 0)
  else ps.foldl (fun a p => chainStep fmtF32 a (factor k (elem0 p.1)) (factor k (elem0 p.2))) (0, 0)

/-- A block-partial product (R292). -/
def tilePartials (fmt : Nat) (a b : Tile) : Tile × Flags :=
  let cols := b.columns
  let cells := a.grid.flatMap (fun r => cols.map (fun c => r.zip c))
  let o := joinElems (cells.map (fun ps =>
    let es := (blocks32 (a.cols / 32) ps).map (partialChain fmt)
    (es.map (·.1), es.foldl (fun f x => f ||| x.2) 0)))
  ({ rows := a.rows, cols := b.cols, kdim := a.cols, vfmt := fmt, vkind := 2, val := o.1 }, o.2)

/-- Four bytes, lowest first, as an FP32 value (R293). -/
def superScale (bs : List Nat) : FVal := fmtF32.decode (bs.foldr (fun b x => b + 256 * x) 0)

/-- The factor g of block b (R63). -/
def scaleOf (fmt : Nat) (ea eb : Nat) (sa sb : FVal) : FVal × Flags :=
  if fmt = 0x12 then
    let x := mulExact sa sb
    let y := mulExact (.fin false ((ea + 1) * (eb + 1)) (65536 * 16129)) x.1
    (y.1, x.2 ||| y.2)
  else mulExact (ofE8M0 ea) (ofE8M0 eb)

/-- Scale-and-accumulate (R63, R293): partials, A scales, B scales, and the addend where there is one. -/
def tileScale (fmt : Nat) (p sa sb : Tile) (add : Option Tile) : Tile × Flags :=
  let kb := p.kdim / 32
  let rowsA := sa.grid.map (fun r => r.map elem0)
  let colsB := sb.columns.map (fun c => c.map elem0)
  let inits := match add with
    | some t => t.elems.map elem0
    | none => []
  let o := joinElems ((p.elems.zip (List.range p.elems.length)).map (fun x =>
    let qa := rowsA.getD (x.2 / p.cols) []
    let qb := colsB.getD (x.2 % p.cols) []
    let s := superScale ((qa.drop kb).take 4)
    let t := superScale ((qb.drop kb).take 4)
    let e := (List.range kb).foldl (fun (a : Nat × Flags) b =>
      let g := scaleOf fmt (qa.getD b 0) (qb.getD b 0) s t
      let pv := numValue (valueKind fmt 2) (x.1.getD b 0)
      let r := fmaExact 0 pv g.1 (fmtF32.decode a.1)
      let d := deliverExact fmtF32 0 r
      (d.1, a.2 ||| g.2 ||| d.2)) (inits.getD x.2 0, 0)
    ([e.1], e.2)))
  ({ rows := p.rows, cols := p.cols, vfmt := 0x01, val := o.1 }, o.2)

/-! ## Element-wise (R294), transpose (R295) -/

/-- One component of TADD (6) or TSUB (7). -/
def addComp (k : NumKind) (minus : Bool) (x y : Nat) : Nat × Flags :=
  match k with
  | .flt f => if minus then fSub f 0 x y else fAdd f 0 x y
  | _ => if minus then intStep (x, 0) (-1) (asSigned 32 y) else intStep (x, 0) 1 (asSigned 32 y)

/-- One element of THAD. -/
def mulElem (fmt : Nat) (x y : List Nat) : List Nat × Flags :=
  let k := matrixKind fmt
  if isComplex fmt then complexChain k [0, 0] [(x, y)]
  else
    let e := match k with
      | .flt f => fMul f 0 (elem0 x) (elem0 y)
      | _ => intStep (0, 0) (asSigned 32 (elem0 x)) (asSigned 32 (elem0 y))
    ([e.1], e.2)

/-- TADD, TSUB and THAD. -/
def tileElementwise (op fmt : Nat) (a b : Tile) : Tile × Flags :=
  let o := joinElems ((a.elems.zip b.elems).map (fun x =>
    if op = 9 then mulElem fmt x.1 x.2
    else
      let es := (x.1.zip x.2).map (fun c => addComp (matrixKind fmt) (decide (op = 7)) c.1 c.2)
      (es.map (·.1), es.foldl (fun f e => f ||| e.2) 0)))
  ({ a with val := o.1 }, o.2)

/-- TTR: elements bit for bit (R295). -/
def tileTranspose (a : Tile) : Tile :=
  { a with rows := a.cols, cols := a.rows, val := a.columns.flatMap (fun c => c.flatMap id) }

/-! ## Conversion (R57, R296, R298) -/

/-- The value of an element outside products: Q16 as L / 127 (R285). -/
def realValue (k : NumKind) (x : Nat) : FVal :=
  match k with
  | .q16 => let l := q16Level x
            .fin (decide (l < 0)) l.natAbs 127
  | k => numValue k x

/-- One component converted to a kind: `clamps` is TST's rule for an integer of the same width; c the effective
scale for a Q16 target. Q16 goes to an integer as its value L / 127 does from a floating-point type
(DESIGN CHOICE log 74). -/
def convComp (clamps : Bool) (src dst : NumKind) (mode : Nat) (c : FVal) (x : Nat) : Nat × Flags :=
  match src, dst with
  | .q16, .q16 => if clamps then q16Quantise (realValue .q16 x) c else (x, 0)
  | .q16, .flt f => f.deliver mode (realValue .q16 x)
  | .q16, .int sg w => floatToInt sg w mode (realValue .q16 x)
  | .q16, .s1 => (if q16Level x < 0 then 1 else 0, 0)
  | s, .q16 => q16Quantise (numValue s x) c
  | .int sg w, .int sg' w' => if clamps then clampInt flagIV sg' w' (readInt sg w x) else convertNum src dst mode x
  | .flt f, .flt g =>
    if f = g then (if (f.decode x).isNaN then (f.canonicalNaN, if clamps then 0 else (f.decode x).sigFlag) else (x, 0))
    else convertNum src dst mode x
  | .s1, .s1 => (x % 2, 0)
  | _, _ => convertNum src dst mode x

/-- TCVT (R296): round to nearest even, effective scale 1. -/
def tileConvert (fmt : Nat) (a : Tile) : Tile × Flags :=
  let src := valueKind a.vfmt a.vkind
  let o := joinElems (a.val.map (fun x =>
    let e := convComp false src (matrixKind fmt) 0 (.fin false 1 1) x
    ([e.1], e.2)))
  ({ a with vfmt := fmt, vkind := 0, val := o.1 }, o.2)

/-! ## Constants (R290) -/

/-- The bits of s(sv) that TFILL keeps. -/
def fillMask (fmt : Nat) : Nat :=
  if fmt = 0x04 then (2 ^ 19 - 1) * 2 ^ 13
  else if fmt = 0x13 then 2 ^ 64 - 1
  else 2 ^ (compsOf fmt * encWidth fmt) - 1

/-- TFILL's element. -/
def fillElem (fmt v : Nat) : List Nat :=
  if fmt = 0x13 then [v, 0]
  else if isComplex fmt then [v % 2 ^ encWidth fmt, v / 2 ^ encWidth fmt % 2 ^ encWidth fmt]
  else [v]

/-- TZERO and TFILL. -/
def tileConst (fmt rows cols : Nat) (e : List Nat) : Tile :=
  { rows := rows, cols := cols, vfmt := fmt, val := (List.replicate (rows * cols) e).flatMap id }

/-! ## Regions in planes (R249) -/

/-- Element q of a row of planes given as one number: plane k of block q / 64 holds bit b - 1 - k (R215). -/
def planeElem (b row q : Nat) : Nat :=
  (List.range b).foldl (fun x k => if row.testBit ((q / 64 * 8 * b + 8 * k) * 8 + q % 64) then x + 2 ^ (b - 1 - k) else x) 0

/-- The value of a region's bytes, row after row (R289). -/
def regionTile (fmt rows cols : Nat) (bs : List Byte) : Tile :=
  let rb := rowBytes fmt cols false
  let vals := (List.range rows).flatMap (fun r =>
    let row := leNat ((bs.drop (r * rb)).take rb)
    (List.range (cols * compsOf fmt)).map (fun q => planeElem (encWidth fmt) row q * 2 ^ encShift fmt))
  { rows := rows, cols := cols, vfmt := fmt, val := vals }

/-- The place of byte i of stretches laid one after another. -/
def placeAt (runs : List (Loc × Nat)) (i : Nat) : Option Loc :=
  match runs with
  | [] => none
  | (l, n) :: r => if i < n then some (l.plus i) else placeAt r (i - n)

end Sys2Proof.Machine
end

