-- ==== Sys2Proof/Machine/Manifest.lean ====
section
/-! DEFINITION. The manifest as a graph (R261 to R266, R270 to R275, R277, R278): references and drops, sharing,
depth and budget, forces and their snapshots, and the rewrite of a force's working copy. -/

namespace Sys2Proof.Machine

/-! ## Operation numbers: (major - 0x12) * 8 + fn (R283) -/

abbrev opTmul : Nat := 0
abbrev opTmac : Nat := 1
abbrev opTcmul : Nat := 2
abbrev opTcmulAdd : Nat := 3
abbrev opTbp : Nat := 4
abbrev opTsca : Nat := 5
abbrev opTadd : Nat := 6
abbrev opTsub : Nat := 7
abbrev opTtr : Nat := 8
abbrev opThad : Nat := 9
abbrev opTcvt : Nat := 10
abbrev opTzero : Nat := 21
abbrev opTfill : Nat := 22

/-! ## Nodes and names -/

/-- The node with a creation number. -/
def Manifest.node? (m : Manifest) (k : Nat) : Option Node := (m.nodes.find? (fun e => decide (e.1 = k))).map (·.2)

/-- Changes a node. -/
def Manifest.modNode (m : Manifest) (k : Nat) (f : Node → Node) : Manifest :=
  { m with nodes := m.nodes.map (fun e => if e.1 = k then (k, f e.2) else e) }

/-- The node that a tile register names (R262). -/
def Manifest.named (m : Manifest) (r : Nat) : Option Nat :=
  match SMap.get 0 m.tregs r with
  | 0 => none
  | k + 1 => some k

/-- All nodes that tile registers name. -/
def Manifest.names (m : Manifest) : List Nat := ((m.tregs.map (·.1)).filterMap m.named).eraseDups

/-- What a node refers to: nothing once it is materialized (R263, R278). -/
def Manifest.refsOf (m : Manifest) (k : Nat) : List Nat :=
  match m.node? k with
  | some n => n.refs
  | none => []

/-- Nodes reachable from a list through references. -/
def reachFrom (fuel : Nat) (refs : Nat → List Nat) (todo seen : List Nat) : List Nat :=
  match fuel with
  | 0 => seen
  | k + 1 =>
    match todo with
    | [] => seen
    | x :: r => if seen.contains x then reachFrom k refs r seen else reachFrom k refs (refs x ++ r) (seen ++ [x])

/-- Enough steps to visit every node and reference. -/
def Manifest.fuel (m : Manifest) (start : List Nat) : Nat := start.length + 1 + 8 * (m.nodes.length + 1)

def Manifest.reach (m : Manifest) (start : List Nat) : List Nat := reachFrom (m.fuel start) m.refsOf start []

/-- Drops every node that is no longer referenced (R263). The granules of a materialized one stay closed to the
forces issued before the instruction that dropped it, which is the given one, or the later one that took its last
name, or that dropped what read it (R277). -/
def Manifest.sweep (m : Manifest) (serial : Nat) : Manifest :=
  let live := m.reach (m.names ++ m.forces.map (·.root))
  let dead := m.nodes.filter (fun e => !live.contains e.1)
  let x := dead.reverse.foldl (fun (acc : SMap Nat × List (Nat × Nat × Nat)) e =>
    let at_ := Nat.max serial (Nat.max e.2.unnamed (SMap.get 0 acc.1 e.1))
    let marks := e.2.refs.foldl (fun mk o => SMap.set 0 mk o (Nat.max at_ (SMap.get 0 mk o))) acc.1
    (marks, if e.2.holds then acc.2 ++ [(e.2.gran, e.2.ngran, at_)] else acc.2)) ([], [])
  { m with nodes := m.nodes.filter (fun e => live.contains e.1), freed := m.freed ++ x.2 }

/-- Makes a tile register name a node, or none, and drops what is left unreferenced (R262, R263). -/
def Manifest.setName (m : Manifest) (r : Nat) (k : Option Nat) : Manifest :=
  let m := match m.named r with
    | some old => m.modNode old (fun n => { n with unnamed := m.serial })
    | none => m
  { m with tregs := SMap.set 0 m.tregs r (match k with
    | some k => k + 1
    | none => 0) }.sweep m.serial

/-- A tile instruction issues: it takes its number, and granules that no earlier force is kept from are
forgotten. -/
def Manifest.tick (m : Manifest) : Manifest :=
  { m with serial := m.serial + 1, freed := m.freed.filter (fun e => m.forces.any (fun f => decide (f.space ≤ e.2.2))) }

/-! ## Sharing, depth and budget (R265, R266) -/

/-- A node as an instruction would create it. -/
structure NewNode where
  op : Nat
  opnds : List Nat := []
  scal : List Word := []
  fmt : Nat
  contract : Nat := 0
  rows : Nat
  cols : Nat
  kdim : Nat := 0
  vfmt : Nat
  vkind : Nat := 0
  deriving DecidableEq, Repr

/-- An identical node that may be shared (R265): a leaf only while it is captured, a force that computes it included
(DEDUCED log 31). -/
def Manifest.identical (m : Manifest) (x : NewNode) : Option Nat :=
  (m.nodes.find? (fun e =>
    decide (e.2.op = x.op ∧ e.2.opnds = x.opnds ∧ e.2.scal = x.scal ∧ e.2.fmt = x.fmt ∧ e.2.contract = x.contract) &&
      (decide (x.op ≠ opLeaf) || decide (e.2.st = .captured ∨ e.2.st = .evaluating)))).map (·.1)

/-- A tile instruction adds a creator to a node (R264, R265), which is shared then, but for a leaf: a materialized one keeps
its value, and one that lost its value is built again from its operands (DEDUCED log 31). -/
def Node.share (serial : Nat) (n : Node) : Node :=
  let n := { n with ncre := n.ncre + 1, shareAt := serial }
  match n.st with
  | .built => { n with st := .shared }
  | .materialized => { n with st := if n.op = opLeaf then .materialized else .shared }
  | .faulted => { n with st := .shared, fcode := 0, refs := n.opnds }
  | _ => n

/-- The depth of a node (R266). -/
def Manifest.depth (m : Manifest) (fuel k : Nat) : Nat :=
  match fuel with
  | 0 => 1
  | j + 1 => (m.refsOf k).foldl (fun d o => Nat.max d (1 + Manifest.depth m j o)) 1

/-- Nodes that count against the budget (R266): those whose values no bank holds. -/
def Manifest.counted (m : Manifest) : List (Nat × Node) := m.nodes.filter (fun e => !e.2.holds)

/-- The roots: counted nodes that no live node refers to (R266). -/
def Manifest.rootsOf (m : Manifest) : List Nat :=
  (m.counted.filter (fun e => !(m.nodes.any (fun x => x.2.refs.contains e.1)))).map (·.1)

/-- The least of a list of numbers. -/
def least (xs : List Nat) : Option Nat :=
  match xs with
  | [] => none
  | x :: r => some (r.foldl Nat.min x)

/-! ## Forces (R270, R271) -/

/-- What a force of a root tests, as it stands now (R271). A force served before it counts as complete: the nodes it
materializes refer to nothing (DEDUCED log 30); one issued in trap mode goes before the suspended ones. -/
def Manifest.snapshot (m : Manifest) (root : Nat) (held : BitVec 16) (ahead : Bool) : Snapshot :=
  let earlier := m.forces.filter (fun (g : Force) => !ahead || g.ahead)
  let gone := earlier.flatMap (fun g => g.snap.reach.filter (fun k =>
    g.snap.named.contains k || g.snap.ext.contains k || decide (k = g.root)))
  let refs (k : Nat) : List Nat := if gone.contains k then [] else m.refsOf k
  let reach := reachFrom (m.fuel [root]) refs [root] []
  let start := m.names ++ [root]
  let live := reachFrom (m.fuel start) refs start []
  let ext := (live.filter (fun k => !reach.contains k)).flatMap (fun k => (refs k).filter reach.contains)
  { named := m.names, ext := ext.eraseDups, reach := reach, roots := m.forces.map (·.root), held := held }

/-- Whether a force is suspended. -/
def Manifest.suspends (m : Manifest) : Bool := m.forces.any (·.suspended)

/-- A force as it is issued now (R270): in trap mode it goes before the suspended ones (R271). -/
def Manifest.issued (m : Manifest) (f : Force) : Force :=
  let ahead := f.inTrap && m.suspends
  { f with snap := m.snapshot f.root f.snap.held ahead, serial := m.serial, space := m.serial, ahead := ahead }

/-- Issues a force (R270). -/
def Manifest.addForce (m : Manifest) (f : Force) : Manifest := { m with forces := m.forces ++ [m.issued f] }

/-- The first force in issue order, from index i on, that is not behind a suspended one. -/
def headForce (fs : List Force) (i : Nat) : Option (Nat × Force) :=
  match fs with
  | [] => none
  | f :: _ => if f.suspended then none else some (i, f)

/-- The first force, from index i on, that goes before the suspended ones. -/
def aheadForce (fs : List Force) (i : Nat) : Option (Nat × Force) :=
  match fs with
  | [] => none
  | f :: r => if f.ahead && !f.suspended then some (i, f) else aheadForce r (i + 1)

/-- The force that the rewrite unit serves next: those of trap mode that go ahead, then in issue order (R271). They keep
their place when the suspended ones are served again (DEDUCED log 30). -/
def nextForce (fs : List Force) : Option (Nat × Force) := (aheadForce fs 0).or (headForce fs 0)

/-! ## The working copy (R272) -/

/-- A materialized node in the copy. -/
abbrev opMat : Nat := 100
/-- A node that lost its value. -/
abbrev opLost : Nat := 101
/-- A copy of another node's value. -/
abbrev opSame : Nat := 102

/-- The node at a place. -/
def Copy.get (c : Copy) (k : Nat) : Option CopyNode := (c.nodes.find? (fun e => decide (e.1 = k))).map (·.2)
def Copy.mod (c : Copy) (k : Nat) (f : CopyNode → CopyNode) : Copy :=
  { c with nodes := c.nodes.map (fun e => if e.1 = k then (k, f e.2) else e) }
def Copy.opnds (c : Copy) (k : Nat) : List Nat :=
  match c.get k with
  | some n => n.opnds
  | none => []

/-- Post-order from a list of places: operands first, left to right, each node once (R276). -/
def postFrom (fuel : Nat) (opnds : Nat → List Nat) (todo : List (Nat × Bool)) (opened out : List Nat) : List Nat :=
  match fuel with
  | 0 => out
  | k + 1 =>
    match todo with
    | [] => out
    | (x, true) :: r => postFrom k opnds r opened (out ++ [x])
    | (x, false) :: r =>
      if opened.contains x then postFrom k opnds r opened out
      else postFrom k opnds ((opnds x).map (fun o => (o, false)) ++ (x, true) :: r) (opened ++ [x]) out

def Copy.post (c : Copy) : List Nat := postFrom (4 + 8 * (c.nodes.length + 1)) c.opnds [(c.root, false)] [] []

/-- A node as it enters a working copy: materialized and lost ones stand for their values. -/
def Node.inCopy (n : Node) (k : Nat) : CopyNode :=
  let op := if n.holds then opMat else if n.lost then opLost else n.op
  { op := op, opnds := if op = opMat ∨ op = opLost then [] else n.refs, fmt := n.fmt, contract := n.contract,
    rows := n.rows, cols := n.cols, kdim := n.kdim, vfmt := n.vfmt, vkind := n.vkind, scal := n.scal,
    attr := k, also := [], origs := [k], self := if op = opMat ∨ op = opLost ∨ op = opLeaf then some k else none }

/-- Nodes as entries of a working copy. -/
def Manifest.inCopy (m : Manifest) (ks : List Nat) : List (Nat × CopyNode) :=
  ks.filterMap (fun k => (m.node? k).map (fun n => (k, n.inCopy k)))

/-- The forced set as a working copy (R271). -/
def Manifest.copy (m : Manifest) (root : Nat) : Copy := { nodes := m.inCopy (m.reach [root]), root := root, next := m.create }

/-- The place of a copy that stands for a node, if one does. -/
def Copy.placeOf (c : Copy) (k : Nat) : Option Nat := (c.nodes.find? (fun e => e.2.origs.contains k)).map (·.1)

/-- A place whose value was lost, and whose node is built again (R264), is computed from the node's operands, which join the copy
where it does not hold them (R280, DEDUCED log 30). -/
def Manifest.graft (m : Manifest) (c : Copy) (k : Nat) : Copy :=
  match c.get k with
  | none => c
  | some n =>
    match if n.op = opMat ∨ n.op = opLost then n.origs.filterMap m.node? else [] with
    | [] => c
    | x :: r =>
      if (x :: r).any (fun y => y.holds || y.lost) then c
      else
        let new := (m.inCopy ((m.reach x.refs).filter (fun j => (c.placeOf j).isNone))).map
          (fun e => (e.1, { e.2 with opnds := e.2.opnds.map (fun o => (c.placeOf o).getD o) }))
        Copy.mod { c with nodes := c.nodes ++ new } k
          (fun y => { y with op := x.op, opnds := x.refs.map (fun o => (c.placeOf o).getD o), self := none })

/-! ## Rule 1: transposes pushed inward (R273) -/

/-- Replaces a place by another in every operand field, and in the root. -/
def Copy.replace (c : Copy) (a b : Nat) : Copy :=
  { c with nodes := c.nodes.map (fun e => (e.1, { e.2 with opnds := e.2.opnds.map (fun o => if o = a then b else o) }))
           root := if c.root = a then b else c.root }

/-- Adds the transposes of places as new nodes that mirror a node T. -/
def Copy.addTtr (c : Copy) (t : CopyNode) (xs : List Nat) : List Nat × Copy :=
  match xs with
  | [] => ([], c)
  | x :: r =>
    match c.get x with
    | none => let y := Copy.addTtr c t r
              (x :: y.1, y.2)
    | some n =>
      let new : CopyNode :=
        { op := opTtr, opnds := [x], fmt := n.vfmt, contract := t.contract, rows := n.cols, cols := n.rows, kdim := n.kdim,
          vfmt := n.vfmt, vkind := n.vkind, scal := [], attr := t.attr, also := [], origs := [], self := none }
      let y := Copy.addTtr { c with nodes := c.nodes ++ [(c.next, new)], next := c.next + 1 } t r
      (c.next :: y.1, y.2)

/-- Rewrites one transpose node, if a row of R273 applies. `keep` tells which nodes will be materialized. -/
def Copy.pushOne (c : Copy) (keep : Nat → Bool) (k : Nat) : Option Copy :=
  match c.get k with
  | none => none
  | some t =>
    if t.op ≠ opTtr then none
    else
      match t.opnds with
      | [u] =>
        match c.get u with
        | none => none
        | some n =>
          let become (ops : List Nat) (c : Copy) : Copy :=
            c.mod k (fun t => { t with op := n.op, opnds := ops, fmt := n.fmt, contract := n.contract, kdim := n.kdim,
                                       vfmt := n.vfmt, vkind := n.vkind, scal := n.scal, attr := n.attr })
          if n.op = opTtr then
            match n.opnds with
            | [x] =>
              match c.get x with
              | none => none
              | some xn =>
                if xn.op = opMat ∧ t.origs.any keep = true then some (c.mod k (fun t => { t with op := opSame, opnds := [x] }))
                else
                  some ((c.mod x (fun y => { y with origs := y.origs ++ t.origs.filter (fun o => !y.origs.contains o) })).replace k x)
            | _ => none
          else if n.op = opTmul ∨ n.op = opTmac then
            match n.opnds with
            | a :: b :: r =>
              let y := c.addTtr t (b :: a :: r)
              some (become y.1 y.2)
            | _ => none
          else if n.op = opTadd ∨ n.op = opTsub ∨ n.op = opThad ∨ n.op = opTcvt then
            let y := c.addTtr t n.opnds
            some (become y.1 y.2)
          else none
      | _ => none

/-- Applies rule 1 until nothing changes: a node of depth 16 (R266) needs fewer than 3 ^ 16 rewrites. -/
def Copy.pushAll (c : Copy) (keep : Nat → Bool) (fuel : Nat) : Copy :=
  match fuel with
  | 0 => c
  | j + 1 =>
    match c.post.findSome? (c.pushOne keep) with
    | some d => Copy.pushAll d keep j
    | none => c

/-! ## Rule 2: sharing in the copy (R265, R272) -/

/-- Whether two nodes of the copy are identical. -/
def CopyNode.same (a b : CopyNode) : Bool :=
  decide (a.op = b.op ∧ a.opnds = b.opnds ∧ a.scal = b.scal ∧ a.fmt = b.fmt ∧ a.contract = b.contract ∧ a.self = b.self)

/-- Merges each node, in post-order, into the first identical one before it. -/
def Copy.shareAll (c : Copy) (order : List Nat) (done : List Nat) : Copy :=
  match order with
  | [] => c
  | k :: r =>
    match c.get k with
    | none => Copy.shareAll c r done
    | some n =>
      match done.find? (fun j => match c.get j with
        | some x => x.same n
        | none => false) with
      | none => Copy.shareAll c r (done ++ [k])
      | some j =>
        let c := c.mod j (fun x => { x with
          origs := x.origs ++ n.origs.filter (fun o => !x.origs.contains o)
          also := if n.attr = x.attr then x.also else x.also ++ [n.attr] })
        Copy.shareAll (c.replace k j) r done

/-! ## Rule 3: chain reassociation (R275) -/

/-- Whether a node can stand in a chain. -/
def CopyNode.chains (n : CopyNode) : Bool :=
  decide (n.contract = 1) &&
    (decide (n.op = opTmul ∧ (n.fmt = 0x00 ∨ n.fmt = 0x01 ∨ n.fmt = 0x0A)) ||
      decide (n.op = opTcmul ∧ (n.fmt = 0x13 ∨ n.fmt = 0x14)))

/-- Operand fields of the copy's nodes, over those that the root needs. -/
def Copy.fields (c : Copy) : List (Nat × Nat) := c.post.flatMap (fun k => (c.opnds k).map (fun o => (k, o)))

/-- Whether a node is taken into the chain of the one node that reads it; `skip` are nodes named, read from
outside, or roots of other forces at the forcer's issue. -/
def Copy.inner (c : Copy) (skip : List Nat) (fields : List (Nat × Nat)) (y : Nat) : Bool :=
  match c.get y, fields.filter (fun e => decide (e.2 = y)) with
  | some n, [e] =>
    (match c.get e.1 with
      | some p => n.chains && p.chains && decide (p.op = n.op ∧ p.fmt = n.fmt)
      | none => false) && !(n.origs.any skip.contains)
  | _, _ => false

/-- The factors of a chain, left to right. -/
def Copy.factors (c : Copy) (inner : Nat → Bool) (fuel k : Nat) : List Nat :=
  match fuel with
  | 0 => [k]
  | j + 1 => (c.opnds k).flatMap (fun o => if inner o then Copy.factors c inner j o else [o])

/-- Cost and split of spans, by i * 64 + j. -/
structure SpanTable where
  cost : SMap Nat := []
  split : SMap Nat := []
  deriving DecidableEq, Repr

/-- 1 + the cost of a span, 0 for infinity. -/
def SpanTable.at_ (t : SpanTable) (i j : Nat) : Nat := if i = j then 1 else SMap.get 0 t.cost (i * 64 + j)

/-- Fills in one span (R275): a tie goes to the largest split. -/
def SpanTable.fill (t : SpanTable) (d : List Nat) (n i j : Nat) : SpanTable :=
  (List.range (j - i)).foldl (fun t x =>
    let k := i + x
    let a := t.at_ i k
    let b := t.at_ (k + 1) j
    let di := d.getD (i - 1) 0
    let dk := d.getD k 0
    let dj := d.getD j 0
    if ((i = 1 ∧ j = n) ∨ (di ≤ 64 ∧ dj ≤ 64)) ∧ dk ≤ 256 ∧ a ≠ 0 ∧ b ≠ 0 then
      let c := (a - 1) + (b - 1) + di * dk * dj + 1
      if t.at_ i j = 0 ∨ c ≤ t.at_ i j then
        { cost := SMap.set 0 t.cost (i * 64 + j) c, split := SMap.set 0 t.split (i * 64 + j) k }
      else t
    else t) t

/-- The whole table for n factors with dimensions d. -/
def spanTable (d : List Nat) (n : Nat) : SpanTable :=
  (List.range (n - 1)).foldl (fun t l =>
    (List.range (n - (l + 1))).foldl (fun t i => t.fill d n (i + 1) (i + 1 + (l + 1))) t) {}

/-- Builds the product of a span of factors; answers its place. -/
def Copy.build (c : Copy) (t : SpanTable) (top : CopyNode) (d fs : List Nat) (fuel i j : Nat) : Nat × Copy :=
  match fuel with
  | 0 => (fs.getD (i - 1) 0, c)
  | f + 1 =>
    if i = j then (fs.getD (i - 1) 0, c)
    else
      let k := SMap.get 0 t.split (i * 64 + j)
      let a := Copy.build c t top d fs f i k
      let b := Copy.build a.2 t top d fs f (k + 1) j
      let new : CopyNode := { top with opnds := [a.1, b.1], rows := d.getD (i - 1) 0, cols := d.getD j 0, kdim := d.getD k 0,
                                       also := [], origs := [], self := none }
      (b.2.next, { b.2 with nodes := b.2.nodes ++ [(b.2.next, new)], next := b.2.next + 1 })

/-- Regroups the chain of one top (R275). -/
def Copy.regroup (c : Copy) (skip : List Nat) (top : Nat) : Copy :=
  let fields := c.fields
  match c.get top with
  | none => c
  | some n =>
    if n.chains && !(c.inner skip fields top) then
      let fs := c.factors (c.inner skip fields) 70 top
      if fs.length < 3 then c
      else
        let d := (match fs with
          | f :: _ => (match c.get f with
            | some x => x.rows
            | none => 0)
          | [] => 0) :: fs.map (fun f => match c.get f with
            | some x => x.cols
            | none => 0)
        let t := spanTable d fs.length
        let k := SMap.get 0 t.split (64 + fs.length)
        let a := c.build t n d fs 70 1 k
        let b := a.2.build t n d fs 70 (k + 1) fs.length
        b.2.mod top (fun x => { x with opnds := [a.1, b.1], kdim := d.getD k 0 })
    else c

/-- The rewrite of a force (R272): the three rules in order. -/
def Manifest.rewrite (m : Manifest) (f : Force) (keep : Nat → Bool) : Copy :=
  let c := (m.copy f.root).pushAll keep (3 ^ 16)
  let c := c.shareAll c.post []
  let skip := f.snap.named ++ f.snap.ext ++ f.snap.roots
  c.post.foldl (fun c k => c.regroup skip k) c

/-- Whether a force materializes a node that it computes (R278): an interior node named or read from outside at
the forcer's issue, or the root where it is a leaf or where the exit forces it for a TST (DEDUCED log 30). -/
def Manifest.keeps (m : Manifest) (f : Force) (k : Nat) : Bool :=
  match m.node? k with
  | none => false
  | some n =>
    if n.op = opLeaf then decide (k = f.root)
    else f.snap.named.contains k || f.snap.ext.contains k || (decide (f.kind = .exit) && decide (k = f.root))

end Sys2Proof.Machine
end

