-- ==== Sys2Proof/Machine/Force.lean ====
section
/-! DEFINITION. Serving a force (R271, R276 to R282): the nodes of the rewritten copy in post-order, space in the
held accumulator banks, flags and zeroed elements, what becomes of the nodes, and the writes of a TST (R297 to
R299). -/

namespace Sys2Proof.Machine

/-- Replaces a team's manifest. -/
def State.setMf (s : State) (tk : Nat) (m : Manifest) : State := s.setTeam tk { s.team tk with mf := m }
/-- A team's manifest. -/
def State.mf (s : State) (tk : Nat) : Manifest := (s.team tk).mf

/-! ## Records (R281, R282) -/

/-- The low 56 bits of an address. -/
def low56 (a : Word) : Word := a &&& (2 ^ 56 - 1)

/-- Records a node computed with flags: creator, flags, forcer (R281). -/
def Manifest.record (m : Manifest) (creator : Word) (fl : Flags) (forcer : Word) : Manifest :=
  if fl = 0 then m
  else
    let n := m.tflags.toNat / 2 ^ 8 % 256
    let low := m.tflags.toNat % 128 ||| fl.toNat
    let m := { m with tflags := BitVec.ofNat 64 (low + Nat.min 255 (n + 1) * 2 ^ 8) }
    if n = 0 then { m with tfcre := low56 creator ||| BitVec.ofNat 64 (fl.toNat * 2 ^ 56), tffor := low56 forcer } else m

/-- Records one zeroed element of a leaf (R282). -/
def Manifest.recordZero (m : Manifest) (leaf : Nat) (creator : Word) (row col : Nat) : Manifest :=
  let n := m.toerr.toNat / 2 ^ 16 % 2 ^ 16
  let m := { m with tflags := m.tflags ||| 64 }
  if n = 0 then
    { m with toerr := BitVec.ofNat 64 (row % 256 + col % 256 * 2 ^ 8 + 2 ^ 16 + leaf % 2 ^ 32 * 2 ^ 32), tocre := low56 creator }
  else
    { m with toerr := BitVec.ofNat 64 (m.toerr.toNat - n * 2 ^ 16 + Nat.min 65535 (n + 1) * 2 ^ 16) }

/-! ## Reading a leaf (R282, R289) -/

/-- The value that a node holds. -/
def Node.tile (n : Node) : Tile := { rows := n.rows, cols := n.cols, kdim := n.kdim, vfmt := n.vfmt, vkind := n.vkind, val := n.val }

/-- Whether the line of a place is poisoned or holds an uncorrectable error. -/
def State.spoiled (s : State) (l : Loc) : Bool :=
  match s.lineKey l with
  | some k => (s.line k).poison || s.badFor none k
  | none => false

/-- Whether component q of row r of a leaf has a bit in a spoiled line. -/
def State.elemSpoiled (s : State) (n : Node) (r q : Nat) : Bool :=
  let b := encWidth n.fmt
  (List.range b).any (fun k =>
    match placeAt n.region (r * rowBytes n.fmt n.cols false + q / 64 * 8 * b + 8 * k) with
    | some l => s.spoiled l
    | none => false)

/-- What a zeroed element of a component kind enters as (R282): the number 0. -/
def zeroOf (k : NumKind) : Nat :=
  match k with
  | .s1 => zeroed
  | .q16 => zeroed
  | _ => 0

/-- Reads a leaf's elements for evaluation: those of spoiled lines enter as zero, and are recorded and logged (R282, R376);
errors found are detected (R243). -/
def State.readLeaf (s : State) (tk leaf : Nat) : Tile × State :=
  match (s.mf tk).node? leaf with
  | none => ({}, s)
  | some n =>
    let p := compsOf n.fmt
    let bad : List (Nat × Nat) := (List.range n.rows).flatMap (fun r =>
      (List.range n.cols).filterMap (fun c => if (List.range p).any (fun j => s.elemSpoiled n r (c * p + j)) then some (r, c) else none))
    if bad.isEmpty then (n.tile, s)
    else
      let w := s.whoOf tk
      let s := (linePieces n.region).foldl (fun (s : State) x => s.detectAt w x.1) s
      let val := (n.val.zip (List.range n.val.length)).map (fun x =>
        if bad.contains (x.2 / p / n.cols, x.2 / p % n.cols) then zeroOf (matrixKind n.fmt) else x.1)
      let s := bad.foldl (fun (s : State) e => (s.setMf tk ((s.mf tk).recordZero leaf n.creator e.1 e.2)).logEntry 2 (s.asidOf tk)
        (s.gridOf tk).launch.seq 0 n.creator) s
      ({ n.tile with val := val }, s)

/-! ## Space (R277) -/

/-- Granules that a value takes. -/
def granules (n : CopyNode) : Nat :=
  let elems := n.rows * n.cols * (if n.vkind = 2 then n.kdim / 32 else 1)
  (elems * storeBits n.vfmt n.vkind + 32767) / 32768

/-- Granule runs that a force may not use: materialized values, what the team's forces keep for readers to come, and
what was dropped no earlier than its issue, or than the TRET after which it is served again (R277, R280). -/
def Manifest.busy (m : Manifest) (f : Force) : List (Nat × Nat) :=
  m.nodes.filterMap (fun e => if e.2.holds then some (e.2.gran, e.2.ngran) else none) ++
    m.forces.flatMap (fun (g : Force) => (g.work.map (fun w => w.temps.map (·.2))).getD []) ++
    m.freed.filterMap (fun e => if f.space ≤ e.2.2 then some (e.1, e.2.1) else none)

/-- The lowest run of n free granules of held banks. -/
def freeRun (held : BitVec 16) (busy : List (Nat × Nat)) (n : Nat) : Option Nat :=
  (List.range 256).find? (fun g => decide (g + n ≤ 256) && (List.range n).all (fun i =>
    held.getLsbD ((g + i) / 16) && !(busy.any (fun b => decide (b.1 ≤ g + i ∧ g + i < b.1 + b.2)))))

/-- The accumulator banks that a team holds, as a mask (R258). -/
def Team.heldMask (t : Team) : BitVec 16 := t.acc.foldl (fun m e => if e.2 = 0 then m else m ||| BitVec.ofNat 16 (2 ^ e.1)) 0

/-! ## Computing (R276) -/

/-- The value of a node of the copy from its operands' (R291 to R296). -/
def computeNode (n : CopyNode) (xs : List Tile) : Tile × Flags :=
  let a := xs.getD 0 {}
  let b := xs.getD 1 {}
  let c := xs.getD 2 {}
  match n.op with
  | 0 => tileProduct n.fmt a b none
  | 1 => tileProduct n.fmt a b (some c)
  | 2 => tileProduct n.fmt a b none
  | 3 => tileProduct n.fmt a b (some c)
  | 4 => tilePartials n.fmt a b
  | 5 => tileScale n.fmt a b c (xs[3]?)
  | 6 => tileElementwise 6 n.fmt a b
  | 7 => tileElementwise 7 n.fmt a b
  | 8 => (tileTranspose a, 0)
  | 9 => tileElementwise 9 n.fmt a b
  | 10 => tileConvert n.fmt a
  | 21 => (tileConst n.fmt n.rows n.cols (List.replicate (compsOf n.fmt) 0), 0)
  | 22 => (tileConst n.fmt n.rows n.cols (fillElem n.fmt (n.scal.headD 0).toNat), 0)
  | _ => (a, 0)

/-- A value in the shape of a node of the copy. -/
def CopyNode.tile (n : CopyNode) (val : List Nat) : Tile :=
  { rows := n.rows, cols := n.cols, kdim := n.kdim, vfmt := n.vfmt, vkind := n.vkind, val := val }

/-- The value that a place holds once it is computed. -/
def Work.val (w : Work) (k : Nat) : List Nat := ((w.vals.find? (fun x => decide (x.1 = k))).map (·.2)).getD []

/-- The materialized node that a place stands for, if there is one. -/
def Manifest.ready (m : Manifest) (n : CopyNode) : Option Node :=
  (n.origs.filterMap m.node?).find? Node.holds

/-- Whether a force materializes the value of a place (R278). -/
def Manifest.keepsPlace (m : Manifest) (f : Force) (n : CopyNode) : Bool := decide (n.op ≠ opMat) && n.origs.any (m.keeps f)

/-- Places that the root, or a value to be kept, still needs: what a materialized or computed one read is no longer
needed (R263). -/
def Work.needed (w : Work) (m : Manifest) (f : Force) : List Nat :=
  let opnds (k : Nat) : List Nat := match w.copy.get k with
    | some n => if (m.ready n).isSome || w.vals.any (fun x => decide (x.1 = k)) then [] else n.opnds
    | none => []
  reachFrom (2 + 9 * (w.copy.nodes.length + 1)) opnds
    (w.copy.root :: (w.copy.nodes.filter (fun e => m.keepsPlace f e.2)).map (·.1)) []

/-- The values of operands: a leaf that is not materialized here is read for each of them (R282). -/
def State.operandValues (s : State) (tk : Nat) (w : Work) (os : List Nat) : List Tile × State :=
  match os with
  | [] => ([], s)
  | o :: r =>
    let x : Tile × State := match w.copy.get o with
      | some n =>
        (match n.self with
          | some leaf =>
            if n.op = opLeaf ∧ w.vals.any (fun x => decide (x.1 = o)) = false then s.readLeaf tk leaf
            else (n.tile (w.val o), s)
          | none => (n.tile (w.val o), s))
      | none => ({}, s)
    let y := State.operandValues x.2 tk w r
    (x.1 :: y.1, y.2)

/-- The index of a place's last reader in an order. -/
def lastReader (c : Copy) (order : List Nat) (k : Nat) : Nat :=
  (order.zip (List.range order.length)).foldl (fun b x => if (c.opnds x.1).contains k then x.2 else b) 0

/-! ## Ends of a force (R278, R280) -/

/-- Replaces the force at an index, or removes it. -/
def Manifest.putForce (m : Manifest) (i : Nat) (f : Option Force) : Manifest :=
  { m with forces := match f with
    | some f => m.forces.set i f
    | none => m.forces.eraseIdx i }

/-- The state of a node that is not computed. -/
def Node.base (n : Node) : NodeState :=
  if n.op = opLeaf then .captured else if 2 ≤ n.ncre then .shared else .built

/-- A node that a force materializes (R278): one that has got a further creator since the force was issued is shared again
(R264, DEDUCED log 31). -/
def Node.materialize (y : Node) (f : Force) (val : List Nat) (gran ngran : Nat) : Node :=
  { y with st := if f.serial < y.shareAt ∧ y.op ≠ opLeaf then .shared else .materialized
           val := val, gran := gran, ngran := ngran, refs := [], fcode := 0 }

/-- What becomes of the nodes of a computed copy (R278): kept ones are materialized with the copy's value. -/
def Manifest.settle (m : Manifest) (f : Force) (w : Work) : Manifest :=
  w.order.foldl (fun (m : Manifest) k =>
    match w.copy.get k with
    | none => m
    | some n =>
      if n.op = opMat then m
      else
        let x : List Nat × Nat × Nat := match m.ready n with
          | some x => (x.val, x.gran, x.ngran)
          | none => (w.val k, ((w.temps.find? (fun t => decide (t.1 = k))).map (·.2)).getD (0, 0))
        n.origs.foldl (fun (m : Manifest) o =>
          m.modNode o (fun y =>
            if y.holds then y
            else if m.keeps f o then y.materialize f x.1 x.2.1 x.2.2
            else if y.st = .evaluating then { y with st := y.base }
            else y)) m) m

/-- Nodes that the rewritten copy left out return to built (R264, R275). -/
def Manifest.leaveOut (m : Manifest) (w : Work) : Manifest :=
  w.set.foldl (fun (m : Manifest) k => m.modNode k (fun y =>
    if y.st = .evaluating then { y with st := if y.op = opLeaf then .captured else .built } else y)) m

/-- A fault in evaluation (R280): the force is suspended, the trap registers name the node's creator and the
force, and the trap is raised. Forces of trap mode that wait behind it go before it from now on (R271). -/
def State.forceFault (s : State) (tk i : Nat) (f : Force) (code : Nat) (origs : List Nat) (creator : Word) : State :=
  let m := s.mf tk
  let m := origs.foldl (fun m o => m.modNode o (fun y => if y.holds then y else { y with st := .faulted, fcode := code, gran := 0, ngran := 0 })) m
  let m := m.putForce i (some { f with suspended := true })
  let m := { m with forces := m.forces.map (fun (g : Force) => { g with ahead := g.ahead || (g.inTrap && !g.suspended) }) }
  let s := s.setMf tk { m with tcreat := low56 creator, tforcr := low56 f.faddr }
  raiseAsync s tk ⟨8, code, 0⟩ ⟨0, 8, code, (s.team tk).seq.pc, 0, 0, 0, 0, 0, []⟩

/-- A fault at a node of the copy. -/
def State.placeFault (s : State) (tk i : Nat) (f : Force) (code : Nat) (n : CopyNode) : State :=
  let creator := match (s.mf tk).node? n.attr with
    | some y => y.creator
    | none => 0
  s.forceFault tk i f code (if n.origs.isEmpty then [n.attr] else n.origs) creator

/-! ## One turn of the rewrite unit -/

/-- The RWU starts a force: its set is evaluating, and the copy is rewritten (R264, R272). -/
def State.startForce (s : State) (tk i : Nat) (f : Force) : State :=
  let m := s.mf tk
  let c := m.rewrite f (m.keeps f)
  let set := m.reach [f.root]
  let w : Work := { copy := c, set := set, order := c.post, pos := 0, vals := [], temps := [] }
  let m := set.foldl (fun (m : Manifest) k => m.modNode k (fun y =>
    if y.holds || y.lost then y else { y with st := .evaluating, fcode := 0 })) m
  s.setMf tk (m.putForce i (some { f with work := some w }))

/-- The space of a place, if a run is free (R277). -/
def State.spaceFor (s : State) (tk : Nat) (f : Force) (n : CopyNode) : Option Nat :=
  freeRun (f.snap.held &&& (s.team tk).heldMask) ((s.mf tk).busy f) (granules n)

/-- The force goes on to its next place: the space of operands whose last reader has run is free (R277), and their values are
gone. -/
def Work.pass (w : Work) (m : Manifest) (f : Force) (n : CopyNode) : Work :=
  let keep (k : Nat) : Bool := match w.copy.get k with
    | some x => m.keepsPlace f x
    | none => false
  let gone := (w.temps.map (·.1)).filter (fun k => n.opnds.contains k && decide (lastReader w.copy w.order k = w.pos) && !keep k)
  { w with
    pos := w.pos + 1
    vals := w.vals.filter (fun x => !gone.contains x.1)
    temps := w.temps.filter (fun t => !gone.contains t.1) }

/-- Computes a node of the copy that has its space: value, flags and records (R276, R281). -/
def State.computePlace (s : State) (tk i : Nat) (f : Force) (w : Work) (k : Nat) (n : CopyNode) : State :=
  let x : (Tile × Flags) × State :=
    if n.op = opLeaf then
      (match n.self with
        | some leaf =>
          let y := s.readLeaf tk leaf
          ((y.1, 0), y.2)
        | none => (({}, 0), s))
    else
      let y := s.operandValues tk w n.opnds
      (computeNode n y.1, y.2)
  let s := x.2
  let m := (n.attr :: n.also).foldl (fun m a => m.modNode a (fun y => { y with flags := y.flags ||| x.1.2 })) (s.mf tk)
  let m := match m.node? n.attr with
    | some y => m.record y.creator x.1.2 f.faddr
    | none => m
  s.setMf tk (m.putForce i (some { f with work := some ({ w with vals := (k, x.1.1.val) :: w.vals }.pass m f n) }))

/-- The next place of a force under way: one that is computed or no longer needed is passed over, a materialized one gives its
value, a lost one is a fault, and the others are given space and computed (R276, R277, R280). -/
def State.stepPlace (s : State) (tk i : Nat) (f : Force) (w : Work) (k : Nat) (n : CopyNode) : State :=
  let m := s.mf tk
  let next (w : Work) : State := s.setMf tk (m.putForce i (some { f with work := some (w.pass m f n) }))
  if w.vals.any (fun x => decide (x.1 = k)) || !(w.needed m f).contains k then next w
  else
    match m.ready n with
    | some x => next { w with vals := (k, x.val) :: w.vals }
    | none =>
      if n.op = opLost ∨ n.op = opMat then s.placeFault tk i f 3 n
      else if n.op = opLeaf ∧ m.keepsPlace f n = false then next w
      else
        match s.spaceFor tk f n with
        | none => s.placeFault tk i f 1 n
        | some g => s.computePlace tk i f { w with temps := (k, g, granules n) :: w.temps } k n

/-- One turn of a force under way. -/
def State.workForce (s : State) (tk i : Nat) (f : Force) (w : Work) : State :=
  let m := s.mf tk
  match w.order.drop w.pos with
  | k :: _ =>
    (match w.copy.get k with
      | some n => s.stepPlace tk i f w k n
      | none => s.setMf tk (m.putForce i (some { f with work := some { w with pos := w.pos + 1 } })))
  | [] =>
    let m := (m.settle f w).leaveOut w
    match f.kind with
    | .tst _ _ _ => s.setMf tk ((m.putForce i (some { f with fin := true, work := none })).sweep f.serial)
    | _ => s.setMf tk ((m.putForce i none).sweep f.serial)

/-! ## The writes of a TST (R297, R298) -/

/-- Fields of a TST descriptor (R284). -/
def descStride (d : Word) : Nat := d.toNat / 2 ^ 32 % 2 ^ 16
def descRnd (d : Word) : Nat := d.toNat / 2 ^ 48 % 4
def descPl (d : Word) : Bool := d.toNat.testBit 50
def descQsc (d : Word) : Nat := d.toNat / 2 ^ 56
/-- Whether a TST's target is packed (R297). -/
def tstPacked (fmt : Nat) (d : Word) : Bool := decide (wideBytes fmt ≠ 0) && !descPl d

/-- The components of a tile converted for a TST (R298). -/
def tstConvert (fmt : Nat) (d : Word) (t : Tile) : List Nat × Flags :=
  let c : FVal := ofE8M0 (descQsc d)
  joinElems (t.val.map (fun x =>
    let e := convComp true (valueKind t.vfmt t.vkind) (matrixKind fmt) (descRnd d) c x
    ([e.1], e.2)))

/-- A packed row's bytes. -/
def packedRow (fmt : Nat) (es : List Nat) : List Byte := es.flatMap (fun x => leBytes (wideBytes fmt) x)

/-- Byte i of a row in plane layout, with its mask (R249, R298). -/
def planeRowByte (fmt : Nat) (es : List Nat) (i : Nat) : Nat × Nat :=
  let b := encWidth fmt
  let k := i % (8 * b) / 8
  let q := i / (8 * b) * 64 + i % 8 * 8
  (List.range 8).foldl (fun (x : Nat × Nat) j =>
    match es[q + j]? with
    | some v => (x.1 + 2 ^ j, x.2 + if (v / 2 ^ encShift fmt).testBit (b - 1 - k) then 2 ^ j else 0)
    | none => x) (0, 0)

/-- Who the evaluation of a team is for its writes: the tags of a TST were set at its issue, and its lines are claimed
since then (R299). -/
def State.tileWho (s : State) (tk : Nat) (f : Force) : Who :=
  { core := none, time := f.pts, asid := s.asidOf tk, grid := 0, ix := 0, claim := true, owner := .agent (.seq tk) }

/-- The bytes of a TST's target, row after row, each with the mask of its bits that are written (R297, R298) (DEDUCED log
34). -/
def tstBytes (fmt : Nat) (d : Word) (t : Tile) (vals : List Nat) : List (Nat × Nat) :=
  let rows := groups t.rows (Nat.max 1 (t.cols * compsOf fmt)) vals
  if tstPacked fmt d then (rows.flatMap (packedRow fmt)).map (fun b => (255, b.toNat))
  else rows.flatMap (fun es => (List.range (rowBytes fmt t.cols false)).map (planeRowByte fmt es))

/-- Whether the write of a piece of a target must wait: an earlier claim of its line, an earlier command that has still to
read it, or another team's capture (R235, R268, R299). -/
def State.tstWaits (s : State) (tk : Nat) (f : Force) (p : Loc × Nat) : Bool :=
  s.claimedBefore f.num (tagKey p.1) || s.commands.any (fun c => decide (c.num < f.num) && c.srcs.contains (tagKey p.1)) ||
    s.teams.any (fun t => decide (t.1 ≠ tk) && t.2.mf.nodes.any (fun e =>
      e.2.captures && e.2.region.any (fun r => overlaps p.1 p.2 r.1 r.2)))

/-- The next piece that a TST can write: the lines of a packed row are written in ascending address, and each line waits for
itself (R298, R299). -/
def State.tstNext (s : State) (tk : Nat) (f : Force) : Option (Nat × Loc × Nat) :=
  match f.kind, (s.mf tk).node? f.root with
  | .tst fmt _ d, some n =>
    let rb := rowBytes fmt n.cols true
    f.left.find? (fun x => !s.tstWaits tk f x.2 &&
      !(tstPacked fmt d && f.left.any (fun y => decide (y.1 < x.1 ∧ y.1 / rb = x.1 / rb))))
  | _, _ => none

/-- Writes one piece of a TST's target: the bits under the masks (R298, R299). -/
def State.writeTst (s : State) (tk : Nat) (f : Force) (bytes : List (Nat × Nat)) (x : Nat × Loc × Nat) : State :=
  let w := s.tileWho tk f
  let s := s.detectAt w x.2.1
  s.storeRuns w 0 [x.2] (mergeBytes (s.pieceBytes x.2.1 x.2.2) ((bytes.drop x.1).take x.2.2)) false false

/-- Whether a force's target meets a region that the team's own manifest captures (R269). -/
def Manifest.meets (m : Manifest) (f : Force) : Bool :=
  m.nodes.any (fun e => e.2.captures && e.2.region.any (fun r => f.left.any (fun t => overlaps t.2.1 t.2.2 r.1 r.2)))

/-- A turn of a TST whose force is computed: a target that meets the team's own capture is a fault, and so is a root that has
lost its value since (R269, R279, R280); else one line is written, and after the last the flags are recorded (R298). -/
def State.finishTst (s : State) (tk i : Nat) (f : Force) (fmt : Nat) (d : Word) : State :=
  let m := s.mf tk
  if m.meets f then s.forceFault tk i f 4 [] f.faddr
  else
    match m.node? f.root with
    | none => s.setMf tk ((m.putForce i none).sweep f.serial)
    | some n =>
      if !n.holds then s.forceFault tk i f 3 [f.root] n.creator
      else
        match s.tstNext tk f with
        | none => s
        | some x =>
          let o := tstConvert fmt d n.tile
          let s := s.writeTst tk f (tstBytes fmt d n.tile o.1) x
          let left := f.left.filter (fun y => decide (y.1 ≠ x.1))
          if left.isEmpty then s.setMf tk ((((s.mf tk).record f.faddr o.2 f.faddr).putForce i none).sweep f.serial)
          else s.setMf tk ((s.mf tk).putForce i (some { f with left := left }))

/-- The force that the exit of a team issues for a suspended TST: it is served first (R155, R270) (DEDUCED log 30). -/
def Manifest.exitForce (m : Manifest) (f : Force) (held : BitVec 16) (eaddr : Word) : Force :=
  { f with kind := .exit, faddr := eaddr, snap := m.snapshot f.root held true, suspended := false, inTrap := false, target := [],
           left := [], serial := m.serial, space := m.serial, fin := false, ahead := true, work := none }

/-- Step 1 of the exit (R155, R270): only what an issued TST needs is kept; tile registers are cleared. -/
def Team.atExit (t : Team) : Team :=
  let m := t.mf
  let kept : List Force := m.forces.filter (fun (f : Force) => match f.kind with
    | .tst _ _ _ => true
    | .exit => true
    | _ => false)
  let forces := kept.flatMap (fun (f : Force) =>
    if f.suspended && !f.fin then [m.exitForce f t.heldMask (low56 t.seq.pc), { f with suspended := false, work := none }]
    else [{ f with suspended := false }])
  { t with mf := { m with tregs := [], forces := forces }.sweep m.serial }

/-- FORCE_EVALUATION: the rewrite unit's turn on the team that the operand names (R271, R276). A team that has stopped to
swap out has the evaluation in progress completed (R143). -/
def execForceEvaluation (s : State) : Out :=
  match s.turn with
  | .event _ (.nat tk) =>
    let s := if (s.team tk).st = .exiting then s.setTeam tk (s.team tk).atExit else s
    let t := s.team tk
    if (s.gridOf tk).interval.st = .rolling then .next s
    else
      match nextForce t.mf.forces with
      | none => .next s
      | some (i, f) =>
        if t.st = .running ∨ t.st = .exiting ∨ (t.st = .swapped ∧ t.placed = true ∧ (f.work.isSome = true ∨ f.fin = true)) then
          match f.fin, f.work, f.kind with
          | true, _, .tst fmt _ d => .next (s.finishTst tk i f fmt d)
          | true, _, _ => .next s
          | false, some w, _ => .next (s.workForce tk i f w)
          | false, none, _ => .next (s.startForce tk i f)
        else .next s
  | _ => .next s

end Sys2Proof.Machine
end

