-- ==== Sys2Proof/Machine/Crypto.lean ====
section
/-! DEFINITION. The functions that R378, R382 and R386 name by their standards: SHA-384 and SHA-256 (FIPS 180-4), ECDSA over P-384
(FIPS 186-5) and LMS (RFC 8554) (PRESUMED log 9). -/

namespace Sys2Proof.Machine

/-! ## SHA-2 -/

/-- The round constants of SHA-384. -/
def sha512Keys : List (BitVec 64) :=
  [0x428A2F98D728AE22, 0x7137449123EF65CD, 0xB5C0FBCFEC4D3B2F, 0xE9B5DBA58189DBBC] ++
  [0x3956C25BF348B538, 0x59F111F1B605D019, 0x923F82A4AF194F9B, 0xAB1C5ED5DA6D8118] ++
  [0xD807AA98A3030242, 0x12835B0145706FBE, 0x243185BE4EE4B28C, 0x550C7DC3D5FFB4E2] ++
  [0x72BE5D74F27B896F, 0x80DEB1FE3B1696B1, 0x9BDC06A725C71235, 0xC19BF174CF692694] ++
  [0xE49B69C19EF14AD2, 0xEFBE4786384F25E3, 0x0FC19DC68B8CD5B5, 0x240CA1CC77AC9C65] ++
  [0x2DE92C6F592B0275, 0x4A7484AA6EA6E483, 0x5CB0A9DCBD41FBD4, 0x76F988DA831153B5] ++
  [0x983E5152EE66DFAB, 0xA831C66D2DB43210, 0xB00327C898FB213F, 0xBF597FC7BEEF0EE4] ++
  [0xC6E00BF33DA88FC2, 0xD5A79147930AA725, 0x06CA6351E003826F, 0x142929670A0E6E70] ++
  [0x27B70A8546D22FFC, 0x2E1B21385C26C926, 0x4D2C6DFC5AC42AED, 0x53380D139D95B3DF] ++
  [0x650A73548BAF63DE, 0x766A0ABB3C77B2A8, 0x81C2C92E47EDAEE6, 0x92722C851482353B] ++
  [0xA2BFE8A14CF10364, 0xA81A664BBC423001, 0xC24B8B70D0F89791, 0xC76C51A30654BE30] ++
  [0xD192E819D6EF5218, 0xD69906245565A910, 0xF40E35855771202A, 0x106AA07032BBD1B8] ++
  [0x19A4C116B8D2D0C8, 0x1E376C085141AB53, 0x2748774CDF8EEB99, 0x34B0BCB5E19B48A8] ++
  [0x391C0CB3C5C95A63, 0x4ED8AA4AE3418ACB, 0x5B9CCA4F7763E373, 0x682E6FF3D6B2B8A3] ++
  [0x748F82EE5DEFB2FC, 0x78A5636F43172F60, 0x84C87814A1F0AB72, 0x8CC702081A6439EC] ++
  [0x90BEFFFA23631E28, 0xA4506CEBDE82BDE9, 0xBEF9A3F7B2C67915, 0xC67178F2E372532B] ++
  [0xCA273ECEEA26619C, 0xD186B8C721C0C207, 0xEADA7DD6CDE0EB1E, 0xF57D4F7FEE6ED178] ++
  [0x06F067AA72176FBA, 0x0A637DC5A2C898A6, 0x113F9804BEF90DAE, 0x1B710B35131C471B] ++
  [0x28DB77F523047D84, 0x32CAAB7B40C72493, 0x3C9EBE0A15C9BEBC, 0x431D67C49C100D4C] ++
  [0x4CC5D4BECB3E42B6, 0x597F299CFC657E2A, 0x5FCB6FAB3AD6FAEC, 0x6C44198C4A475817]

/-- The round constants of SHA-256. -/
def sha256Keys : List (BitVec 32) :=
  [0x428A2F98, 0x71374491, 0xB5C0FBCF, 0xE9B5DBA5, 0x3956C25B, 0x59F111F1, 0x923F82A4, 0xAB1C5ED5] ++
  [0xD807AA98, 0x12835B01, 0x243185BE, 0x550C7DC3, 0x72BE5D74, 0x80DEB1FE, 0x9BDC06A7, 0xC19BF174] ++
  [0xE49B69C1, 0xEFBE4786, 0x0FC19DC6, 0x240CA1CC, 0x2DE92C6F, 0x4A7484AA, 0x5CB0A9DC, 0x76F988DA] ++
  [0x983E5152, 0xA831C66D, 0xB00327C8, 0xBF597FC7, 0xC6E00BF3, 0xD5A79147, 0x06CA6351, 0x14292967] ++
  [0x27B70A85, 0x2E1B2138, 0x4D2C6DFC, 0x53380D13, 0x650A7354, 0x766A0ABB, 0x81C2C92E, 0x92722C85] ++
  [0xA2BFE8A1, 0xA81A664B, 0xC24B8B70, 0xC76C51A3, 0xD192E819, 0xD6990624, 0xF40E3585, 0x106AA070] ++
  [0x19A4C116, 0x1E376C08, 0x2748774C, 0x34B0BCB5, 0x391C0CB3, 0x4ED8AA4A, 0x5B9CCA4F, 0x682E6FF3] ++
  [0x748F82EE, 0x78A5636F, 0x84C87814, 0x8CC70208, 0x90BEFFFA, 0xA4506CEB, 0xBEF9A3F7, 0xC67178F2]

/-- The start of SHA-384. -/
def sha384Start : List (BitVec 64) :=
  [0xCBBB9D5DC1059ED8, 0x629A292A367CD507, 0x9159015A3070DD17, 0x152FECD8F70E5939] ++
  [0x67332667FFC00B31, 0x8EB44A8768581511, 0xDB0C2E0D64F98FA7, 0x47B5481DBEFA4FA4]

/-- The start of SHA-256. -/
def sha256Start : List (BitVec 32) :=
  [0x6A09E667, 0xBB67AE85, 0x3C6EF372, 0xA54FF53A, 0x510E527F, 0x9B05688C, 0x1F83D9AB, 0x5BE0CD19]

/-- n bytes of a number, highest first. -/
def bigBytes (n x : Nat) : List Byte := (leBytes n x).reverse

/-- A number from bytes, highest first. -/
def bigNat (bs : List Byte) : Nat := leNat bs.reverse

/-- What sets the two sizes of SHA-2 apart: bytes of a word, its constants, and the shifts of its four sums, the last of the
two small ones a plain shift. -/
structure ShaKind (w : Nat) where
  bytes : Nat
  keys : List (BitVec w)
  big0 : Nat × Nat × Nat
  big1 : Nat × Nat × Nat
  small0 : Nat × Nat × Nat
  small1 : Nat × Nat × Nat

/-- The size of SHA-384. -/
def shaLong : ShaKind 64 := ⟨8, sha512Keys, (28, 34, 39), (14, 18, 41), (1, 8, 7), (19, 61, 6)⟩
/-- The size of SHA-256. -/
def shaShort : ShaKind 32 := ⟨4, sha256Keys, (2, 13, 22), (6, 11, 25), (7, 18, 3), (17, 19, 10)⟩

def bigSum (r : Nat × Nat × Nat) (x : BitVec w) : BitVec w := x.rotateRight r.1 ^^^ x.rotateRight r.2.1 ^^^ x.rotateRight r.2.2
def smallSum (r : Nat × Nat × Nat) (x : BitVec w) : BitVec w := x.rotateRight r.1 ^^^ x.rotateRight r.2.1 ^^^ x >>> r.2.2

/-- A message filled up to whole blocks of 16 words, its length in bits at the end. -/
def ShaKind.pad (k : ShaKind w) (bs : List Byte) : List Byte :=
  let block := 16 * k.bytes
  let n := bs.length + 1 + 2 * k.bytes
  bs ++ [0x80] ++ List.replicate ((block - n % block) % block) 0 ++ bigBytes (2 * k.bytes) (8 * bs.length)

/-- Cuts bytes into words. -/
def ShaKind.words (k : ShaKind w) (n : Nat) (bs : List Byte) : List (BitVec w) :=
  (List.range n).map (fun i => BitVec.ofNat w (bigNat ((bs.drop (k.bytes * i)).take k.bytes)))

/-- n further words of the message schedule, the latest first. -/
def ShaKind.schedule (k : ShaKind w) (n : Nat) (ws : List (BitVec w)) : List (BitVec w) :=
  match n with
  | 0 => ws
  | m + 1 =>
    ShaKind.schedule k m
      ((smallSum k.small1 (ws.getD 1 0) + ws.getD 6 0 + smallSum k.small0 (ws.getD 14 0) + ws.getD 15 0) :: ws)

/-- One round. -/
def ShaKind.round (k : ShaKind w) (h : List (BitVec w)) (x : BitVec w × BitVec w) : List (BitVec w) :=
  match h with
  | [a, b, c, d, e, f, g, z] =>
    let t := z + bigSum k.big1 e + ((e &&& f) ^^^ (~~~e &&& g)) + x.1 + x.2
    let u := bigSum k.big0 a + ((a &&& b) ^^^ (a &&& c) ^^^ (b &&& c))
    [t + u, a, b, c, d + t, e, f, g]
  | _ => h

/-- One block. -/
def ShaKind.block (k : ShaKind w) (h : List (BitVec w)) (bs : List Byte) : List (BitVec w) :=
  let ws := (k.schedule (k.keys.length - 16) (k.words 16 bs).reverse).reverse
  (h.zip ((k.keys.zip ws).foldl k.round h)).map (fun x => x.1 + x.2)

/-- The blocks of a message, one after another. -/
def ShaKind.run (k : ShaKind w) (n : Nat) (h : List (BitVec w)) (bs : List Byte) : List (BitVec w) :=
  match n with
  | 0 => h
  | m + 1 => ShaKind.run k m (k.block h (bs.take (16 * k.bytes))) (bs.drop (16 * k.bytes))

/-- The digest of a message. -/
def ShaKind.digest (k : ShaKind w) (start : List (BitVec w)) (bs : List Byte) : List Byte :=
  let m := k.pad bs
  (k.run (m.length / (16 * k.bytes)) start m).flatMap (fun x => bigBytes k.bytes x.toNat)

/-- SHA-384 of a byte string: 48 bytes. -/
def sha384Bytes (bs : List Byte) : List Byte := (shaLong.digest sha384Start bs).take 48

/-- SHA-256 of a byte string: 32 bytes. -/
def sha256Bytes (bs : List Byte) : List Byte := shaShort.digest sha256Start bs

/-- SHA-384 as a number whose lowest byte is the digest's first. -/
def sha384 (bs : List Byte) : Nat := leNat (sha384Bytes bs)

/-! ## ECDSA over P-384 -/

def curveP : Nat := 2 ^ 384 - 2 ^ 128 - 2 ^ 96 + 2 ^ 32 - 1
def curveN : Nat := 0xFFFFFFFFFFFFFFFFFFFFFFFFFFFFFFFFFFFFFFFFFFFFFFFFC7634D81F4372DDF581A0DB248B0A77AECEC196ACCC52973
def curveB : Nat := 0xB3312FA7E23EE7E4988E056BE3F82D19181D9C6EFE8141120314088F5013875AC656398D8A2ED19D2A85C8EDD3EC2AEF
def curveG : Nat × Nat :=
  (0xAA87CA22BE8B05378EB1C71EF320AD746E1D3B628BA79B9859F741E082542A385502F25DBF55296C3A545E3872760AB7,
   0x3617DE4A96262C6F5D9E98BF9292DC29F8F41DBD289A147CE9DA3113B5F0B8C00A60B1CE1D7E819D7A431D7C90EA0E5F)

/-- x to the power of e, whose low `bits` bits count, modulo m. -/
def powMod (m : Nat) (bits x e : Nat) : Nat :=
  match bits with
  | 0 => 1 % m
  | k + 1 => if e % 2 = 1 then x * powMod m k (x * x % m) (e / 2) % m else powMod m k (x * x % m) (e / 2)

/-- The inverse modulo a prime. -/
def invMod (m x : Nat) : Nat := powMod m 384 (x % m) (m - 2)

/-- A point of the curve; none is the point at infinity. -/
abbrev Point := Option (Nat × Nat)

/-- The sum of two points. -/
def pointAdd (a b : Point) : Point :=
  match a, b with
  | none, b => b
  | a, none => a
  | some x, some y =>
    if x.1 = y.1 ∧ (x.2 + y.2) % curveP = 0 then none
    else
      let l := if x = y then (3 * x.1 * x.1 + curveP - 3) * invMod curveP (2 * x.2) % curveP
        else (y.2 + curveP - x.2) * invMod curveP (y.1 + curveP - x.1) % curveP
      let u := (l * l + 2 * curveP - x.1 - y.1) % curveP
      some (u, (l * (x.1 + curveP - u) + curveP - x.2) % curveP)

/-- k times a point, of whose bits `bits` count. -/
def pointMul (bits k : Nat) (a : Point) : Point :=
  match bits with
  | 0 => none
  | n + 1 => if k % 2 = 1 then pointAdd a (pointMul n (k / 2) (pointAdd a a)) else pointMul n (k / 2) (pointAdd a a)

/-- Whether an ECDSA P-384 signature is valid: public key (x then y), signature (r then s) and message, hashed with SHA-384. -/
def ecdsaValid (key sig msg : List Byte) : Bool :=
  let x := bigNat (key.take 48)
  let y := bigNat (key.drop 48)
  let r := bigNat (sig.take 48)
  let s := bigNat (sig.drop 48)
  let w := invMod curveN s
  let e := bigNat (sha384Bytes msg)
  decide (x < curveP ∧ y < curveP ∧ y * y % curveP = (x * x * x + curveP * x - 3 * x + curveB) % curveP ∧
    1 ≤ r ∧ r < curveN ∧ 1 ≤ s ∧ s < curveN) &&
    (match pointAdd (pointMul 384 (e * w % curveN) (some curveG)) (pointMul 384 (r * w % curveN) (some (x, y))) with
      | some p => decide (p.1 % curveN = r)
      | none => false)

/-! ## LMS with LMS_SHA256_M32_H15 and LMOTS_SHA256_N32_W8 (RFC 8554) -/

/-- What every hash of a tree begins with: the identifier, a number of 32 bits, and one of 16. -/
def lmsHead (key : List Byte) (q d : Nat) : List Byte := part key 8 16 ++ bigBytes 4 q ++ bigBytes 2 d
where
  part (bs : List Byte) (lo n : Nat) : List Byte := (bs.drop lo).take n

/-- A hash chain from step j on, n steps. -/
def lmsChain (key : List Byte) (q i : Nat) (n j : Nat) (x : List Byte) : List Byte :=
  match n with
  | 0 => x
  | m + 1 => lmsChain key q i m (j + 1) (sha256Bytes (lmsHead key q i ++ bigBytes 1 j ++ x))

/-- The one-time public key that a signature gives for a message. -/
def lmsOneTime (key sig : List Byte) (q : Nat) (msg : List Byte) : List Byte :=
  let h := sha256Bytes (lmsHead key q 0x8181 ++ (sig.drop 8).take 32 ++ msg)
  let sum := h.foldl (fun (a : Nat) b => a + (255 - b.toNat)) 0
  let cs := h ++ bigBytes 2 sum
  sha256Bytes (lmsHead key q 0x8080 ++ (List.range 34).flatMap (fun i =>
    let a := (cs.getD i 0).toNat
    lmsChain key q i (255 - a) a ((sig.drop (40 + 32 * i)).take 32)))

/-- The root that a node and its path give. -/
def lmsRoot (key : List Byte) (h node : Nat) (x path : List Byte) : List Byte :=
  match h with
  | 0 => x
  | k + 1 =>
    let y := path.take 32
    let z := if node % 2 = 1 then y ++ x else x ++ y
    lmsRoot key k (node / 2) (sha256Bytes (lmsHead key (node / 2) 0x8383 ++ z)) (path.drop 32)

/-- Whether an LMS signature is valid: public key, signature and message. -/
def lmsValid (key sig msg : List Byte) : Bool :=
  let q := bigNat (sig.take 4)
  let node := 2 ^ 15 + q
  decide (bigNat (key.take 4) = 7 ∧ bigNat ((key.drop 4).take 4) = 4 ∧ bigNat ((sig.drop 4).take 4) = 4 ∧
    bigNat ((sig.drop 1128).take 4) = 7 ∧ q < 2 ^ 15 ∧ sig.length = 1612) &&
    decide (lmsRoot key 15 node (sha256Bytes (lmsHead key node 0x8282 ++ lmsOneTime key sig q msg)) (sig.drop 1132) = (key.drop 24).take 32)

end Sys2Proof.Machine
end

