-- ==== Sys2Proof/Machine/LevelOne.lean ====
section
/-! DEFINITION. What the rewrite of a level-1 code object keeps to (R96, R127). The spec gives no level-1 opcode map: what a word
becomes is Config.levelOneWord, and the code that the loader lays out Config.levelOneCode (DESIGN CHOICE log 8). -/

namespace Sys2Proof.Machine

/-! ## Level-2 instructions of a rewrite (R96) -/

/-- How far a branch goes, in bytes (R167, R149). -/
def Instr.aim (i : Instr) : Option Int :=
  match i with
  | .bra o | .brc o _ | .brcF o _ | .call o | .jmp o | .jumpCall o => some (2 * o.toInt)
  | .bz o _ | .bnz o _ | .bltz o _ | .bgez o _ | .bgtz o _ | .blez o _ => some (2 * o.toInt)
  | _ => none

/-- A branch without its offset. -/
def Instr.aimless (i : Instr) : Instr :=
  match i with
  | .bra _ => .bra 0
  | .brc _ p => .brc 0 p
  | .brcF _ p => .brcF 0 p
  | .call _ => .call 0
  | .jmp _ => .jmp 0
  | .jumpCall _ => .jumpCall 0
  | .bz _ a => .bz 0 a
  | .bnz _ a => .bnz 0 a
  | .bltz _ a => .bltz 0 a
  | .bgez _ a => .bgez 0 a
  | .bgtz _ a => .bgtz 0 a
  | .blez _ a => .blez 0 a
  | i => i

/-- A matrix instruction with contract EXACT. -/
def Instr.exact (i : Instr) : Instr :=
  match i with
  | .tmul _ m b a d => .tmul 0 m b a d
  | .tmac _ m x b a d => .tmac 0 m x b a d
  | .tcmul _ m b a d => .tcmul 0 m b a d
  | .tcmulAddend _ m x b a d => .tcmulAddend 0 m x b a d
  | .tbp _ m b a d => .tbp 0 m b a d
  | .tsca _ m x b a d => .tsca 0 m x b a d
  | .tadd _ m b a d => .tadd 0 m b a d
  | .tsub _ m b a d => .tsub 0 m b a d
  | .ttr _ m a d => .ttr 0 m a d
  | .thad _ m b a d => .thad 0 m b a d
  | i => i

/-- The tile register that a matrix instruction writes. -/
def Instr.result (i : Instr) : Option (BitVec 4) :=
  match i with
  | .tmul _ _ _ _ d | .tmac _ _ _ _ _ d | .tcmul _ _ _ _ d | .tcmulAddend _ _ _ _ _ d | .tbp _ _ _ _ d | .tsca _ _ _ _ _ d
  | .tadd _ _ _ _ d | .tsub _ _ _ _ d | .ttr _ _ _ d | .thad _ _ _ _ d | .tcvt _ _ d => some d
  | _ => none

/-- Level-2 instructions that a rewritten one takes: a TFORCE of its result follows a matrix instruction. -/
def Instr.span (i : Instr) : Nat := if (Instr.result i).isSome then 2 else 1

/-- A stream's decoder. -/
def decodeStream (seq : Bool) (w : Nat) : Option Instr :=
  match if seq then decodeSeq w else decodeLane w with
  | .ok i => some i
  | .error _ => none

/-- What a level-1 word becomes, one for one: an instruction of 32 bits, or none. -/
def rewriteWord (seq : Bool) (w : BitVec 32) : Option Instr :=
  match Config.levelOneWord seq w with
  | some x => if x.toNat % 2 = 1 then (decodeStream seq x.toNat).map Instr.exact else none
  | none => none

/-! ## Streams of a level-1 image -/

/-- A stream: whether a sequencer runs it, its first byte in the code section, its words, and the first byte of its rewrite. -/
structure CodeStream where
  seq : Bool
  start : Nat
  words : List (BitVec 32)
  place : Nat
  deriving DecidableEq, Repr

/-- The streams that entry k starts, with the byte of the new code that they begin at. -/
def entryStreams (img : List Byte) (k : Nat) : List (Bool × Nat × Nat) :=
  let e := objEntry img k
  let at_ := Config.levelOneLines img k
  [(false, e.laneOff, at_.1 * 64), (true, e.seqOff, at_.2 * 64)]

/-- The streams of an image: each goes on to the next one, or to the end of the code section. -/
def codeStreams (img : List Byte) : List CodeStream :=
  let all := ((List.range (objNentry img)).flatMap (entryStreams img)).eraseDups
  all.map (fun x =>
    let stop := all.foldl (fun m y => if x.2.1 < y.2.1 then Nat.min m y.2.1 else m) (objCodeSize img)
    { seq := x.1, start := x.2.1, place := x.2.2,
      words := (List.range ((stop - x.2.1) / 4)).map (fun i => BitVec.ofNat 32 (imageNat img (objCodeOff img + x.2.1 + 4 * i) 4)) })

/-- What the words of a stream become. -/
def CodeStream.instrs (s : CodeStream) : List (Option Instr) := s.words.map (rewriteWord s.seq)

/-- Bytes of the rewrite of the first n words. -/
def CodeStream.upTo (s : CodeStream) (n : Nat) : Nat :=
  (s.instrs.take n).foldl (fun b x => b + 4 * ((x.map Instr.span).getD 1)) 0

/-- Where the rewrite puts the level-1 instruction at a byte of the code section. -/
def newPlace (ss : List CodeStream) (seq : Bool) (a : Int) : Option Nat :=
  (ss.find? (fun s => decide (s.seq = seq ∧ (s.start : Int) ≤ a ∧ a < s.start + 4 * s.words.length))).map
    (fun s => s.place + s.upTo ((a - s.start).toNat / 4))

/-- Whether a byte of the new code lies in a stream's rewrite. -/
def inStream (ss : List CodeStream) (p : Int) : Bool :=
  ss.any (fun s => decide ((s.place : Int) ≤ p ∧ p < s.place + s.upTo s.words.length))

/-! ## The code that a rewrite may give (R96) -/

/-- The instruction of 32 bits at a byte of code, if one is there. -/
def instrAt (code : List Byte) (seq : Bool) (p : Int) : Option Instr :=
  if 0 ≤ p then
    let w := imageNat code p.toNat 4
    if w % 2 = 1 ∧ p.toNat + 4 ≤ code.length then decodeStream seq w else none
  else none

/-- Whether a branch that lands at a byte of code comes to a target, through islands outside the streams: BRA in lane code, JMP
in sequencer code. -/
def reaches (code : List Byte) (ss : List CodeStream) (seq : Bool) (target : Nat) (fuel : Nat) (p : Int) : Bool :=
  decide (p = target) ||
    (match fuel with
      | 0 => false
      | k + 1 =>
        !inStream ss p &&
          (match instrAt code seq p with
            | some (.bra o) => !seq && reaches code ss seq target k (p + 2 * o.toInt)
            | some (.jmp o) => seq && reaches code ss seq target k (p + 2 * o.toInt)
            | _ => false))

/-- A LOOP counts the TFORCEs in its body too. -/
def stretched (s : CodeStream) (n : Nat) (i : Instr) : Instr :=
  match i with
  | .loop k b a => .loop (BitVec.ofNat 5 ((s.upTo (n + 1 + k.toNat) - s.upTo (n + 1)) / 4)) b a
  | i => i

/-- Whether word n of a stream is rewritten as R96 says: one for one, a branch to where its target has gone, a TFORCE of its
result behind a matrix instruction. -/
def wordRewritten (code : List Byte) (ss : List CodeStream) (s : CodeStream) (n : Nat) : Bool :=
  let p : Int := s.place + s.upTo n
  match (s.instrs.drop n).headD none, instrAt code s.seq p with
  | some i, some j =>
    decide (Instr.aimless j = Instr.aimless (stretched s n i)) &&
      (match Instr.aim j with
        | none => true
        | some d =>
          match newPlace ss s.seq ((s.start : Int) + 4 * n + 4 * Config.levelOneOffset s.seq ((s.words.drop n).headD 0)) with
          | some t => reaches code ss s.seq t (code.length / 64) (p + d)
          | none => true) &&
      (match Instr.result i with
        | some d => decide (instrAt code s.seq (p + 4) = some (.tforce d))
        | none => true)
  | _, _ => false

/-- Whether code is a rewrite of a level-1 image: every word of every stream is rewritten in its place, and the streams lie
apart, one of them for all entries that start at one byte. -/
def rewrites (img code : List Byte) : Bool :=
  let ss := codeStreams img
  ss.all (fun s => (List.range s.words.length).all (wordRewritten code ss s)) &&
    ss.all (fun s => ss.all (fun t => decide (s = t ∨ s.place + s.upTo s.words.length ≤ t.place ∨
      t.place + t.upTo t.words.length ≤ s.place)))

/-- The level-2 code of a level-1 image: the loader's, where it keeps to R96. -/
def levelTwoCode (img : List Byte) : Option (List Byte) := (Config.levelOneCode img).filter (rewrites img)

end Sys2Proof.Machine
end

