-- ==== Sys2Proof/Machine/Registers.lean ====
section
/-! DEFINITION. What the host, a launch port and firmware do to the chip: device registers in BAR0 (R9, R107, R108,
R110, R116, R318, R389, R397), host stores (R240), Ethernet launch frames (R119), and the values that firmware sets
(R388). -/

namespace Sys2Proof.Machine

/-! ## Queue registers (R107, R108, R110, R397) -/

/-- QTAIL is written: an idle queue with packets becomes active. -/
def State.writeTail (s : State) (q v : Nat) : State :=
  let x := s.queue q
  let t := v % x.size
  s.setQueue q { x with tail := t, st := if x.st = .idle ∧ t ≠ x.head then .active else x.st }

/-- EN is written 1: a disabled queue is idle, with QHEAD at QTAIL. -/
def State.enableQueue (s : State) (q : Nat) : State :=
  let x := s.queue q
  if x.st = .disabled then s.setQueue q { x.setBit 0 true with st := .idle, head := x.tail } else s

/-- EN is written 0: packets not read stay unread, and held writes stay held. -/
def State.disableQueue (s : State) (q : Nat) : State :=
  let s := s.setQueue q { (s.queue q).setBit 0 false with st := .disabled }
  { s with dsp := { s.dsp with pageWaits := [] } }

/-- Retries held writes in the order in which they failed; answers those that fault again. One that must wait joins the
device's waiting writes (R235, R327, R397). -/
def State.retryHeld (s : State) (hs : List HeldWrite) : List HeldWrite × State :=
  match hs with
  | [] => ([], s)
  | h :: r =>
    match s.storeWord h.cw h.word with
    | (.ok _, s) => State.retryHeld ((s.interrupt h.cw).releaseObj h.obj) r
    | (.wait _, s) => State.retryHeld (s.postponeWord h false) r
    | (.fail, s) =>
      let x := State.retryHeld s r
      (h :: x.1, x.2)

/-- 1 is written to ERR: it clears, and with EN 1 every held write is retried; the queue goes on unless one faults
again (R110, R397). -/
def State.clearError (s : State) (q : Nat) : State :=
  let x := (s.queue q).setBit 1 false
  if x.st = .disabled then s.setQueue q x
  else
    let y := (s.setQueue q { x with held := [] }).retryHeld x.held
    let s := y.2
    let x := { s.queue q with held := y.1 }
    if y.1.isEmpty then
      s.setQueue q { x with st := if x.st = .error then (if x.head = x.tail then .idle else .active) else x.st }
    else s.setQueue q x.fail

/-- LOG2SIZE as it reads back: values other than 4 to 15 read as 4. -/
def log2sizeOf (v : Nat) : Nat := if 4 ≤ v % 16 then v % 16 else 4

/-- QCTL is written by the host: IVEC, LOG2SIZE where EN is 0, then EN and after it ERR; QTAIL and QHEAD are reduced to the
ring's size (DESIGN CHOICE log 78). -/
def State.writeQctl (s : State) (q : Nat) (w : Word) : State :=
  let x := s.queue q
  let n := w.toNat
  let c := putField x.qctl 20 6 (n / 2 ^ 20)
  let c := if x.en then c else putField c 16 4 (log2sizeOf (n / 2 ^ 16))
  let x := { x with qctl := c }
  let s := s.setQueue q { x with tail := x.tail % x.size, head := x.head % x.size }
  let s := if w.getLsbD 0 then s.enableQueue q else s.disableQueue q
  if w.getLsbD 1 then s.clearError q else s

/-- QBASE is written: ignored while EN is 1; its reserved bits read zero. -/
def State.writeQbase (s : State) (q : Nat) (w : Word) : State :=
  let x := s.queue q
  if x.en then s
  else s.setQueue q { x with qbase := BitVec.ofNat 64 (w.toNat / 2 ^ 63 * 2 ^ 63 + w.toNat / 64 % 2 ^ 46 * 64) }

/-- An event about one host queue. -/
def queueEvent (s : State) (f : State → Nat → State) : Out :=
  match s.turn with
  | .event _ (.nat q) => if q < 256 then .next (f s q) else .next s
  | _ => .next s

/-- QTAIL_WRITE: queue and value (R107, R110). -/
def execQtailWrite (s : State) : Out :=
  match s.turn with
  | .event _ (.nat2 q v) => if q < 256 then .next (s.writeTail q v) else .next s
  | _ => .next s
/-- QUEUE_ENABLE (R110). -/
def execQueueEnable (s : State) : Out := queueEvent s State.enableQueue
/-- QUEUE_DISABLE (R110). -/
def execQueueDisable (s : State) : Out := queueEvent s State.disableQueue
/-- ERR_CLEAR (R110, R397). -/
def execErrClear (s : State) : Out := queueEvent s State.clearError

/-! ## MSI-X, TLBINV, the mailbox and the other registers -/

/-- A pending message of a vector that is not masked any more is sent, once (R116). -/
def State.sendPending (s : State) (v : Nat) : State :=
  let d := s.dsp
  if d.msixPending.getLsbD v && !d.masked v then
    { s with dsp := { d with msixPending := d.msixPending &&& ~~~(BitVec.ofNat 64 (2 ^ v)), messages := v :: d.messages } }
  else s

/-- A vector is unmasked (R116). -/
def State.unmask (s : State) (v : Nat) : State :=
  { s with dsp := { s.dsp with msixMask := s.dsp.msixMask &&& ~~~(BitVec.ofNat 64 (2 ^ v)) } }.sendPending v

/-- The function mask of the Message Control word, bit 14, as PCI Express gives it: it masks every vector (R116)
(DESIGN CHOICE / PRESUMED log 15). -/
def State.writeControl (s : State) (w : Word) : State :=
  (List.range 64).foldl State.sendPending { s with dsp := { s.dsp with msixFunction := w.getLsbD 14 } }

/-- A doubleword of the MSI-X table is written: PCI Express gives a vector two, the mask in bit 32 of the second
(DESIGN CHOICE / PRESUMED log 15). -/
def State.writeMsix (s : State) (i : Nat) (w : Word) : State :=
  let x : Word := if i % 2 = 1 then BitVec.ofNat 64 (w.toNat % 2 ^ 32) else w
  let s := { s with dsp := { s.dsp with msixTable := SMap.set 0 s.dsp.msixTable i x } }
  if i % 2 = 0 then s
  else if w.getLsbD 32 then { s with dsp := { s.dsp with msixMask := s.dsp.msixMask ||| BitVec.ofNat 64 (2 ^ (i / 2)) } }
  else s.unmask (i / 2)

/-- VECTOR_UNMASK (R116). -/
def execVectorUnmask (s : State) : Out :=
  match s.turn with
  | .event _ (.nat v) => if v < 64 then .next (s.unmask v) else .next s
  | _ => .next s

/-- A write to TLBINV (R318, R319): the named translations go, with the L1 lines held under them, and DONE advances. -/
def State.writeTlbinv (s : State) (w : Word) : State :=
  let n := w.toNat
  let asid := n % 512
  let size := match n / 2 ^ 10 % 4 with
    | 0 => 2 ^ 12
    | 1 => 2 ^ 16
    | 2 => 2 ^ 21
    | _ => 2 ^ 30
  let va := n / 2 ^ 12 % 2 ^ 44 * 2 ^ 12
  let s := if n.testBit 9 then s.invalidateAll asid else s.invalidate asid (va / size * size) size
  { s with dsp := { s.dsp with tlbinvDone := s.dsp.tlbinvDone + 1 } }

/-- TLBINV: the word written (R318, R319). -/
def execTlbinv (s : State) : Out :=
  match s.turn with
  | .event _ (.word w) => .next (s.writeTlbinv w)
  | _ => .next s

/-- A write to a register of BAR0, a doubleword at an offset. Registers that are read-only, reserved bits and offsets that
no rule names ignore it (R9); TLBINV and MBDOOR have events of their own. -/
def State.writeRegister (s : State) (off : Nat) (w : Word) : State :=
  if 0x10000 ≤ off ∧ off < 0x14000 then
    let q := (off - 0x10000) / 64
    match (off - 0x10000) % 64 with
    | 0 => s.writeQbase q w
    | 8 => s.writeQctl q w
    | 16 => s.writeTail q w.toNat
    | _ => s
  else if off = 0x0400 then { s with dsp := { s.dsp with mbreq := w } }
  else if 0x8000 ≤ off ∧ off < 0x8400 ∧ off % 8 = 0 then s.writeMsix ((off - 0x8000) / 8) w
  else s

/-- A doubleword of the MSI-X table as it reads: bit 32 of a vector's second is its mask (R116). -/
def State.readMsix (s : State) (i : Nat) : Word :=
  let x : Word := SMap.get 0 s.dsp.msixTable i
  if i % 2 = 1 ∧ s.dsp.msixMask.getLsbD (i / 2) = true then BitVec.ofNat 64 (x.toNat + 2 ^ 32) else x

/-- The ageing register of a die at reset: EOL 0xFFFF (R380). -/
abbrev ageReset : Word := 0x0000FFFF00000000

/-- The ageing register of a die (R380). -/
def State.ageing (s : State) (die : Nat) : Word := SMap.get ageReset s.dsp.ageing die

/-- What a register of BAR0 reads as (R9, R107, R108, R116, R241, R318, R380, R389): one that is only written, and what no
rule names, reads zero (DESIGN CHOICE log 78). -/
def State.readRegister (s : State) (off : Nat) : Word :=
  if 0x10000 ≤ off ∧ off < 0x14000 then
    let x := s.queue ((off - 0x10000) / 64)
    match (off - 0x10000) % 64 with
    | 0 => x.qbase
    | 8 => x.qctl
    | 24 => BitVec.ofNat 64 x.head
    | _ => 0
  else if 0x8000 ≤ off ∧ off < 0x8400 ∧ off % 8 = 0 then s.readMsix ((off - 0x8000) / 8)
  else if 0x300 ≤ off ∧ off < 0x320 ∧ off % 8 = 0 then s.ageing ((off - 0x300) / 8)
  else
    match off with
    | 0x0100 => 0x05030506
    | 0x0208 => s.dsp.tlbinvDone.setWidth 64
    | 0x0400 => s.dsp.mbreq
    | 0x0410 => s.dsp.mbstat.setWidth 64
    | 0x8800 => s.dsp.msixPending
    | _ => 0

/-- REGISTER_WRITE: offset and doubleword, or a doubleword alone for MSI-X's Message Control in configuration space. -/
def execRegisterWrite (s : State) : Out :=
  match s.turn with
  | .event _ (.natWord off w) => .next (s.writeRegister off w)
  | .event _ (.word w) => .next (s.writeControl w)
  | _ => .next s

/-! ## Host stores (R240) -/

/-- Whether a host page is lent to a device frame (R316). -/
def State.lent (s : State) (a : Nat) : Bool := s.frames.any (fun e => decide (entryLoc e.2 = 3 ∧ entryLocation e.2 = a / 4096))

/-- Free bytes at consecutive host addresses. -/
def State.freeBytes (s : State) (k n : Nat) : State :=
  { s.putBytes k ((List.range n).map (fun i => (Config.freeWord (s.freeCtr + i)).setWidth 8)) with freeCtr := s.freeCtr + n }

/-- A host store of bytes at a physical address joins the order; one to host memory that is lent leaves its bytes
undefined (R240, R316) (DEDUCED log 42). -/
def State.hostStore (s : State) (pa : Nat) (bs : List Byte) : State :=
  (cutPages (bs.length / 4096 + 2) pa bs.length).foldl (fun s c =>
    let part := (bs.drop (c.1 - pa)).take c.2
    if isHostPa c.1 then
      let a := c.1 % 2 ^ 51
      if s.lent a then s.freeBytes (hostKey a) c.2 else s.putBytes (hostKey a) part
    else
      match s.reachPa c.1 with
      | .none => s
      | _ => s.storeRuns (dispWho noAsid) 0 (linePieces [(.pa c.1, c.2)]) part false false) s

/-- HOST_ACCESS: address and bytes. It waits as any agent's store for engines and captures, behind the accesses queued at its
lines, and for a frame that is paged out (R232, R235, R268, R327). -/
def execHostAccess (s : State) : Out :=
  match s.turn with
  | .event _ (.natBytes pa bs) =>
    let runs := (cutPages (bs.length / 4096 + 2) pa bs.length).map (fun c => (Loc.pa c.1, c.2))
    if s.mustWait 0 true runs || (linePieces runs).any (fun p => s.standsBehind 0 true p.1) then .next s
    else .next (s.hostStore pa bs)
  | _ => .next s

/-! ## Ethernet launch ports (R119) -/

/-- One record of a frame: it joins its class's port queue, or is dropped and counted. -/
def State.portRecord (s : State) (port cls : Nat) (bs : List Byte) : State :=
  let p : Packet := dwords 8 bs
  let r := s.portRights port cls
  if p.kind ≠ 1 ∨ s.noContext p.asid = true ∨ p.malformed r = true ∨ (s.packetLaunch p).isNone = true then s.countDrop port
  else
    let x := s.port cls
    s.setPort cls { x with recs := x.recs ++ [(port, bs)] }

/-- Whether a frame is taken: its conditions, its header and its class's enable. -/
def State.frameOk (s : State) (port : Nat) (f : EthFrame) : Bool :=
  let h := leNat (f.payload.take 8)
  f.fcsOk && decide (f.dst = SMap.get 0 s.dsp.macs port ∧ f.ethertype = 0x88B5 ∧ f.payload.length ≤ 1500 ∧
    h % 256 = 1 ∧ h / 2 ^ 13 % 2 ^ 3 = 0 ∧ h / 2 ^ 24 = 0 ∧ 1 ≤ h / 2 ^ 16 % 256 ∧ h / 2 ^ 16 % 256 ≤ 23 ∧
    f.payload.length = 8 + 64 * (h / 2 ^ 16 % 256)) && (s.port (h / 2 ^ 8 % 32)).enabled

/-- ETHERNET_FRAME: port and frame. -/
def execEthernetFrame (s : State) : Out :=
  match s.turn with
  | .event _ (.frame port f) =>
    if port < 2 then
      if s.frameOk port f then
        let h := leNat (f.payload.take 8)
        .next ((List.range (h / 2 ^ 16 % 256)).foldl (fun s i =>
          s.portRecord port (h / 2 ^ 8 % 32) ((f.payload.drop (8 + 64 * i)).take 64)) s)
      else .next (s.countDrop port)
    else .next s
  | _ => .next s

/-! ## Firmware's values (R388) -/

/-- The sum of the floors of all classes (R118). -/
def floorSum (p : SMap ClassPolicy) : Nat := p.foldl (fun n e => n + e.2.floor) 0

/-- Whether a launch's values lie within the limits of R6 and R112. -/
def Launch.ok (l : Launch) : Bool :=
  decide (1 ≤ l.gx ∧ l.gx < 2 ^ 16 ∧ 1 ≤ l.gy ∧ l.gy < 2 ^ 16 ∧ 1 ≤ l.gz ∧ l.gz < 2 ^ 16 ∧ 1 ≤ l.cx ∧ l.cx ≤ 12 ∧ 1 ≤ l.cy ∧ l.cy ≤ 10 ∧
    l.cx * l.cy ≤ 12 ∧ l.sbanks ≤ 16 ∧ 4 ≤ l.graph ∧ l.graph ≤ 64 ∧ 0 < l.cap) && capOk l.cap

/-- A grid of a context that moved here joins the order, with its unstarted teams from the first on (R104): its entry must
name a code object of this chip (DEDUCED log 77). -/
def State.moveIn (s : State) (a entry first : Nat) (l : Launch) (cw : CompWord) (st : Option (CtxRecord × List Word)) : State :=
  match if l.ok && decide (first ≤ l.gx * l.gy * l.gz) then s.launchOf a entry else none with
  | none => s.walkEntry a entry
  | some x =>
    let s := s.walkEntry a entry
    let k := s.dsp.nextGrid
    let l := { l with entry := entry, obj := x.obj, lanePc := x.lanePc, seqPc := x.seqPc, codeEnd := x.codeEnd,
                      width := x.width, lanes := x.lanes, image := x.image }
    let g : Grid := { live := true, asid := a, launch := l, cw := cw, nextIx := first, source := first,
                      arrived := true, base := first }
    let g := match st with
      | some (r, qr) => { g with rcd := r, started := true, qr := qr, interval := { st := .opened, first := true } }
      | none => g
    let s := s.setGrid k g
    { s with dsp := { s.dsp with nextGrid := k + 1, order := s.dsp.order ++ [k] } }

/-- Whether a tier's list, or another chip's, can hold a free frame: one that its memory has (R2, R3, R320, R329). -/
def freeFrameOk (t x : Nat) : Bool := tierHolds t x && decide (x < if t < 4096 then 2 ^ 42 else 2 ^ 30)

/-- One value that firmware sets; the hardware keeps its bounds (R388): a value outside them is not taken
(DEDUCED log 51). -/
def State.setFirmware (s : State) (x : FwSet) : State :=
  let d := s.dsp
  match x with
  | .queue q asid priv ctxcmd =>
    if q < 256 then
      let y := (s.queue q).setBit 2 priv |>.setBit 3 ctxcmd
      s.setQueue q { y with qctl := putField y.qctl 32 9 asid }
    else s
  | .policy c p =>
    let ps := SMap.set {} d.policy c p
    if c < 32 ∧ floorSum ps ≤ 5120 ∧ p.rollmax ≤ 7 ∧ (p.audit.getD 0) ≤ 16 then { s with dsp := { d with policy := ps } } else s
  | .weight ctrl c w =>
    if ctrl < 16 ∧ c < 32 ∧ w < 256 then { s with dsp := { d with weights := SMap.set 0 d.weights (ctrl * 32 + c) w } } else s
  | .portClass c enabled asid vector =>
    if c < 32 ∧ asid < 512 ∧ vector < 64 then s.setPort c { s.port c with enabled := enabled, asid := asid, vector := vector } else s
  | .mac port a => { s with dsp := { d with macs := SMap.set 0 d.macs port a } }
  | .threshold loc n =>
    if loc = 2 ∨ loc = 3 ∨ loc = 5 then { s with dsp := { d with threshold := SMap.set 0 d.threshold loc n } } else s
  | .watermarks t low high =>
    if low < high then { s with dsp := { d with low := SMap.set 0 d.low t low, high := SMap.set 0 d.high t high } } else s
  | .victims t fs => { s with dsp := { d with victims := SMap.set [] d.victims t fs } }
  | .freeList t fs => { s with dsp := { d with freeList := SMap.set [] d.freeList t (fs.filter (freeFrameOk t)) } }
  | .regen a slot entry =>
    let c := s.ctx a
    s.setCtx a { c with regen := SMap.set 0 c.regen slot (match entry with
      | some e => e + 1
      | none => 0) }
  | .lease n => if 16 ≤ n ∧ n ≤ 4096 then { s with dsp := { d with lease := n } } else s
  | .quota n => { s with fab := { s.fab with quota := n } }
  | .t0 n => { s with fab := { s.fab with t0 := n } }
  | .chip n => if n < 4096 then { s with fab := { s.fab with chip := n } } else s
  | .schedule op limit fl => { s with fab := { s.fab with schedule := s.fab.schedule ++ [(op, limit, fl)] } }
  | .scheduleLoaded => { s with fab := { s.fab with loaded := true } }
  | .logRing size taken => { s with dsp := { d with logCap := size, log := d.log.drop taken } }
  | .ageLimit n => { s with dsp := { d with ageLimit := n } }
  | .pushPg ws =>
    let c : Cmd := { num := s.nextPush, fw := true, words := ws, tier := s.pgTier ws }
    if (d.pg.filter (fun c => decide (c.tier = s.pgTier ws))).length < Config.pgCapacity then
      { s with nextPush := s.nextPush + 1, dsp := { d with pg := d.pg ++ [c] } }
    else s
  | .rect g c core => { s with dsp := { d with rects := (g, c, core) :: d.rects.filter (fun r => !decide (r.1 = g ∧ r.2.1 = c)) } }
  | .moveGrid a entry first l cw st => s.moveIn a entry first l cw st
  | .moveSet k es qr =>
    let g := s.grid k
    if g.source = 0 then s
    else
      let iv := { g.interval with deferred := es ++ g.interval.deferred }
      let qr' := if qr.isEmpty then g.qr else qr
      s.setGrid k { g with source := 0, retired := g.retired + g.source, deferred := es ++ g.deferred, qr := qr', interval := iv }
  | .moveFault a =>
    { s with grids := SMap.mapV {} s.grids (fun _ g => if g.asid = a ∧ g.arrived = true then { g with moved := true } else g) }
  | .takeCarried n => { s with dsp := { d with carried := d.carried.drop n } }
  | .takePromoted n => { s with dsp := { d with promoted := d.promoted.drop n } }
  | .minimum k v =>
    if (SMap.get 0 s.fw.minima k).toNat ≤ v.toNat then { s with fw := { s.fw with minima := SMap.set 0 s.fw.minima k v } } else s

/-- A mailbox request completes: it is counted (R389), and vector 0 carries its completion (R116). -/
def State.requestDone (s : State) : State := { s with dsp := { s.dsp with mbstat := s.dsp.mbstat + 1 } }.sendMsi 0

/-- Submitted requests wait while the management image hands over (R389). -/
def State.mailboxWaits (s : State) : Bool := decide (s.fw.handing = some 1)

/-- A mailbox request is served: what the management image does for it, and what the other images set, is its operand (DESIGN CHOICE /
PRESUMED log 15). -/
def State.serveRequest (s : State) (l : List FwSet) : State := (l.foldl State.setFirmware s).requestDone

/-- MBDOOR: a mailbox request is submitted, and is served or waits (R389). -/
def execMbdoor (s : State) : Out :=
  let l := match s.turn with
    | .event _ (.firmware l) => l
    | _ => []
  if s.mailboxWaits then .next { s with fw := { s.fw with waiting := s.fw.waiting ++ [l] } } else .next (s.serveRequest l)

end Sys2Proof.Machine
end

