-- ==== Sys2Proof/Machine/Image.lean ====
section
/-! DEFINITION. Code objects (R123 to R127), firmware images, hand-over, heartbeats and attestation (R381 to R387), and
the resets and life-cycle changes (R390). -/

namespace Sys2Proof.Machine

/-! ## Code objects (R124 to R127) -/

def State.obj (s : State) (k : Nat) : CodeObj := SMap.get {} s.dsp.objs k
def State.setObj (s : State) (k : Nat) (o : CodeObj) : State :=
  { s with dsp := { s.dsp with objs := SMap.set {} s.dsp.objs k o } }

/-- Adds a report about an object: a status of R124, or a reference count (R125). -/
def State.report (s : State) (k : Nat) (o : CodeObj) (n : Nat) : State := s.setObj k { o with report := o.report ++ [n] }

/-- Whether an entry is well formed as the image's level reads it: a level-1 group is 32 lanes wide (R96, R127). -/
def levelEntryOk (img : List Byte) (e : ObjEntry) : Bool :=
  entryOk img e && (decide (objLevel img ≠ 1) || entryOk img { e with width := 32 })

/-- The status of a load: the first check of R124 that the image fails. `room` tells whether device memory takes it. -/
def loadStatus (img : List Byte) (room : Bool) : Nat :=
  if !headerOk img then 0x10
  else if !(objEntries img).all (levelEntryOk img) then 0x11
  else if objLevel img = 1 ∧ levelTwoCode img = none ∧ room = false then 0x12
  else if !room then 0x13
  else 0

/-- Whether every frame of a range is backed by device memory. -/
def State.backed (s : State) (pa n : Nat) : Bool :=
  decide (pa % 4096 = 0) && (cutPages (n / 4096 + 2) pa n).all (fun c => isFramePa c.1 &&
    (decide (entryLoc (s.frame (c.1 / 4096)) = 1) || decide (entryLoc (s.frame (c.1 / 4096)) = 2)) &&
    tierHolds (entryLoc (s.frame (c.1 / 4096))) (entryLocation (s.frame (c.1 / 4096))))

/-- Copies an image into device memory. -/
def State.placeImage (s : State) (pa : Nat) (img : List Byte) : State :=
  s.storeRuns (dispWho noAsid) 0 (linePieces ((cutPages (img.length / 4096 + 2) pa img.length).map (fun c => (Loc.pa c.1, c.2)))) img
    false false

/-- LOAD_REQUEST: where firmware places the image, and its bytes (R124, R125). The request completes as the load ends, and waits
for a hand-over of the management image (R389). -/
def execLoadRequest (s : State) : Out :=
  match s.turn with
  | .event _ (.natBytes pa img) =>
    if s.mailboxWaits then .next s
    else
    let k := s.dsp.nextObj
    let s : State := { s with dsp := { s.dsp with nextObj := k + 1 } }
    let st := loadStatus img (s.backed pa img.length)
    if st ≠ 0 then .next (s.report k {} st).requestDone
    else
      let s := s.placeImage pa img
      if objLevel img = 2 then .next (s.report k { st := .resident, pa := pa, image := img } 0).requestDone
      else .next (s.setObj k { st := .translating, pa := pa, image := img })
  | _ => .next s

/-- Bytes [lo, lo + n) of an image. -/
def part (img : List Byte) (lo n : Nat) : List Byte := (img.drop lo).take n

/-- A byte string filled up with zeros to whole units of n. -/
def padTo (n : Nat) (bs : List Byte) : List Byte := bs ++ List.replicate ((n - bs.length % n) % n) 0

/-- The level-2 image of a level-1 one with this code (R96, R127): LEVEL 2 and WIDTH 32, every other field of the header,
the entries and the data as they stand; the entries begin at the lines that the rewrite gives (DESIGN CHOICE log 8). -/
def levelTwo (img code : List Byte) : List Byte :=
  let code := padTo 64 code
  let lines := Nat.max 1 (code.length / 64)
  let entry (k : Nat) : List Byte :=
    let at_ := Config.levelOneLines img k
    let o := 64 + 32 * k
    leBytes 4 (at_.1 % lines * 64) ++ leBytes 4 (at_.2 % lines * 64) ++ leBytes 1 32 ++ part img (o + 9) 23
  let codeOff := (64 + 32 * objNentry img + 4095) / 4096 * 4096
  padTo 4096 (part img 0 4 ++ leBytes 1 2 ++ part img 5 3 ++ leBytes 4 codeOff ++ leBytes 4 code.length ++
    leBytes 4 (codeOff + code.length) ++ leBytes 4 (objDataSize img) ++ leBytes 40 0 ++
    (List.range (objNentry img)).flatMap entry) ++ code ++ part img (objDataOff img) (objDataSize img)

/-- TRANSLATION of an object: every instruction is rewritten, or the load fails with status 0x12; with 0x13 where device
memory does not take the result (R96, R124, R127). -/
def execTranslation (s : State) : Out :=
  match s.turn with
  | .event _ (.nat k) =>
    let o := s.obj k
    let fails (status : Nat) : Out := .next (s.report k { o with st := .unloaded, image := [] } status).requestDone
    if o.st = .translating then
      match levelTwoCode o.image with
      | none => fails 0x12
      | some code =>
        let img := levelTwo o.image code
        if s.backed o.pa img.length then
          .next ((s.placeImage o.pa img).report k { o with st := .resident, image := img } 0).requestDone
        else fails 0x13
    else .next s
  | _ => .next s

/-- UNLOAD_REQUEST of an object (R125). -/
def execUnloadRequest (s : State) : Out :=
  match s.turn with
  | .event _ (.nat k) =>
    if s.mailboxWaits then .next s
    else
    let o := s.obj k
    match o.st with
    | .resident =>
      if s.references k = 0 then .next (s.unload k).requestDone
      else .next (s.report k { o with st := .draining } (s.references k)).requestDone
    | .draining => .next (s.report k o (s.references k)).requestDone
    | _ => .next s.requestDone
  | _ => .next s

/-! ## Attestation (R386, R387) -/

/-- The 64 bytes of a log entry. -/
def AttEntry.bytes (e : AttEntry) : List Byte :=
  leBytes 8 (e.event + e.kind * 2 ^ 8 + e.svn.toNat * 2 ^ 32) ++ leBytes 8 e.tick.toNat ++ leBytes 48 e.digest

/-- Appends an entry and extends the chain; events 0x02 and 0x03 then advance %fwgen. -/
def State.attest (s : State) (event kind : Nat) (svn : BitVec 32) (digest : Nat) : State :=
  let f := s.fw
  let e : AttEntry := ⟨event, kind, svn, BitVec.ofNat 64 s.fab.tick, digest⟩
  let f := { f with att := f.att ++ [e], chain := sha384 (leBytes 48 f.chain ++ e.bytes) }
  let f :=
    if event = 2 ∨ event = 3 then { f with fwLast := BitVec.ofNat 32 (f.att.length - 1), fwCount := f.fwCount + 1 } else f
  { s with fw := f }

/-- The attestation log as the management interface reads it (R386). -/
def State.attestationLog (s : State) : List Byte := s.fw.att.flatMap AttEntry.bytes

/-- An identity statement: C, the number of entries, and the signatures of both schemes (R382, R386). -/
structure IdentityStatement where
  chain : Nat
  count : Nat
  ec : List Byte
  lms : List Byte
  deriving DecidableEq, Repr

/-- The identity statement of the present log: what is signed is C, then the count in 8 bytes (DESIGN CHOICE log 9). -/
def State.identity (s : State) : IdentityStatement :=
  let m := leBytes 48 s.fw.chain ++ leBytes 8 s.fw.att.length
  ⟨s.fw.chain, s.fw.att.length, Config.identityEcSig m, Config.identityLmsSig m⟩

/-! ## Images (R381 to R383) -/

def State.kind (s : State) (k : Nat) : ImageKind := SMap.get {} s.fw.kinds k
def State.setKind (s : State) (k : Nat) (x : ImageKind) : State := { s with fw := { s.fw with kinds := SMap.set {} s.fw.kinds k x } }
def State.setStatus (s : State) (n : Nat) : State := { s with fw := { s.fw with status := n } }

/-- The header is well formed (R381); bits 63 to 32 at 0x018, which its table does not list, must be zero as reserved ones
(DEDUCED log 76). -/
def imageFormOk (img : List Byte) : Bool :=
  decide (imageNat img 0 4 = 0x47574D49 ∧ 1 ≤ imageNat img 4 1 ∧ imageNat img 4 1 ≤ 3 ∧ imageNat img 5 3 = 0 ∧
    imageNat img 0x14 4 = 0 ∧ imageNat img 0x1C 4 = 0 ∧ imageNat img 0x18 4 % 4096 = 0 ∧ imageNat img 0x18 4 ≤ 2 ^ 26 ∧
    img.length = 4096 + imageNat img 0x18 4) &&
  (part img 0xB8 0x48 ++ part img 0x160 0xA0 ++ part img 0x84C 0x7B4).all (fun b => decide (b = 0))

/-- The measurement M (R382). -/
def measureOf (img : List Byte) : Nat := sha384 (part img 0 0x100 ++ img.drop 4096)

/-! The fields of a header beside those that a verified image keeps apart (R381). -/

def imageVersion (img : List Byte) : Nat := imageNat img 12 4
def ecPub (img : List Byte) : List Byte := part img 0x20 0x60
def lmsPub (img : List Byte) : List Byte := part img 0x80 0x38
def ecSig (img : List Byte) : List Byte := part img 0x100 0x60
def lmsSig (img : List Byte) : List Byte := part img 0x200 0x64C

/-- The digest of an image's public keys (R382). -/
def keysOf (img : List Byte) : Nat := sha384 (ecPub img ++ lmsPub img)

/-- The fused key digest of the life-cycle state (R382, R390). -/
def Firmware.keys (f : Firmware) : Nat := Config.keyDigest (decide (f.life = .development))

/-- Verification (R382, R390). -/
def State.verifies (s : State) (img : List Byte) : Bool :=
  let m := measureOf img
  imageFormOk img &&
    decide (s.fw.keys = keysOf img) && ecdsaValid (ecPub img) (ecSig img) (leBytes 48 m) &&
    lmsValid (lmsPub img) (lmsSig img) (leBytes 48 m) &&
    decide ((SMap.get 0 s.fw.minima (imageNat img 4 1)).toNat ≤ imageNat img 8 4)

/-- The fields of a verified image. -/
def verifiedImage (img : List Byte) : Image :=
  { st := .verified, kind := imageNat img 4 1, svn := BitVec.ofNat 32 (imageNat img 8 4), minState := imageNat img 0x10 2,
    maxState := imageNat img 0x12 2, measure := measureOf img, bytes := img }

/-- Slots of rolled-back images are freed when a new image is staged (R383). -/
def freeRolledBack (ks : SMap ImageKind) : SMap ImageKind :=
  SMap.mapV {} ks (fun _ x => if x.retained.st = .rolledBack then { x with retained := {} } else x)

/-- STAGE_IMAGE: the image's bytes are verified. -/
def execStageImage (s : State) : Out :=
  match s.turn with
  | .event _ (.bytes img) =>
    if s.mailboxWaits then .next s
    else
    let s : State := { s with fw := { s.fw with kinds := freeRolledBack s.fw.kinds } }
    if s.verifies img then .next ({ s with fw := { s.fw with staging := verifiedImage img } }.setStatus 0).requestDone
    else .next ({ s with fw := { s.fw with staging := {} } }.setStatus 3).requestDone
  | _ => .next s

/-! ## The hand-over (R384) -/

/-- STATEVER of a state record. -/
def stateVer (r : List Byte) : Nat := imageNat r 8 2

/-- Step 3: the record against an image. -/
def recordOk (i : Image) (r : List Byte) : Bool :=
  decide (imageNat r 0 4 = 0x53545652 ∧ imageNat r 4 1 = i.kind ∧ i.minState ≤ stateVer r ∧ stateVer r ≤ i.maxState ∧
    imageNat r 12 4 = (r.drop 64).length ∧ leNat (part r 0x10 48) = sha384 (r.drop 64))

/-- A suspicion or a join notice. -/
def FlitBody.opensRound (b : FlitBody) : Bool :=
  match b with
  | .suspect _ _ | .notice _ _ => true
  | _ => false

/-- Outside every membership round, from its events on, and outside the loading of a schedule, as this chip knows them
(R354, R367, R384; DEDUCED log 51). -/
def Fabric.settled (f : Fabric) : Bool :=
  decide (f.round = none ∧ f.suspects = [] ∧ f.gaps = [] ∧ f.joins = []) && !f.outbox.any (fun x => x.2.body.opensRound) &&
  (f.loaded || !f.member)

/-- Whether the image in force of a kind stands at its safe point: a step is between packets and mailbox requests. -/
def State.safePoint (s : State) (k : Nat) : Bool := decide (k ≠ 3) || s.fab.settled

/-- Whether the staged image is one of this kind that the life-cycle state accepts (R383, R390). -/
def Firmware.ready (f : Firmware) (k : Nat) : Bool :=
  decide (f.staging.st = .verified ∧ f.staging.kind = k ∧ f.keys = keysOf f.staging.bytes)

/-- Step 1: the management interface names a kind; a second request, of any kind, completes with status busy (R383). -/
def State.requestHandOver (s : State) (k : Nat) : State :=
  if s.fw.handing ≠ none then (s.setStatus 1).requestDone
  else if s.fw.ready k then { s with fw := { s.fw with handing := some k } }
  else (s.setStatus 2).requestDone

/-- The hand-over ends with a status; then the requests that have waited for it are served, in their order (R389). -/
def State.endHandOver (s : State) (status : Nat) : State :=
  let l := s.fw.waiting
  l.foldl State.serveRequest { s with fw := { s.fw with handing := none, waiting := [], status := status } }.requestDone

/-- HAND_OVER: the request, a kind; then, of that kind, the state record that the image in force writes at its safe point, with
which steps 3 and 4 follow (DEDUCED log 51). -/
def execHandOver (s : State) : Out :=
  match s.turn with
  | .event _ (.nat k) => .next (s.requestHandOver k)
  | .event _ (.natBytes k r) =>
    let i := s.fw.staging
    if s.fw.handing ≠ some k ∨ s.safePoint k = false then .next s
    else if s.fw.ready k = false ∨ recordOk i r = false then .next (s.endHandOver 2)
    else
      let s := s.attest 2 k i.svn i.measure
      let x := s.kind k
      let s : State := { s with fw := { s.fw with staging := {} } }
      .next ((s.setKind k { inForce := { i with st := .shadow }, retained := { x.inForce with st := .retained }, handed := r }).endHandOver 0)
  | _ => .next s

/-! ## Heartbeats (R383, R385) -/

/-- HEARTBEAT: kind, and a state record where the write commits one. -/
def execHeartbeat (s : State) : Out :=
  match s.turn with
  | .event _ (.natOptBytes k r) =>
    let x := s.kind k
    if 1 ≤ k ∧ k ≤ 3 then
      .next (s.setKind k { x with
        beat := true
        records := match r with
          | some bs => (stateVer bs, bs) :: x.records
          | none => x.records })
    else .next s
  | _ => .next s

/-- The record with which an image starts again: the latest committed one that it accepts, else that of step 2. -/
def ImageKind.restartRecord (x : ImageKind) (i : Image) : List Byte :=
  ((x.records.find? (fun r => decide (i.minState ≤ r.1 ∧ r.1 ≤ i.maxState))).map (·.2)).getD x.handed

/-- Three windows in a row are missed. -/
def State.imageFails (s : State) (k : Nat) : State :=
  let x := s.kind k
  if x.retained.st = .retained ∧ (x.inForce.st = .shadow ∨ x.inForce.st = .active) then
    let i := { x.retained with st := .active }
    (s.attest 3 k i.svn i.measure).setKind k { x with
      inForce := i, retained := { x.inForce with st := .rolledBack }, handed := x.restartRecord i, missed := 0, windows := 0, beat := false }
  else if x.inForce.st = .active then
    (s.attest 1 k x.inForce.svn x.inForce.measure).setKind k { x with
      handed := ((x.records.head?).map (·.2)).getD x.handed, missed := 0, beat := false }
  else s.setKind k { x with beat := false }

/-- HEARTBEAT_WINDOW_END of a kind. -/
def execHeartbeatWindowEnd (s : State) : Out :=
  match s.turn with
  | .event _ (.nat k) =>
    if 1 ≤ k ∧ k ≤ 3 then
      let x := s.kind k
      let x := { x with windows := x.windows + 1, missed := if x.beat then 0 else x.missed + 1 }
      if x.missed = 3 then .next ((s.setKind k x).imageFails k)
      else
        let i := if x.inForce.st = .shadow ∧ 100 ≤ x.windows then { x.inForce with st := .active } else x.inForce
        .next (s.setKind k { x with beat := false, inForce := i })
    else .next s
  | _ => .next s

/-! ## Resets (R390) -/

/-- The number of a life-cycle state in the log (DEDUCED / PRESUMED log 26). -/
def lifeNumber (l : LifeCycle) : BitVec 32 :=
  match l with
  | .development => 0
  | .production => 1
  | .returned => 2

/-- A wipe: every memory of the module reads zero, and everything held in it is at its reset value. Host memory and
storage, module flash, fuses, the domain's tick and the stacks' repair lists stay; hard repairs take effect (R379). The
model's own counters go on (DESIGN CHOICE log 6). -/
def State.wipe (s : State) : State :=
  { State.reset with
    mem := SMap.clear (SMap.clear s.mem 0 (hostKey 0)) (5 * 2 ^ 56) (s.mem.foldl (fun n e => Nat.max n (e.1 + 1)) 0)
    dsp := { repaired := s.dsp.repaired ++ s.dsp.hardList, spares := s.dsp.spares }
    fab := { tick := s.fab.tick, chip := s.fab.chip, rejoining := decide (s.fab.vnum ≠ 0) && !s.fab.member }
    fw := { staging := s.fw.staging, minima := s.fw.minima, life := s.fw.life
            kinds := SMap.mapV {} s.fw.kinds (fun _ x => { inForce := { x.inForce with st := .active }, retained := x.retained }) }
    schedule := s.schedule
    turn := s.turn
    clock := s.clock
    freeCtr := s.freeCtr }

/-- The images in force are measured as they boot (R386). -/
def State.boot (s : State) : State :=
  [1, 2, 3].foldl (fun s k => s.attest 1 k (s.kind k).inForce.svn (s.kind k).inForce.measure) s

/-- MODULE_RESET: every memory is wiped and every context is free (R98, R390). -/
def execModuleReset (s : State) : Out := .next s.wipe.boot

/-- WARM_RESET: every memory is wiped (R390, DEDUCED / PRESUMED log 26). -/
def execWarmReset (s : State) : Out := .next s.wipe.boot

/-- LIFE_CYCLE_CHANGE: it waits for an image in shadow; then memory is wiped, the log restarts, and event 0x04 is its
first entry (R390). -/
def execLifeCycleChange (s : State) : Out :=
  match s.turn with
  | .event _ (.life l) =>
    if [1, 2, 3].any (fun k => decide ((s.kind k).inForce.st = .shadow)) then .next s
    else
      let s := s.wipe
      .next (({ s with fw := { s.fw with life := l } }.attest 4 0 (lifeNumber l) 0).boot)
  | _ => .next s

end Sys2Proof.Machine
end

