-- ==== Sys2Proof/Machine/LaneCtl.lean ====
section
/-! DEFINITION. Lane control instructions (R129, R162, R167, R168, R170, R173), special registers of lanes (R105,
R138, R159, R172, R180, R223, R224, R241, R246, R281, R387), and %bmode switches (R246). -/

namespace Sys2Proof.Machine

/-! ## Branches -/

/-- A branch target: the instruction's address plus twice the sign-extended offset (R66). -/
def branchTarget (pc : Word) (o : BitVec 22) : Word := pc + 2 * o.signExtend 64

/-- Sets the counters of a run's lanes, and what else f changes in them. -/
def jumpLanes (s : State) (r : Run) (f : Nat → Lane → Lane) : Out :=
  .next (s.setTeam r.team ((s.team r.team).updateLanes r.lanes f))

/-- BRA (R167). -/
def execBra (o : BitVec 22) (s : State) : Out :=
  onRun s (fun r s => jumpLanes s r (fun _ l => { l with pc := branchTarget r.pc o }))

/-- CALL: the link goes to v7, unpoisoned (R167). -/
def execCall (o : BitVec 22) (s : State) : Out :=
  onRun s (fun r s => jumpLanes s r (fun _ l => { l.setReg r.trap 7 ⟨r.pc + 4, false⟩ with pc := branchTarget r.pc o }))

/-- BRC and BRC.f: a poisoned predicate raises the containment trap with code 0x03 (R166, R167, R172). -/
def branchOn (s : State) (o : BitVec 22) (p : Nat) (sense : Bool) : Out :=
  onRun s (fun r s =>
    let t := s.team r.team
    let bad := r.lanes.filter (fun n => (t.lane n).predPoison p)
    if !bad.isEmpty then .next (laneTrap s r r.pc (bad.map (fun n => ⟨n, 6, 3, 0, [], 0⟩)))
    else jumpLanes s r (fun _ l => { l with pc := if l.pred p = sense then branchTarget r.pc o else r.pc + 4 }))

/-- BRC (R167). -/
def execBrc (o : BitVec 22) (p : BitVec 3) (s : State) : Out := branchOn s o p.toNat true
/-- BRC.f (R167). -/
def execBrcF (o : BitVec 22) (p : BitVec 3) (s : State) : Out := branchOn s o p.toNat false

/-- Jumps to v(a) with bit 0 cleared; a poisoned target traps (R168). -/
def jumpReg (s : State) (a : Nat) : Out :=
  onRunRegs s [a] (fun r s =>
    let t := s.team r.team
    let bad := r.lanes.filter (fun n => ((t.lane n).reg r.trap a).poison)
    if !bad.isEmpty then .next (laneTrap s r r.pc (bad.map (fun n => ⟨n, 6, 2, 0, [], 0⟩)))
    else jumpLanes s r (fun _ l => { l with pc := (l.reg r.trap a).val &&& ~~~1 }))

/-- JMPR (R168). -/
def execJmpr (a : BitVec 6) (s : State) : Out := jumpReg s a.toNat
/-- RET (R168). -/
def execRet (a : BitVec 6) (s : State) : Out := jumpReg s a.toNat

/-! ## The remaining control forms (R170) -/

/-- NOP (R170). -/
def execNop (s : State) : Out := laneOp s 4 [] (fun _ _ _ _ => {})

/-- YLD: the lanes pass it and carry the deferred mark (R162). -/
def execYld (s : State) : Out :=
  onRun s (fun r s => jumpLanes s r (fun _ l => { l with pc := r.pc + 4, deferred := true }))

/-- EXIT: the lanes exit and leave trap mode; barriers are tested again (R170, R306). -/
def execExit (s : State) : Out :=
  onRun s (fun r s =>
    let t := s.team r.team
    .next ((s.setTeam r.team (t.updateLanes r.lanes (fun _ l => { l with pc := r.pc + 4, exited := true, trap := false }))).afterExit
      r.team false))

/-- TRAP n: class 0x07, code n; the next address is recorded (R170, R172). -/
def execTrap (n : BitVec 6) (s : State) : Out :=
  onRun s (fun r s => .next (laneTrap s r (r.pc + 4) (r.lanes.map (fun k => ⟨k, 7, n.toNat, 0, [], 0⟩))))

/-- PPACK: the eight predicates as they read, poisoned when p1 to p7 hold poison (R170). -/
def execPpack (d : BitVec 6) (s : State) : Out :=
  laneOp s 4 [d.toNat] (fun _ _ _ l =>
    let v := (List.range 8).foldl (fun m p => if l.pred p then m + 2 ^ p else m) 0
    { regs := [(d.toNat, ⟨BitVec.ofNat 64 v, (List.range 8).any l.predPoison⟩)] })

/-- PUNPK: p1 to p7 from the bits of a (R170). -/
def execPunpk (a : BitVec 6) (s : State) : Out :=
  laneOp s 4 [a.toNat] (fun r _ _ l =>
    let x := l.reg r.trap a.toNat
    { preds := (List.range 7).map (fun i => (i + 1, x.val.getLsbD (i + 1), x.poison)) })

/-- Brings a code line into the core's instruction cache if it can be fetched; never a fault (R129, R334, R336). -/
def State.prefetchCode (s : State) (tk va : Nat) : State :=
  if 2 ^ 56 ≤ va then s
  else
    match s.translate (s.coreOf tk) (s.asidOf tk) va with
    | (.ok pa _ _ true, s') =>
      match s'.reachPa pa with
      | .none => s'
      | .lost => s'
      | _ =>
        if s'.awayNow (.pa pa) then s'
        else
          match s'.fillLine (s'.coreOf tk) (s'.asidOf tk) (va / 64) (pa / 64) with
          | (.wait p, s) => s.startWait (s.gridOf tk) p
          | (_, s) => s
    | _ => s

/-- PFI: one request for the line at a line offset from the instruction's (R129). -/
def execPfi (o : BitVec 6) (s : State) : Out :=
  onRun s (fun r s =>
    let line := (BitVec.ofNat 58 (r.pc.toNat / 64)) + o.signExtend 58
    finishLanes (s.prefetchCode r.team (line.toNat * 64)) r 4 (fun _ _ => {}))

/-! ## Trap-mode operations (R173) -/

/-- Runs a trap-mode operation; outside trap mode it is unassigned (R83). -/
def inTrap (s : State) (fields : List Nat) (f : Run → State → Out) : Out :=
  onRunRegs s fields (fun r s => if r.trap then f r s else undefinedInRun s r)

/-- VGET: the interrupted lane's v(56 + n), which must lie below the cap (R173). -/
def execVget (n : BitVec 3) (d : BitVec 6) (s : State) : Out :=
  inTrap s [d.toNat] (fun r s =>
    if (s.gridOf r.team).launch.cap ≤ 56 + n.toNat then undefinedInRun s r
    else finishLanes s r 4 (fun _ l => { regs := [(d.toNat, SMap.get {} l.v (56 + n.toNat))] }))

/-- VPUT: writes the interrupted lane's v(56 + n) (R173). -/
def execVput (n : BitVec 3) (a : BitVec 6) (s : State) : Out :=
  inTrap s [a.toNat] (fun r s =>
    if (s.gridOf r.team).launch.cap ≤ 56 + n.toNat then undefinedInRun s r
    else jumpLanes s r (fun _ l => { l.putAbs (56 + n.toNat) (l.reg r.trap a.toNat) with pc := r.pc + 4 }))

/-- TRET: back to %lepc with bit 0 cleared, out of trap mode (R173). -/
def execTret (s : State) : Out :=
  inTrap s [] (fun r s => jumpLanes s r (fun _ l => { l with pc := l.lepc &&& ~~~1, trap := false }))

/-! ## Special registers that both streams read (R105, R138, R224) -/

/-- The quantum in force, 0 read as 2,000 (R105). -/
def CtxRecord.quantumUs (r : CtxRecord) : Nat := if r.quantum = 0 then 2000 else r.quantum

/-- %view (R352). -/
def State.viewReg (s : State) : Nat :=
  let f := s.fab
  f.vnum.toNat + f.members.length % 2 ^ 13 * 2 ^ 32 + (if f.members.contains f.chip then 2 ^ 48 else 0) +
    (if f.isol then 2 ^ 49 else 0) + f.chip % 2 ^ 12 * 2 ^ 50

/-- Selectors 0x004 to 0x00D, 0x019, 0x01A and 0x023 for a team. -/
def State.sharedSpecial (s : State) (tk sel : Nat) : Nat :=
  let g := s.gridOf tk
  let ix := keyIx tk
  let rank := g.rankOf ix
  match sel with
  | 0x04 => g.coords ix
  | 0x05 => g.clusterOf ix % 2 ^ 48 + rank % g.launch.cx * 2 ^ 48 + rank / g.launch.cx * 2 ^ 52
  | 0x06 => g.launch.gx + g.launch.gy * 2 ^ 16 + g.launch.gz * 2 ^ 32
  | 0x07 => s.fab.tick
  | 0x08 => s.viewReg
  | 0x09 => g.asid
  | 0x0A => g.rcd.mclass
  | 0x0B => (if g.rcd.det then 1 else 0) + (if g.rcd.priv then 2 else 0) + g.rcd.prio * 4
  | 0x0C => g.rcd.quantumUs
  | 0x0D => ix
  | 0x19 => 0x05030506
  | 0x1A => (s.team tk).bmode.toNat
  | 0x23 => s.fw.fwCount.toNat + s.fw.fwLast.toNat * 2 ^ 32
  | _ => 0

/-- A lane's special register (R224). -/
def State.laneSpecial (s : State) (tk n sel : Nat) : Word :=
  let g := s.gridOf tk
  let t := s.team tk
  let w := g.launch.width
  let l := t.lane n
  let place := t.slots.getD (n / w) (0, 0)
  let slot := place.1 + (if 32 ≤ place.2 + n % w then 4 else 0)
  match sel with
  | 0x00 => BitVec.ofNat 64 (n % w)
  | 0x01 => BitVec.ofNat 64 (place.2 + n % w)
  | 0x02 => BitVec.ofNat 64 (slot % 16 + slot / 16 * 16 + t.core * 64)
  | 0x03 => BitVec.ofNat 64 (n / w + w * 256)
  | 0x0E => l.stklim
  | 0x14 => l.lcause
  | 0x15 => l.lepc
  | 0x16 => l.laddr
  | 0x17 => l.lflags.setWidth 64
  | 0x18 => l.lnrec.setWidth 64
  | k => if 0x40 ≤ k ∧ k ≤ 0x5F then SMap.get 0 l.lprec (k - 0x40) else BitVec.ofNat 64 (s.sharedSpecial tk k)

/-- MOVS (R223). -/
def execMovs (x_s : BitVec 12) (d : BitVec 6) (s : State) : Out :=
  onRunRegs s [d.toNat] (fun r s =>
    finishLanes s r 4 (fun n _ => { regs := [(d.toNat, ⟨s.laneSpecial r.team n x_s.toNat, false⟩)] }))

/-- SETS: a poisoned a raises the containment trap with code 0x05 and writes nothing (R223). -/
def setsOp (s : State) (a : Nat) (f : Run → State → Out) : Out :=
  onRunRegs s [a] (fun r s =>
    let t := s.team r.team
    let bad := r.lanes.filter (fun n => ((t.lane n).reg r.trap a).poison)
    if !bad.isEmpty then .next (laneTrap s r r.pc (bad.map (fun n => ⟨n, 6, 5, 0, [], 0⟩))) else f r s)

/-- SETS %stklim (R169). -/
def execSetsStklim (a : BitVec 6) (s : State) : Out :=
  setsOp s a.toNat (fun r s => jumpLanes s r (fun _ l => { l with stklim := (l.reg r.trap a.toNat).val, pc := r.pc + 4 }))

/-- SETS %lepc: in trap mode only (R172). -/
def execSetsLepc (a : BitVec 6) (s : State) : Out :=
  onRun s (fun r s0 =>
    if r.trap then
      setsOp s a.toNat (fun r s => jumpLanes s r (fun _ l => { l with lepc := (l.reg r.trap a.toNat).val, pc := r.pc + 4 }))
    else undefinedInRun s0 r)

/-- SETS %lflags: bits 5 to 0 (R180). -/
def execSetsLflags (a : BitVec 6) (s : State) : Out :=
  setsOp s a.toNat (fun r s =>
    jumpLanes s r (fun _ l => { l with lflags := (l.reg r.trap a.toNat).val.setWidth 6, pc := r.pc + 4 }))

/-! ## Bank modes (R245, R246) -/

/-- The banks that a series of %bmode values switches, from the value in force (DEDUCED log 63). -/
def switchedBanks (cur : BitVec 16) (vs : List (BitVec 16)) : List Nat :=
  (List.range 16).filter (fun j => (vs.foldl (fun acc v => (acc.1 || (v.getLsbD j != acc.2), v.getLsbD j)) (false, cur.getLsbD j)).1)

/-- Whether a switch of a team's bank must wait: a command has claimed a line of it or has one still to read, an
issued TST has claimed one, or a leaf has captured bytes of it (R246, R268). -/
def State.bankBusy (s : State) (tk bank : Nat) : Bool :=
  let lo := spadKey tk bank 0 / 64
  let inBank (k : Nat) : Bool := decide (lo ≤ k ∧ k < lo + 512)
  s.commands.any (fun c => c.claims.any inBank || c.srcs.any inBank) || s.tileClaims.any (fun c => c.2.any inBank) ||
    s.captured (.spad tk bank 0) 32768

/-- Zeroes a bank: its bytes, the poison of its lines and its queue (R245). -/
def State.zeroBank (s : State) (tk bank : Nat) : State :=
  let lo := spadKey tk bank 0
  let t := s.team tk
  let s := { s with
    mem := SMap.clear s.mem lo (lo + 32768)
    lines := SMap.mapV {} s.lines (fun k x => if lo / 64 ≤ k ∧ k < lo / 64 + 512 then { x with poison := false } else x)
    bad := SMap.clear s.bad (lo / 64) (lo / 64 + 512) }
  s.setTeam tk { t with fifos := SMap.set [] t.fifos bank [] }

/-- Buffered stores of every sequencer into a bank join the order (R246). -/
def State.drainBank (s : State) (tk bank : Nat) : State :=
  (s.teams.map (·.1)).foldl (fun s k => s.drainIf k (fun b => match b.loc with
    | .spad t c _ => decide (t = tk ∧ c = bank)
    | .pa _ => false)) s

/-- The switch as one event: buffered stores are applied, switched banks zeroed, the mode changed (R246). -/
def State.switchBanks (s : State) (tk : Nat) (vs : List (BitVec 16)) : State :=
  let bs := switchedBanks (s.team tk).bmode vs
  let s := bs.foldl (fun s b => (s.drainBank tk b).zeroBank tk b) s
  let t := s.team tk
  s.setTeam tk { t with bmode := vs.getLastD t.bmode }

/-- SETS %bmode: the lanes' values in ascending lane order; bits at or above SBANKS are ignored. The lanes wait
until the switch has taken place (R223, R246). -/
def execSetsBmode (a : BitVec 6) (s : State) : Out :=
  setsOp s a.toNat (fun r s =>
    let t := s.team r.team
    let mask : BitVec 16 := BitVec.ofNat 16 (2 ^ (s.gridOf r.team).launch.sbanks - 1)
    let vs := r.lanes.map (fun n => ((t.lane n).reg r.trap a.toNat).val.setWidth 16 &&& mask)
    if t.bmodeNext.isEmpty && !(switchedBanks t.bmode vs).any (s.bankBusy r.team) then
      .next ((s.switchBanks r.team vs).laneDone r.team r.lanes)
    else
      let t := s.team r.team
      let t := t.updateLanes r.lanes (fun _ l => { l with block := .perform })
      .next (s.setTeam r.team { t with bmodeNext := t.bmodeNext ++ [(vs, r.lanes)] }))

/-- A waiting %bmode switch takes place once nothing holds the banks (R246): the operand names the team. -/
def execBankModeSwitch (s : State) : Out :=
  match s.turn with
  | .event _ (.nat tk) =>
    let t := s.team tk
    match t.bmodeNext with
    | [] => .next s
    | (vs, lanes) :: rest =>
      if (switchedBanks t.bmode vs).any (s.bankBusy tk) then .next s
      else
        let s := (s.switchBanks tk vs).laneDone tk lanes
        .next (s.setTeam tk { s.team tk with bmodeNext := rest })
  | _ => .next s

/-- WAITING_ACCESS_PERFORM: accesses that passed their checks and waited go on (R160, R207): the operand names
the entry. -/
def execWaitingAccessPerform (s : State) : Out :=
  match s.turn with
  | .event _ (.nat idx) => .next (s.resumeParked idx)
  | _ => .next s

end Sys2Proof.Machine
end

