-- ==== Sys2Proof/Machine/SeqCtl.lean ====
section
/-! DEFINITION. Sequencer memory, branches, control forms, special registers and LOOP (R92, R105, R148 to R155,
R238, R281, R396). -/

namespace Sys2Proof.Machine

/-! ## Memory (R148) -/

/-- A class 0x08 fault raised at an instruction, precise: %tcreat and %tforcr hold its own address (R280, R286). -/
def tileTrapAt (s : State) (tk code : Nat) : Out :=
  let t := s.team tk
  let pc := t.seq.pc &&& (2 ^ 56 - 1)
  seqTrap (s.setTeam tk { t with mf := { t.mf with tcreat := pc, tforcr := pc } }) tk 8 code 0

/-- A push to a full FIFO or a pop from an empty one waits (R248). -/
def State.seqFifoWait (s : State) (k : AccKind) (runs : List (Loc × Nat)) : Bool :=
  match s.fifoPort runs with
  | some (t, b, o) =>
    let n := (SMap.get [] (s.team t).fifos b).length
    if k = .store then decide (4095 ≤ n) else decide (o = 8 ∧ n = 0)
  | none => false

/-- Checks a sequencer access and goes on with its runs; a fault traps, a wait stays (R148, R203). -/
def seqAccess (s : State) (tk : Nat) (k : AccKind) (va : Word) (size : Nat) (f : List (Loc × Nat) → State → Out) : Out :=
  let x := s.checkAccess (s.whoOf tk) (s.coreOf tk) k true true false va.toNat size
  let s := x.2
  match x.1 with
  | .fail e => seqTrap s tk e.cls e.code (BitVec.ofNat 64 e.addr)
  | .wait p => .next (s.seqPage tk p false)
  | .ok runs =>
    match s.seqFifoWait k runs with
    | true => .next (s.seqStay tk)
    | false => f runs s

/-- A sequencer access whose checks have passed performs, or waits in a DET grid to be checked again (R140, R203). -/
def performSeq (s : State) (tk : Nat) (pc : Word) (a : Access) : Out :=
  match s.detHold (keyGrid tk) [a] with
  | some x => .next (s.seqPage tk { b := .access (keyGrid tk) x.1 x.2 } false)
  | none => .next (s.performOrPark tk [] pc [a])

/-- SLD: the n types zero-extend, the i types sign-extend (R87, R148). -/
def execSld (i : BitVec 8) (f : BitVec 3) (a d : BitVec 5) (s : State) : Out :=
  onSeq s (fun tk q s =>
    let size := 2 ^ (f.toNat % 4)
    let va := q.reg a.toNat + BitVec.ofNat 64 (i.toNat * size)
    seqAccess s tk .load va size (fun runs s =>
      performSeq s tk q.pc ⟨.seq tk, va, pieces runs, .load d.toNat size (decide (4 ≤ f.toNat)), 0, [], false⟩))

/-- The bytes of a store as buffered bytes, in ascending address. -/
def bufferBytes (store : Nat) (runs : List (Loc × Nat)) (bs : List Byte) : List BufByte :=
  match runs with
  | [] => []
  | (l, n) :: r => (List.range n).map (fun j => ⟨l.plus j, bs.getD j 0, store⟩) ++ bufferBytes store r (bs.drop n)

/-- A store enters the buffer, behind those there (R238). -/
def Sequencer.buffer (q : Sequencer) (runs : List (Loc × Nat)) (bs : List Byte) : Sequencer :=
  let n := match q.sbuf.getLast? with
    | some b => b.store + 1
    | none => 0
  { q with sbuf := q.sbuf ++ bufferBytes n runs bs }

/-- Whether runs overlap a region that the team's own manifest has captured (R269). -/
def Team.ownCapture (t : Team) (runs : List (Loc × Nat)) : Bool :=
  t.mf.nodes.any (fun e => e.2.captures && runs.any (fun x => e.2.region.any (fun r => overlaps x.1 x.2 r.1 r.2)))

/-- SST: a store into the scratchpad window is buffered, but for a FIFO push (R148, R238, R248); a store into a
region captured by the team's own manifest traps (R269). -/
def execSst (i : BitVec 8) (w : BitVec 2) (b a : BitVec 5) (s : State) : Out :=
  onSeq s (fun tk q s =>
    let size := 2 ^ w.toNat
    let va := q.reg a.toNat + BitVec.ofNat 64 (i.toNat * size)
    let data := (q.reg b.toNat).toNat % 2 ^ (8 * size)
    seqAccess s tk .store va size (fun runs s =>
      match runs with
      | (.spad _ _ _, _) :: _ =>
        if (s.team tk).ownCapture runs then tileTrapAt s tk 4
        else
          match s.fifoPort runs with
          | some _ => performSeq s tk q.pc ⟨.seq tk, va, runs, .store size data false, 0, [], false⟩
          | none =>
            -- its tags are set at its checks (R140)
            let s := (linePieces runs).foldl (fun (s : State) p => s.setTag (s.whoOf tk) true p.1) s
            let s := s.recordStore (.seq tk) va size data
            .next (s.seqDone tk (fun q => q.buffer runs (leBytes size data)))
      | _ => performSeq s tk q.pc ⟨.seq tk, va, pieces runs, .store size data false, 0, [], false⟩))

/-! ## Branches (R149) -/

/-- A conditional branch on s(a) read as signed. -/
def seqBranch (s : State) (i : BitVec 16) (a : BitVec 5) (c : Int → Bool) : Out :=
  onSeq s (fun tk q s =>
    if c (q.reg a.toNat).toInt then .next (s.setSeq tk { q with pc := q.pc + 2 * i.signExtend 64 }) else .next (s.seqDone tk id))

/-- BZ (R149). -/
def execBz (i : BitVec 16) (a : BitVec 5) (s : State) : Out := seqBranch s i a (fun x => decide (x = 0))
/-- BNZ (R149). -/
def execBnz (i : BitVec 16) (a : BitVec 5) (s : State) : Out := seqBranch s i a (fun x => decide (x ≠ 0))
/-- BLTZ (R149). -/
def execBltz (i : BitVec 16) (a : BitVec 5) (s : State) : Out := seqBranch s i a (fun x => decide (x < 0))
/-- BGEZ (R149). -/
def execBgez (i : BitVec 16) (a : BitVec 5) (s : State) : Out := seqBranch s i a (fun x => decide (0 ≤ x))
/-- BGTZ (R149). -/
def execBgtz (i : BitVec 16) (a : BitVec 5) (s : State) : Out := seqBranch s i a (fun x => decide (0 < x))
/-- BLEZ (R149). -/
def execBlez (i : BitVec 16) (a : BitVec 5) (s : State) : Out := seqBranch s i a (fun x => decide (x ≤ 0))

/-- JMP (R149). -/
def execJmp (o : BitVec 22) (s : State) : Out := onSeq s (fun tk q s => .next (s.setSeq tk { q with pc := branchTarget q.pc o }))

/-- CALL: the link goes to s31 (R149). -/
def execJumpCall (o : BitVec 22) (s : State) : Out :=
  onSeq s (fun tk q s => .next (s.setSeq tk { q.setReg 31 (q.pc + 4) with pc := branchTarget q.pc o }))

/-- JMPR (R149). -/
def execSctlJmpr (a : BitVec 5) (s : State) : Out :=
  onSeq s (fun tk q s => .next (s.setSeq tk { q with pc := q.reg a.toNat &&& ~~~1 }))

/-- RET: to s31 with bit 0 cleared (R149). -/
def execSctlRet (s : State) : Out := onSeq s (fun tk q s => .next (s.setSeq tk { q with pc := q.reg 31 &&& ~~~1 }))

/-! ## The remaining control forms (R150, R151) -/

/-- EXIT: the sequencer stops; its counter stays at the EXIT (R150, R155, R270). -/
def execSctlExit (s : State) : Out :=
  onSeq s (fun tk q s => .next ((s.setSeq tk { q with exited := true }).afterExit tk true))

/-- NOP (R150). -/
def execSctlNop (s : State) : Out := seqOp s 4 id

/-- Whether accesses of a team's sequencer are on their way to other chips (R220). -/
def State.seqForwards (s : State) (tk : Nat) : Bool :=
  s.fab.fwd.any (fun x => decide (x.owner = .agent (.seq tk)))

/-- A sequencer fence: buffered window stores join, and it waits for any that cannot; with `far` also for accesses that
other chips have not performed yet (R238). -/
def seqFence (s : State) (far : Bool) : Out :=
  onSeq s (fun tk _ s =>
    let s := s.drainAll tk
    if (s.team tk).seq.sbuf.isEmpty && !(far && s.seqForwards tk) then .next (s.seqDone tk id) else .next (s.seqStay tk))

/-- FENCE.C (R238). -/
def execSctlFenceC (s : State) : Out := seqFence s false
/-- FENCE.D (R238). -/
def execSctlFenceD (s : State) : Out := seqFence s true
/-- FENCE.S: stores to host memory are visible to the host when they perform (R238, R240). -/
def execSctlFenceS (s : State) : Out := seqFence s true

/-- TRAP n: class 0x07, code n, with the next address saved (R150, R151). -/
def execSctlTrap (n : BitVec 8) (s : State) : Out := onSeq s (fun tk q s => .next (seqTrapAt s tk 7 n.toNat (q.pc + 4) 0))

/-- Whether a node that lost its value is built again (R264). -/
def Manifest.builtAgain (m : Manifest) (k : Nat) : Bool :=
  match m.node? k with
  | some n => !n.holds && !n.lost
  | none => false

/-- A force under way as it is served again: nodes that were built again are computed from their operands, and its places are
gone through anew, those that it holds values of aside (R279, R280). -/
def Manifest.workAgain (m : Manifest) (w : Work) : Work :=
  let c := (w.copy.nodes.map (·.1)).foldl m.graft w.copy
  { w with copy := c, set := m.reach w.set, order := c.post, pos := 0 }

/-- A suspended force as it is served again (R277, R280): from its faulted node, with the banks held and the space freed
by now. A TST whose root was lost computes it again. -/
def Manifest.served (m : Manifest) (held : BitVec 16) (f : Force) : Force :=
  if f.suspended then
    let g : Force := { f with suspended := false, space := m.serial + 1, snap := { f.snap with held := held } }
    if f.fin && m.builtAgain f.root then { g with fin := false, work := none } else { g with work := f.work.map m.workAgain }
  else f

/-- After TRET suspended forces are served again (R280): what they compute is evaluating again, and a node at which no force
under way has faulted is as it was built. -/
def Manifest.resume (m : Manifest) (held : BitVec 16) : Manifest :=
  let fs := m.forces.map (m.served held)
  { m with
    forces := fs
    nodes := m.nodes.map (fun e =>
      if e.2.holds || e.2.lost then e
      else if fs.any (fun (f : Force) => match f.work with
          | some w => w.set.contains e.1
          | none => false) then (e.1, { e.2 with st := .evaluating, fcode := 0 })
      else if e.2.st = .faulted then (e.1, { e.2 with st := e.2.base, fcode := 0 })
      else e) }

/-- TRET: out of trap mode to s(a) with bit 0 cleared. A target inside the held loop's body resumes it, any other
ends it (R154); a held wait survives only a return to its instruction (R396); suspended forces are served
again (R280). -/
def execSctlTret (a : BitVec 5) (s : State) : Out :=
  onSeq s (fun tk q s =>
    if q.trap then
      let target := q.reg a.toNat &&& ~~~1
      let loop := match q.loop with
        | some l => if l.lo.toNat ≤ target.toNat ∧ target.toNat < l.hi.toNat then some l else none
        | none => none
      let held := match q.held with
        | some h => if h.2 = target then some h else none
        | none => none
      let t := s.team tk
      let mf := t.mf.resume t.heldMask
      .next (s.setTeam tk { t with mf := mf, seq := { q with trap := false, hs := [], hloop := none, loop := loop, held := held, pc := target } })
    else seqTrap s tk 1 1 0)

/-! ## Special registers (R105, R151, R281) -/

/-- %sloop: passes still to run of the loop that is held, the current one included (R151, DEDUCED log 20). -/
def Sequencer.sloop (q : Sequencer) : Word :=
  let l := match q.hloop with
    | some l => some l
    | none => q.loop
  match l with
  | some l => l.count - l.pass
  | none => 0

/-- A sequencer's special register. -/
def State.seqSpecial (s : State) (tk sel : Nat) : Word :=
  let t := s.team tk
  match sel with
  | 0x10 => t.seq.scause
  | 0x11 => t.seq.sepc
  | 0x12 => t.seq.saddr
  | 0x13 => t.seq.sloop
  | 0x1B => t.mf.tcreat
  | 0x1C => t.mf.tforcr
  | 0x1D => t.mf.tflags
  | 0x1F => t.mf.tfcre
  | 0x20 => t.mf.tffor
  | 0x21 => t.mf.toerr
  | 0x22 => t.mf.tocre
  | k => BitVec.ofNat 64 (s.sharedSpecial tk k)

/-- MOVS (R150). -/
def execSctlMovs (x_s : BitVec 8) (d : BitVec 5) (s : State) : Out :=
  onSeq s (fun tk _ s => .next (s.seqDone tk (fun q => q.setReg d.toNat (s.seqSpecial tk x_s.toNat))))

/-- MOVS %tflagsc: reads %tflags and clears it with its records (R281). -/
def execMovsTflagsc (d : BitVec 5) (s : State) : Out :=
  onSeq s (fun tk _ s =>
    let t := s.team tk
    let v := t.mf.tflags
    let mf := { t.mf with tflags := 0, tfcre := 0, tffor := 0, toerr := 0, tocre := 0 }
    .next ((s.setTeam tk { t with mf := mf }).seqDone tk (fun q => q.setReg d.toNat v)))

/-! ## LOOP (R92, R153) -/

/-- Whether a body may hold a fetched instruction (R153): not LOOP, BCOND, JUMP, VIEWS, nor SCTL but NOP and
FENCE. -/
def bodyAllows (w : Nat) : Bool :=
  if w % 2 = 0 then true
  else
    let major := w / 2 % 32
    let fn := w / 2 ^ 21 % 8
    !(decide (major = 0x0C ∨ major = 0x0D ∨ major = 0x0F ∨ major = 0x15) || (decide (major = 0x0E) && !decide (fn = 3 ∨ fn = 4)))

/-- The outcome of fetching a body: its end and whether all of it is allowed; the address that cannot be fetched
with its code; or a wait. -/
inductive Body where
  | ok (hi : Nat) (allowed : Bool)
  | fault (at_ code : Nat)
  | wait (p : PageWait)
  deriving DecidableEq, Repr

/-- Whether the instruction from va to below `next` leaves the code section of the object in which the LOOP at pc0 lies
(R153): the object that its frame belongs to, or the launch's. -/
def State.leavesCode (s : State) (tk pc0 va next : Nat) : Bool :=
  let place (a : Nat) : Option Nat := match (s.translate (s.coreOf tk) (s.asidOf tk) a).1 with
    | .ok pa _ _ _ => some pa
    | _ => none
  let l := (s.gridOf tk).launch
  match (place pc0).bind s.codeSection with
  | some c => [place va, place (next - 1)].any (fun x => match x with
    | some pa => decide (pa < c.1 ∨ c.2 ≤ pa)
    | none => false)
  | none => decide (pc0 < l.codeEnd.toNat ∧ l.codeEnd.toNat < next)

/-- Fetches n instructions from an address for the LOOP at pc0 (R153). An instruction past the end of the code object
cannot be fetched (DEDUCED log 22). -/
def State.fetchBody (s : State) (tk pc0 : Nat) (n va : Nat) (allowed : Bool) : Body × State :=
  match n with
  | 0 => (.ok va allowed, s)
  | k + 1 =>
    match s.fetchInstr tk va with
    | (.ok w, s) =>
      let next := va + (if w % 2 = 0 then 2 else 4)
      if s.leavesCode tk pc0 va next then (.fault va 1, s)
      else State.fetchBody s tk pc0 k next (allowed && bodyAllows w)
    | (.fault c, s) => (.fault va c, s)
    | (.wait p, s) => (.wait p, s)

/-- LOOP: the step word's check, then the body's fetch, then its instructions (DEDUCED log 22); a count of 0 runs no pass
(R92, R153). -/
def execLoop (n b a : BitVec 5) (s : State) : Out :=
  onSeq s (fun tk q s =>
    let c := q.reg a.toNat
    let w := q.reg b.toNat
    if w.toNat / 2 ^ 36 ≠ 0 then seqTrap s tk 1 1 0
    else
      let x := s.fetchBody tk q.pc.toNat (n.toNat + 1) (q.pc.toNat + 4) true
      let s := x.2
      match x.1 with
      | .fault at_ code => .next (seqTrapAt s tk 3 code (BitVec.ofNat 64 at_) 0)
      | .wait p => .next (s.seqPage tk p false)
      | .ok hi allowed =>
        if !allowed then seqTrap s tk 0x0A 1 0
        else
          let q := (s.team tk).seq
          if c = 0 then .next (s.setSeq tk { q with pc := BitVec.ofNat 64 hi })
          else
            .next (s.setSeq tk { q.setLoop (some ⟨c, 0, q.pc + 4, BitVec.ofNat 64 hi, w⟩) with pc := q.pc + 4 }))

end Sys2Proof.Machine
end

