-- ==== Sys2Proof/Machine/Tile.lean ====
section
/-! DEFINITION. The tile instructions (R259, R266, R284 to R301): their checks in the order of R287, room for a node,
insertion and sharing, forces, and the accumulator banks. -/

namespace Sys2Proof.Machine

/-! ## Fields and operands -/

/-- A tile field in a LOOP body (R92): the step lies in the step word at `pos`. -/
def tileField (q : Sequencer) (pos f : Nat) : Nat :=
  match q.curLoop with
  | none => f
  | some l => (f + l.pass.toNat * (l.step.toNat / 2 ^ pos % 16)) % 16

/-- The fields td, ta, tb and tc as they read now. -/
def tileD (q : Sequencer) (f : BitVec 4) : Nat := tileField q 0 f.toNat
def tileA (q : Sequencer) (f : BitVec 4) : Nat := tileField q 4 f.toNat
def tileB (q : Sequencer) (f : BitVec 4) : Nat := tileField q 8 f.toNat
def tileC (q : Sequencer) (f : BitVec 4) : Nat := tileField q 32 f.toNat

/-- Runs a tile instruction: it takes its number. -/
def onTile (s : State) (f : Nat → Sequencer → State → Out) : Out :=
  onSeq s (fun tk q s => f tk q (s.setMf tk (s.mf tk).tick))

/-- The node that a tile register names, with its creation number. -/
def Manifest.operand (m : Manifest) (r : Nat) : Option (Nat × Node) :=
  match m.named r with
  | none => none
  | some k => (m.node? k).map (fun n => (k, n))

/-- Runs f on the node of a register, or faults with code 0x05 where it names none (R286). -/
def withOperand (s : State) (tk r : Nat) (f : Nat → Node → Out) : Out :=
  match (s.mf tk).operand r with
  | some (k, n) => f k n
  | none => tileTrapAt s tk 5

/-- Whether a node has a value format of code c that is no pair and no block partials. -/
def Node.plain (n : Node) (c : Nat) : Bool := decide (n.vfmt = c ∧ n.vkind = 0)

/-! ## Shapes and descriptors (R284) -/

def shapeRows (w : Nat) : Nat := w % 2 ^ 9
def shapeCols (w : Nat) : Nat := w / 2 ^ 9 % 2 ^ 9
def shapeStride (w : Nat) : Nat := w / 2 ^ 32 % 2 ^ 16

/-- Whether R and C are those of a tile (R285). -/
def sizeOk (r c : Nat) : Bool := decide (1 ≤ r ∧ r ≤ 256 ∧ 1 ≤ c ∧ c ≤ 256 ∧ (r ≤ 64 ∨ c ≤ 64))
/-- Whether a stride is 0, or a multiple of 8 no smaller than the row bytes. -/
def strideOk (st rb : Nat) : Bool := decide (st = 0 ∨ (st % 8 = 0 ∧ rb ≤ st))

/-- Whether a shape word is well formed for a format; a constant's has no stride (R284, R286). -/
def shapeOk (fmt : Nat) (constant : Bool) (w : Nat) : Bool :=
  decide (w / 2 ^ 48 = 0 ∧ w / 2 ^ 18 % 2 ^ 14 = 0) && sizeOk (shapeRows w) (shapeCols w) &&
    (if constant then decide (shapeStride w = 0) else strideOk (shapeStride w) (rowBytes fmt (shapeCols w) false))

/-- Whether a descriptor is well formed for a target format, its stride's lower bound aside (R284, R286). -/
def descOk (fmt : Nat) (d : Word) : Bool :=
  decide (d.toNat / 2 ^ 51 % 2 ^ 5 = 0 ∧ d.toNat % 2 ^ 32 = 0 ∧ descStride d % 8 = 0 ∧ (descQsc d = 0 ∨ fmt = 0x12))

/-! ## Regions (R289, R297) -/

/-- The places of a row of n bytes, in banks of the team t: the first address that breaches, else its runs. -/
def State.regionRow (s : State) (tk t : Nat) (cs : List (Nat × Nat)) : Except Nat (List (Loc × Nat)) :=
  match cs with
  | [] => .ok []
  | c :: r =>
    match s.checkWindow tk .load true c.1 c.2 c.2 with
    | .ok (.spad u b o) n =>
      if u = t then
        match State.regionRow s tk t r with
        | .ok rs => .ok ((.spad u b o, n) :: rs)
        | .error a => .error a
      else .error c.1
    | _ => .error c.1

/-- The rows of a region from row r on: each row's address with its runs. -/
def State.regionRows (s : State) (tk t base stride rb : Nat) (rows r : Nat) : Except Nat (List (Nat × List (Loc × Nat))) :=
  match rows with
  | 0 => .ok []
  | k + 1 =>
    let va := base + r * stride
    match s.regionRow tk t (cutPages (rb / 4096 + 2) va rb) with
    | .error a => .error a
    | .ok rs =>
      match State.regionRows s tk t base stride rb k (r + 1) with
      | .error a => .error a
      | .ok x => .ok ((va, rs) :: x)

/-- The lowest address of a region that lies outside the window, if one does: below it, or past its end (R199, R289). -/
def outside (base stride rb rows : Nat) : Option Nat :=
  if base < windowBase then some base
  else (List.range rows).findSome? (fun r =>
    let va := base + r * stride
    if 2 ^ 64 < va + rb then some (Nat.max va (2 ^ 64)) else none)

/-- The region checks (R289): the window, the base's alignment, then banks of one team, none in FIFO mode; a breach
answers its code and lowest address (DEDUCED log 33). -/
def State.region (s : State) (tk base stride rb rows : Nat) : Except (Nat × Nat) (List (Nat × List (Loc × Nat))) :=
  match outside base stride rb rows with
  | some a => .error (4, a)
  | none =>
    if base % 8 ≠ 0 then .error (6, base)
    else
      match s.windowTeam tk ((base - windowBase) / 2 ^ 19) with
      | none => .error (5, base)
      | some t =>
        match s.regionRows tk t base stride rb rows 0 with
        | .error a => .error (5, a)
        | .ok x => .ok x

/-- The runs of a region, row after row. -/
def regionRuns (rs : List (Nat × List (Loc × Nat))) : List (Loc × Nat) := rs.flatMap (·.2)

/-- The first row that a DET grid's tags forbid, with the code (R140). -/
def State.regionDet (s : State) (tk : Nat) (store : Bool) (rs : List (Nat × List (Loc × Nat))) : Option (Nat × Nat) :=
  rs.findSome? (fun r => (linePieces r.2).findSome? (fun p =>
    let c := s.detCode (s.whoOf tk) store false p.1
    if c = 0 then none else some (c, r.1)))

/-- The sequencer's buffered stores that overlap a region join the order (R267, R299). -/
def State.drainRegion (s : State) (tk : Nat) (runs : List (Loc × Nat)) : State :=
  s.drainIf tk (fun b => runs.any (fun r => overlaps b.loc 1 r.1 r.2))

/-- Whether a buffered store overlaps a region. -/
def State.buffers (s : State) (tk : Nat) (runs : List (Loc × Nat)) : Bool :=
  (s.team tk).seq.sbuf.any (fun b => runs.any (fun r => overlaps b.loc 1 r.1 r.2))

/-! ## Forces (R270, R271) -/

/-- The pieces of a target, each with its place among the target's bytes. -/
def targetPieces (o : Nat) (ps : List (Loc × Nat)) : List (Nat × Loc × Nat) :=
  match ps with
  | [] => []
  | p :: r => (o, p) :: targetPieces (o + p.2) r

/-- A force as the sequencer issues it now. -/
def State.newForce (s : State) (tk root : Nat) (kind : ForceKind) (target : List (Loc × Nat)) : Force :=
  let t := s.team tk
  { root := root, kind := kind, faddr := low56 t.seq.pc,
    snap := { named := [], ext := [], reach := [], roots := [], held := t.heldMask },
    suspended := false, inTrap := t.seq.trap, target := target, num := s.nextPush, serial := 0,
    pts := (s.coreAt t.core).pts, space := 0, fin := false, left := targetPieces 0 (linePieces target) }

/-- Whether a seventeenth force would have to wait. -/
def State.forcesFull (s : State) (tk : Nat) : Bool := decide (16 ≤ (s.mf tk).forces.length)

/-- Issues a force. -/
def State.issueForce (s : State) (tk root : Nat) (kind : ForceKind) (target : List (Loc × Nat)) : State :=
  s.setMf tk ((s.mf tk).addForce (s.newForce tk root kind target))

/-! ## Depth and budget (R266) -/

/-- Whether there is room for a node: yes, a wait (perhaps for a force just issued), or none at all. -/
inductive Room where
  | free
  | wait (s : State)
  | full
  deriving DecidableEq, Repr

/-- Forces a node for an insertion, unless a force of it is queued, a suspended one aside, or the queue is full. -/
def State.forceFor (s : State) (tk k : Nat) : State :=
  if (s.mf tk).forces.any (fun f => decide (f.root = k) && !f.suspended) || s.forcesFull tk then s
  else s.issueForce tk k .insertion []

/-- R266 for a node with these operands (DEDUCED log 59). -/
def State.room (s : State) (tk : Nat) (opnds : List Nat) : Room :=
  let m := s.mf tk
  match least (opnds.filter (fun k => decide (16 ≤ m.depth 17 k))) with
  | some k => .wait (s.forceFor tk k)
  | none =>
    if (s.gridOf tk).launch.graph < m.counted.length + 1 then
      if m.forces.any (fun f => !f.suspended) then .wait s
      else
        match least m.rootsOf with
        | some k => .wait (s.forceFor tk k)
        | none => .full
    else .free

/-! ## Insertion (R261, R265, R287) -/

/-- Inserts a node and makes td name it. -/
def State.addNode (s : State) (tk d : Nat) (x : NewNode) (region : List (Loc × Nat)) (val : List Nat) : State :=
  let m := s.mf tk
  let n : Node :=
    { op := x.op, opnds := x.opnds, refs := x.opnds, scal := x.scal, fmt := x.fmt, contract := x.contract, rows := x.rows,
      cols := x.cols, kdim := x.kdim, vfmt := x.vfmt, vkind := x.vkind, creator := low56 (s.team tk).seq.pc, ncre := 1,
      st := if x.op = opLeaf then .captured else .built, fcode := 0, flags := 0, val := val, gran := 0, ngran := 0,
      region := region, capNum := s.nextPush, unnamed := 0 }
  s.setMf tk ({ m with nodes := m.nodes ++ [(m.create, n)], create := m.create + 1 }.setName d (some m.create))

/-- Steps 5 to 7 of R287: an identical node is shared; otherwise room is made, and `act` inserts. -/
def insertNode (s : State) (tk d : Nat) (x : NewNode) (act : State → Out) : Out :=
  let m := s.mf tk
  match m.identical x with
  | some k => .next ((s.setMf tk ((m.modNode k (Node.share m.serial)).setName d (some k))).seqDone tk id)
  | none =>
    match s.room tk x.opnds with
    | .wait s => .next (s.seqStay tk)
    | .full => tileTrapAt s tk 2
    | .free => act s

/-- Inserts an interior or constant node. -/
def insertPlain (s : State) (tk d : Nat) (x : NewNode) : Out :=
  insertNode s tk d x (fun s => .next ((s.addNode tk d x [] []).seqDone tk id))

/-! ## Products (R291, R292) -/

/-- A product of ta and tb, with an addend in tc where there is one. -/
def productOp (s : State) (op : Nat) (c : BitVec 2) (m : BitVec 5) (add : Option (BitVec 4)) (b a d : BitVec 4) : Out :=
  onTile s (fun tk q s =>
    let f := m.toNat
    withOperand s tk (tileA q a) (fun ka na =>
      withOperand s tk (tileB q b) (fun kb nb =>
        let x : NewNode :=
          { op := op, opnds := [ka, kb], fmt := f, contract := c.toNat, rows := na.rows, cols := nb.cols, kdim := na.cols,
            vfmt := if op = opTbp then f else (accOf f).1, vkind := if op = opTbp then 2 else (accOf f).2 }
        if !(na.plain f && nb.plain f && decide (na.cols = nb.rows ∧ na.rows ≤ 64 ∧ nb.cols ≤ 64)) then tileTrapAt s tk 5
        else if op = opTbp ∧ na.cols % 32 ≠ 0 then tileTrapAt s tk 5
        else
          match add with
          | none => insertPlain s tk (tileD q d) x
          | some z =>
            withOperand s tk (tileC q z) (fun kz nz =>
              if nz.vfmt = x.vfmt ∧ nz.vkind = x.vkind ∧ nz.rows = x.rows ∧ nz.cols = x.cols then
                insertPlain s tk (tileD q d) { x with opnds := [ka, kb, kz] }
              else tileTrapAt s tk 5))))

/-- TMUL (R291). -/
def execTmul (c : BitVec 2) (m : BitVec 5) (b a d : BitVec 4) (s : State) : Out := productOp s opTmul c m none b a d
/-- TMAC (R291). -/
def execTmac (c : BitVec 2) (m : BitVec 5) (x b a d : BitVec 4) (s : State) : Out := productOp s opTmac c m (some x) b a d
/-- TCMUL without addend (R291). -/
def execTcmul (c : BitVec 2) (m : BitVec 5) (b a d : BitVec 4) (s : State) : Out := productOp s opTcmul c m none b a d
/-- TCMUL with addend (R291). -/
def execTcmulAddend (c : BitVec 2) (m : BitVec 5) (x b a d : BitVec 4) (s : State) : Out :=
  productOp s opTcmulAdd c m (some x) b a d
/-- TBP (R292). -/
def execTbp (c : BitVec 2) (m : BitVec 5) (b a d : BitVec 4) (s : State) : Out := productOp s opTbp c m none b a d

/-- Shapes of TSCA's scales for partials of a shape (R293). -/
def scalesOk (f : Nat) (p sa sb : Node) : Bool :=
  let kb := p.kdim / 32 + if f = 0x12 then 4 else 0
  sa.plain 0x0D && sb.plain 0x0D && decide (sa.rows = p.rows ∧ sa.cols = kb ∧ sb.rows = kb ∧ sb.cols = p.cols)

/-- TSCA: the node that td names, where it names one, is the addend, a fourth operand that also stands among the scalar
values (R293). -/
def execTsca (c : BitVec 2) (m : BitVec 5) (x b a d : BitVec 4) (s : State) : Out :=
  onTile s (fun tk q s =>
    let f := m.toNat
    withOperand s tk (tileA q a) (fun kp np =>
      withOperand s tk (tileB q b) (fun ka na =>
        withOperand s tk (tileC q x) (fun kb nb =>
          let add := (s.mf tk).operand (tileD q d)
          let addOk := match add with
            | some z => z.2.plain 0x01 && decide (z.2.rows = np.rows ∧ z.2.cols = np.cols)
            | none => true
          if decide (np.vkind = 2 ∧ np.vfmt = f) && scalesOk f np na nb && addOk then
            insertPlain s tk (tileD q d)
              { op := opTsca, opnds := [kp, ka, kb] ++ (match add with
                  | some z => [z.1]
                  | none => []),
                scal := match add with
                  | some z => [BitVec.ofNat 64 z.1]
                  | none => []
                fmt := f, contract := c.toNat, rows := np.rows, cols := np.cols, vfmt := 0x01 }
          else tileTrapAt s tk 5))))

/-! ## Element-wise, transpose, conversion (R294 to R296) -/

/-- TADD, TSUB and THAD. -/
def elementOp (s : State) (op : Nat) (c : BitVec 2) (m : BitVec 5) (b a d : BitVec 4) : Out :=
  onTile s (fun tk q s =>
    let f := m.toNat
    withOperand s tk (tileA q a) (fun ka na =>
      withOperand s tk (tileB q b) (fun kb nb =>
        if na.plain f && nb.plain f && decide (na.rows = nb.rows ∧ na.cols = nb.cols) then
          insertPlain s tk (tileD q d)
            { op := op, opnds := [ka, kb], fmt := f, contract := c.toNat, rows := na.rows, cols := na.cols, vfmt := f }
        else tileTrapAt s tk 5)))

/-- TADD (R294). -/
def execTadd (c : BitVec 2) (m : BitVec 5) (b a d : BitVec 4) (s : State) : Out := elementOp s opTadd c m b a d
/-- TSUB (R294). -/
def execTsub (c : BitVec 2) (m : BitVec 5) (b a d : BitVec 4) (s : State) : Out := elementOp s opTsub c m b a d
/-- THAD (R294). -/
def execThad (c : BitVec 2) (m : BitVec 5) (b a d : BitVec 4) (s : State) : Out := elementOp s opThad c m b a d

/-- TTR (R295). -/
def execTtr (c : BitVec 2) (m : BitVec 5) (a d : BitVec 4) (s : State) : Out :=
  onTile s (fun tk q s =>
    withOperand s tk (tileA q a) (fun ka na =>
      if na.vfmt = m.toNat then
        insertPlain s tk (tileD q d)
          { op := opTtr, opnds := [ka], fmt := m.toNat, contract := c.toNat, rows := na.cols, cols := na.rows,
            kdim := if na.vkind = 2 then na.kdim else 0, vfmt := na.vfmt, vkind := na.vkind }
      else tileTrapAt s tk 5))

/-- TCVT (R296). -/
def execTcvt (m : BitVec 5) (a d : BitVec 4) (s : State) : Out :=
  onTile s (fun tk q s =>
    withOperand s tk (tileA q a) (fun ka na =>
      if na.vkind ≠ 2 ∧ isComplex na.vfmt = isComplex m.toNat then
        insertPlain s tk (tileD q d) { op := opTcvt, opnds := [ka], fmt := m.toNat, rows := na.rows, cols := na.cols, vfmt := m.toNat }
      else tileTrapAt s tk 5))

/-! ## Constants and leaves (R289, R290) -/

/-- TZERO: S1 and Q16 hold no zero (R286, R290). -/
def execTzero (m : BitVec 5) (b d : BitVec 4) (s : State) : Out :=
  onTile s (fun tk q s =>
    let w := q.reg b.toNat
    if shapeOk m.toNat true w.toNat && decide (m.toNat ≠ 0x11 ∧ m.toNat ≠ 0x12) then
      insertPlain s tk (tileD q d)
        { op := opTzero, scal := [w], fmt := m.toNat, rows := shapeRows w.toNat, cols := shapeCols w.toNat, vfmt := m.toNat }
    else tileTrapAt s tk 5)

/-- TFILL (R290). -/
def execTfill (m : BitVec 5) (b a d : BitVec 4) (s : State) : Out :=
  onTile s (fun tk q s =>
    let w := q.reg b.toNat
    let v := q.reg a.toNat &&& BitVec.ofNat 64 (fillMask m.toNat)
    if shapeOk m.toNat true w.toNat then
      insertPlain s tk (tileD q d)
        { op := opTfill, scal := [v, w], fmt := m.toNat, rows := shapeRows w.toNat, cols := shapeCols w.toNat, vfmt := m.toNat }
    else tileTrapAt s tk 5)

/-- TLD's last step (R267): overlapping buffered stores join, claimed lines are waited for, the tags of a DET grid
checked, and the region read as one load. -/
def loadLeaf (s : State) (tk d : Nat) (x : NewNode) (rs : List (Nat × List (Loc × Nat))) : Out :=
  let runs := regionRuns rs
  let s := s.drainRegion tk runs
  if s.buffers tk runs || s.mustWait (keyGrid tk) false runs || (linePieces runs).any (fun p => s.standsBehind (keyGrid tk) false p.1) then
    .next (s.seqStay tk)
  else
    match s.regionDet tk false rs with
    | some (c, a) => seqTrap s tk 5 c (BitVec.ofNat 64 a)
    | none =>
      let y := s.loadRuns (s.whoOf tk) (linePieces runs)
      .next ((y.2.addNode tk d x runs (regionTile x.fmt x.rows x.cols y.1.1).val).seqDone tk id)

/-- TLD (R289). -/
def execTld (m : BitVec 5) (b a d : BitVec 4) (s : State) : Out :=
  onTile s (fun tk q s =>
    let w := q.reg b.toNat
    let base := q.reg a.toNat
    let rb := rowBytes m.toNat (shapeCols w.toNat) false
    if !shapeOk m.toNat false w.toNat then tileTrapAt s tk 5
    else
      match s.region tk base.toNat (strideOf (shapeStride w.toNat) rb) rb (shapeRows w.toNat) with
      | .error e => seqTrap s tk 4 e.1 (BitVec.ofNat 64 e.2)
      | .ok rs =>
        let x : NewNode :=
          { op := opLeaf, scal := [base, w], fmt := m.toNat, rows := shapeRows w.toNat, cols := shapeCols w.toNat, vfmt := m.toNat }
        insertNode s tk (tileD q d) x (fun s => loadLeaf s tk (tileD q d) x rs))

/-! ## TST (R297 to R299) -/

/-- TST's action: buffered stores join, the tags are set, the lines claimed, the force issued. -/
def issueTst (s : State) (tk root fmt : Nat) (base desc : Word) (rs : List (Nat × List (Loc × Nat))) : Out :=
  let runs := regionRuns rs
  if s.forcesFull tk then .next (s.seqStay tk)
  else
    match s.regionDet tk true rs with
    | some (c, a) => seqTrap s tk 5 c (BitVec.ofNat 64 a)
    | none =>
      let s := s.drainRegion tk runs
      if s.buffers tk runs || (linePieces runs).any (fun p => s.detBefore s.parked.length (keyGrid tk) true p.1) then .next (s.seqStay tk)
      else
        let w := s.whoOf tk
        let s := (linePieces runs).foldl (fun s p => s.setTag w true p.1) s
        let s := s.issueForce tk root (.tst fmt base desc) runs
        .next ({ s with nextPush := s.nextPush + 1 }.seqDone tk id)

/-- TST (R297). Where td names no node only the base of its region can be checked (DEDUCED log 33). -/
def execTst (m : BitVec 5) (b a d : BitVec 4) (s : State) : Out :=
  onTile s (fun tk q s =>
    let f := m.toNat
    let desc := q.reg b.toNat
    let base := q.reg a.toNat
    if !descOk f desc then tileTrapAt s tk 5
    else
      match (s.mf tk).operand (tileD q d) with
      | none =>
        (match s.region tk base.toNat 8 1 1 with
          | .error e => seqTrap s tk 4 e.1 (BitVec.ofNat 64 e.2)
          | .ok _ => tileTrapAt s tk 5)
      | some (k, n) =>
        let rb := rowBytes f n.cols (tstPacked f desc)
        if !strideOk (descStride desc) rb then tileTrapAt s tk 5
        else
          match s.region tk base.toNat (strideOf (descStride desc) rb) rb n.rows with
          | .error e => seqTrap s tk 4 e.1 (BitVec.ofNat 64 e.2)
          | .ok rs =>
            if n.vkind = 2 ∨ isComplex n.vfmt ≠ isComplex f then tileTrapAt s tk 5
            else issueTst s tk k f base desc rs)

/-! ## Forcing, dropping and inspecting (R300, R301) -/

/-- TFORCE: nothing for a register that names no node; a materialized node completes at once. -/
def execTforce (a : BitVec 4) (s : State) : Out :=
  onTile s (fun tk q s =>
    match (s.mf tk).operand (tileA q a) with
    | none => .next (s.seqDone tk id)
    | some (k, n) =>
      if n.holds then .next (s.seqDone tk id)
      else if s.forcesFull tk then .next (s.seqStay tk)
      else .next ((s.issueForce tk k .tforce []).seqDone tk id))

/-- TDROP. -/
def execTdrop (d : BitVec 4) (s : State) : Out :=
  onTile s (fun tk q s => .next ((s.setMf tk ((s.mf tk).setName (tileD q d) none)).seqDone tk id))

/-- The code of a node's state (R283). -/
def NodeState.code (x : NodeState) : Nat :=
  match x with
  | .built => 1
  | .shared => 2
  | .captured => 3
  | .evaluating => 4
  | .materialized => 5
  | .faulted => 6

/-- The value that TSTAT reads for a node (R301). -/
def Manifest.status (m : Manifest) (k : Nat) (n : Node) : Nat :=
  n.st.code + n.vfmt % 32 * 2 ^ 4 + (if n.vkind = 1 then 2 ^ 9 else 0) + n.contract % 2 * 2 ^ 10 + m.depth 17 k % 32 * 2 ^ 11 +
    n.flags.toNat % 64 * 2 ^ 16 + n.fcode % 256 * 2 ^ 24 + n.rows % 512 * 2 ^ 32 + n.cols % 512 * 2 ^ 41 + n.kdim % 512 * 2 ^ 50

/-- TSTAT: earlier forces complete first; a register that names no node gives 0 (DEDUCED log 61). -/
def execTstat (a d : BitVec 4) (s : State) : Out :=
  onTile s (fun tk q s =>
    let m := s.mf tk
    if !m.forces.isEmpty then .next (s.seqStay tk)
    else
      let v := match m.operand (tileD q d) with
        | some (k, n) => m.status k n
        | none => 0
      .next (s.seqDone tk (fun q => q.setReg a.toNat (BitVec.ofNat 64 v))))

/-! ## Accumulator banks (R258, R259, R279) -/

/-- Physical accumulator banks of a core that no team there holds. -/
def State.freeAcc (s : State) (core : Nat) : List Nat :=
  let used := s.teams.flatMap (fun e => if e.2.core = core ∧ e.2.placed = true then e.2.acc.map (·.2) else [])
  (List.range 16).filter (fun p => !used.contains (p + 1))

/-- Gives physical banks to a team under the lowest team bank numbers not held; answers the mask of those. -/
def Team.takeBanks (t : Team) (ps : List Nat) : Nat × Team :=
  match ps with
  | [] => (0, t)
  | p :: r =>
    let j := ((List.range 16).find? (fun j => decide (SMap.get 0 t.acc j = 0))).getD 0
    let x := Team.takeBanks { t with acc := SMap.set 0 t.acc j (p + 1) } r
    (2 ^ j + x.1, x.2)

/-- Serves the earliest waiting ACQ of a core, if enough banks are free (R259), whatever the state of its context (DESIGN CHOICE
log 92). -/
def State.grantAcq (s : State) (core : Nat) : State :=
  let c := s.coreAt core
  match c.acq with
  | [] => s
  | (tk, n, r) :: rest =>
    let ps := s.freeAcc core
    if n ≤ ps.length then
      let x := (s.team tk).takeBanks (ps.take n)
      let s := (s.setCore core { c with acq := rest }).setTeam tk { x.2 with seq := { x.2.seq with wait := none } }
      s.seqDone tk (fun q => q.setReg r (BitVec.ofNat 64 x.1))
    else s

/-- Banks that a team holds. -/
def Team.held (t : Team) : Nat := (t.acc.filter (fun e => decide (e.2 ≠ 0))).length

/-- ACQ (R259): a request that can never be met traps; else it waits its turn. -/
def execAcq (n a : BitVec 4) (s : State) : Out :=
  onSeq s (fun tk q s =>
    let want := n.toNat + 1
    if 16 < (s.team tk).held + want then seqTrap s tk 0x0D 1 0
    else
      let core := s.coreOf tk
      let c := s.coreAt core
      let s := (s.setCore core { c with acq := c.acq ++ [(tk, want, a.toNat)] }).setSeq tk { q with wait := some .acq }
      .next (if c.acq.isEmpty then s.grantAcq core else s))

/-- ACQ_GRANT (R259): the operand names the core. -/
def execAcqGrant (s : State) : Out :=
  match s.turn with
  | .event _ (.nat core) => .next (s.grantAcq core)
  | _ => .next s

/-- Whether a node's value has a granule in a bank of a mask. -/
def Node.inBanks (n : Node) (mask : Nat) : Bool := (List.range n.ngran).any (fun i => mask.testBit ((n.gran + i) / 16))

/-- What a suspended force still holds once banks of a mask are released: values with their space, and those of nodes that stay
materialized. The others are computed again (R279). -/
def Force.release (f : Force) (m : Manifest) (mask : Nat) : Force :=
  { f with work := f.work.map (fun w =>
      let temps := w.temps.filter (fun t => !((List.range t.2.2).any (fun i => mask.testBit ((t.2.1 + i) / 16))))
      { w with
        temps := temps
        vals := w.vals.filter (fun x => temps.any (fun t => decide (t.1 = x.1)) ||
          (match w.copy.get x.1 with
            | some n => (m.ready n).isSome
            | none => false)) }) }

/-- Releases the held banks of a mask: values there are lost (R259, R279). -/
def Team.release (t : Team) (mask : Nat) : Team :=
  let held := mask &&& t.heldMask.toNat
  let acc := (List.range 16).foldl (fun a j => if held.testBit j then SMap.set 0 a j 0 else a) t.acc
  let nodes := t.mf.nodes.map (fun e =>
    if e.2.holds && e.2.inBanks held then (e.1, { e.2 with st := .faulted, fcode := 3, val := [], gran := 0, ngran := 0 }) else e)
  let m := { t.mf with nodes := nodes }
  { t with acc := acc, mf := { m with forces := m.forces.map (fun (f : Force) => f.release m held) } }

/-- REL: every earlier force has completed or is suspended first (R259, R279). -/
def execRel (a : BitVec 4) (s : State) : Out :=
  onSeq s (fun tk q s =>
    if (s.mf tk).forces.any (fun f => !f.suspended) then .next (s.seqStay tk)
    else .next ((s.setTeam tk ((s.team tk).release ((q.reg a.toNat).toNat % 2 ^ 16))).seqDone tk id))

end Sys2Proof.Machine
end

