-- ==== Sys2Proof/Machine/Place.lean ====
section
/-! DEFINITION. Choosing and placing teams: issue slots (R158, R165), rectangles (R137), the order of choice (R118,
R142, R144), the start of a grid with its direction-table snapshot (R102, R338, R339), and TEAM_PLACEMENT. -/

namespace Sys2Proof.Machine

/-! ## Issue slots (R158, R165) -/

/-- Positions of a slot that a group holds: slot index in the core (partition * 16 + slot), first position, number
of positions, context, cap, and whether it is half of a paired slot. -/
structure SlotUse where
  idx : Nat
  pos : Nat
  n : Nat
  asid : Nat
  cap : Nat
  pair : Bool
  deriving DecidableEq, Repr

/-- What a group of a width holds at a place. -/
def groupUses (asid cap width : Nat) (p : Nat × Nat) : List SlotUse :=
  if width = 64 then [⟨p.1, 0, 32, asid, cap, true⟩, ⟨p.1 + 4, 0, 32, asid, cap, true⟩] else [⟨p.1, p.2, width, asid, cap, false⟩]

/-- Everything held in the slots of a core. -/
def State.slotUses (s : State) (core : Nat) : List SlotUse :=
  s.teams.flatMap (fun e =>
    if e.2.core = core then
      let g := s.gridOf e.1
      e.2.slots.flatMap (groupUses g.asid g.launch.cap g.launch.width)
    else [])

/-- Registers per lane that the filled slots of a partition take: a partition holds 512 (R165). -/
def regsUsed (us : List SlotUse) (part : Nat) : Nat :=
  ((us.filter (fun u => decide (u.idx / 16 = part))).map (fun u => (u.idx, u.cap))).eraseDups.foldl (fun n x => n + x.2) 0

/-- Whether a group of a width fits at a place (DEDUCED log 50). -/
def slotFits (us : List SlotUse) (asid cap width : Nat) (p : Nat × Nat) : Bool :=
  let here := us.filter (fun u => decide (u.idx = p.1))
  let room (k : Nat) : Bool := decide (regsUsed us (p.1 / 16) + k * cap ≤ 512)
  if width = 64 then decide (p.1 % 8 < 4) && here.isEmpty && !us.any (fun u => decide (u.idx = p.1 + 4)) && room 2
  else if here.isEmpty then room 1
  else here.all (fun u => !u.pair && decide (u.asid = asid ∧ u.cap = cap ∧ (u.pos + u.n ≤ p.2 ∨ p.2 + width ≤ u.pos)))

/-- Places in a core for a group of a width, in ascending order. -/
def slotPlaces (width : Nat) : List (Nat × Nat) :=
  (List.range 64).flatMap (fun i => (List.range (if width = 64 then 1 else 32 / width)).map (fun k => (i, k * width)))

/-- Packs n groups in ascending number into the lowest free places (R158). -/
def packGroups (us : List SlotUse) (asid cap width n : Nat) : Option (List (Nat × Nat)) :=
  match n with
  | 0 => some []
  | k + 1 =>
    match (slotPlaces width).find? (slotFits us asid cap width) with
    | none => none
    | some p => (packGroups (us ++ groupUses asid cap width p) asid cap width k).map (fun r => p :: r)

/-! ## Rectangles (R137) -/

/-- Whether a rectangle of cx by cy cores from a first core lies on one die. -/
def rectOk (cx cy first : Nat) : Bool :=
  decide (first < 640 ∧ first % 16 + cx ≤ 16 ∧ first % 160 / 16 + cy ≤ 10)

/-- The core of rank r in the rectangle. -/
def rectCore (cx first r : Nat) : Nat := first + r / cx * 16 + r % cx

/-- The cores that a placed cluster holds. -/
def Grid.rectCores (g : Grid) (first : Nat) : List Nat := (List.range g.q).map (rectCore g.launch.cx first)

/-- Team places and scratchpad banks held on a core by placed clusters. -/
def State.placesOn (s : State) (core : Nat) : Nat × Nat :=
  s.grids.foldl (fun n e =>
    let k := (e.2.placed.filter (fun p => (e.2.rectCores p.2).contains core)).length
    (n.1 + k, n.2 + k * e.2.launch.sbanks)) (0, 0)

/-- The values of the record that hold for a grid (R102): those of its start once it has started. -/
def State.recOf (s : State) (g : Grid) : CtxRecord := if g.started then g.rcd else (s.ctx g.asid).rcd

/-- A launch's register cap (R112): where it gives none, the record's REGCAP. -/
def State.gridCap (s : State) (g : Grid) : Nat :=
  let c := if g.launch.cap = 0 then (s.recOf g).regcap else g.launch.cap
  if c = 0 then 64 else c

/-- The places of a team's groups on a core, where it has room for the team: none for a team that has retired. -/
def State.teamSlots (s : State) (g : Grid) (core tk : Nat) : Option (List (Nat × Nat)) :=
  if (s.team tk).st = .retired then some []
  else packGroups (s.slotUses core) g.asid (s.gridCap g) g.launch.width (g.launch.lanes / g.launch.width)

/-- Whether a cluster of a grid fits the rectangle from a first core: places, scratchpad banks, issue slots, and
accumulator banks for those its teams hold. -/
def State.clusterFits (s : State) (k c first : Nat) : Bool :=
  let g := s.grid k
  rectOk g.launch.cx g.launch.cy first &&
    (List.range g.q).all (fun r =>
      let core := rectCore g.launch.cx first r
      let n := s.placesOn core
      let tk := teamKey k (c * g.q + r)
      decide (n.1 < 8 ∧ n.2 + g.launch.sbanks ≤ 16) &&
        (decide (g.clusterSize c ≤ r) ||
          ((s.teamSlots g core tk).isSome && decide ((s.team tk).held ≤ (s.freeAcc core).length))))

/-- Whether some rectangle takes a cluster. -/
def State.fitsAnywhere (s : State) (k c : Nat) : Bool := (List.range 640).any (s.clusterFits k c)

/-! ## The order of choice (R118) -/

/-- A dispatchable cluster. -/
structure Cand where
  grid : Nat
  cluster : Nat
  cls : Nat
  prio : Nat
  deriving DecidableEq, Repr

/-- Keys of a cluster's teams. -/
def Grid.clusterTeams (g : Grid) (k c : Nat) : List Nat := (List.range (g.clusterSize c)).map (fun r => teamKey k (c * g.q + r))

/-- The swapped-out clusters of a grid, in the order of their swap-out (R144): none that a stop holds (R132). -/
def State.swappedClusters (s : State) (k : Nat) : List Nat :=
  let g := s.grid k
  let cs := ((s.teamsOf k).filter (fun tk => decide ((s.team tk).st = .swapped))).map (fun tk => g.clusterOf (keyIx tk)) |>.eraseDups
  let ok := cs.filter (fun c =>
    !(g.placed.any (fun p => decide (p.1 = c))) && (g.clusterTeams k c).all (fun tk => !(s.team tk).stopped))
  let last (c : Nat) : Nat := ((g.clusterTeams k c).map (fun tk => (s.team tk).swapNo)).foldl Nat.max 0
  let ins (l : List Nat) (c : Nat) : List Nat := l.filter (fun d => decide (last d ≤ last c)) ++ c :: l.filter (fun d => decide (last c < last d))
  ok.foldl ins []

/-- The clusters of a grid that may be placed, in order (R98, R104, R139, R144). -/
def State.gridClusters (s : State) (k : Nat) : List Nat :=
  let g := s.grid k
  if g.active = false ∨ g.endWith ≠ none ∨ g.interval.st = .rolling then []
  else
    -- a DET grid that moved here waits for the source's teams (R104)
    let fresh := if g.nextIx < g.size ∧ g.moved = false ∧ ¬((s.recOf g).det = true ∧ g.source ≠ 0) then [g.clusterOf g.nextIx] else []
    match (s.ctx g.asid).st with
    | .ready => s.swappedClusters k ++ fresh
    | .running => s.swappedClusters k ++ fresh
    | .swapped => s.swappedClusters k ++ fresh
    | .migrating => s.swappedClusters k
    | _ => []

/-- Every dispatchable cluster, by order of acceptance. -/
def State.dispatchable (s : State) : List Cand :=
  s.dsp.order.flatMap (fun k =>
    let r := s.recOf (s.grid k)
    (s.gridClusters k).map (fun c => ⟨k, c, r.mclass, r.prio⟩))

/-- Resident teams of a class. -/
def State.residents (s : State) (cls : Nat) : Nat :=
  (s.teams.filter (fun e => !e.2.slots.isEmpty && decide (e.2.st ≠ .retired) && decide ((s.gridOf e.1).rcd.mclass = cls))).length

/-- The rank of a cluster: classes below FLOOR first, then the class's priority, then the rotation, then the
context's priority (DEDUCED log 62). -/
def State.candKey (s : State) (all : List Cand) (x : Cand) : Nat :=
  let p := SMap.get {} s.dsp.policy x.cls
  let above := if s.residents x.cls < p.floor then 0 else 1
  let cp := ((all.filter (fun y => decide (y.cls = x.cls))).map (·.prio)).foldl Nat.max 0
  ((above * 8 + (7 - cp)) * 32 + (x.cls + 31 - s.dsp.lastServed) % 32) * 8 + (7 - x.prio)

/-- Inserts by key, after equals. -/
def insertCand (key : Cand → Nat) (x : Cand) (l : List Cand) : List Cand :=
  match l with
  | [] => [x]
  | y :: r => if key y ≤ key x then y :: insertCand key x r else x :: y :: r

/-- Teams of a cluster that a placement makes resident. -/
def State.clusterTake (s : State) (x : Cand) : Nat :=
  (((s.grid x.grid).clusterTeams x.grid x.cluster).filter (fun tk => decide ((s.team tk).st ≠ .retired))).length

/-- The clusters that the dispatcher considers, in its order (R118): those that do not bring their class above CAP
(DEDUCED log 62), and none that stands behind the cluster that took its places (R142, DEDUCED log 24). -/
def State.candidates (s : State) : List Cand :=
  let all := s.dispatchable
  let open_ := all.filter (fun x =>
    decide (s.residents x.cls + s.clusterTake x ≤ (SMap.get {} s.dsp.policy x.cls).cap) &&
      !((s.grid x.grid).behind.any (fun b => decide (b.1 = x.cluster) &&
        all.any (fun y => decide (y.grid = b.2.1 ∧ y.cluster = b.2.2)))))
  open_.foldl (fun l x => insertCand (s.candKey open_) x l) []

/-- The quantum of a grid, in microseconds (R105, R142). -/
def State.quantumOf (s : State) (k : Nat) : Nat :=
  let n := (s.recOf (s.grid k)).quantum
  if n = 0 then 2000 else n

/-- Whether a cluster has been passed over for a quantum of its grid: a tick is 2 microseconds (R118, R345). -/
def State.overdue (s : State) (x : Cand) : Bool :=
  (s.grid x.grid).passed.any (fun p => decide (p.1 = x.cluster ∧ s.quantumOf x.grid ≤ 2 * (s.fab.tick - p.2)))

/-- The cluster that goes to a rectangle, with those passed over for it: the first that fits it, where none before it
fits any rectangle or is overdue (R118). -/
def State.choose (s : State) (first : Nat) (cs passed : List Cand) : Option (Cand × List Cand) :=
  match cs with
  | [] => none
  | c :: r =>
    if s.clusterFits c.grid c.cluster first then some (c, passed)
    else if s.fitsAnywhere c.grid c.cluster || s.overdue c then none
    else State.choose s first r (passed ++ [c])

/-! ## Starting a grid (R102, R338, R339, R371) -/

/-- Reads the direction-table snapshot of a grid: it fails where a read does or a seed record holds a reserved bit, and
waits as any access of the dispatcher (R235, R339). -/
def State.readTable (s : State) (asid : Nat) (r : CtxRecord) : Disp (List Word) × State :=
  if r.qrdims = 0 then (.ok [], s)
  else
    match s.dispLoad (some asid) r.qrtab (128 * r.qrdims) with
    | (.fail, s) => (.fail, s)
    | (.wait p, s) => (.wait p, s)
    | (.ok ds, s) =>
      match s.dispLoad (some asid) (r.qrtab + 0x20000) (8 * r.qrdims) with
      | (.fail, s) => (.fail, s)
      | (.wait p, s) => (.wait p, s)
      | (.ok ss, s) =>
        let seeds := dwords r.qrdims ss
        (if seeds.all (fun x => decide (x < 2 ^ 33)) then
          .ok ((dwords (16 * r.qrdims) ds ++ seeds).map (BitVec.ofNat 64)) else .fail, s)

/-- A grid starts as its first team is chosen: the record's values, its cap, its snapshot, its first interval. A
snapshot that cannot be read ends the grid with status 0x0D; while its read waits the grid does not start. -/
def State.startGrid (s : State) (k : Nat) : State :=
  let g := s.grid k
  if g.started then s
  else
    let r := s.recOf g
    let cap := s.gridCap g
    let x := s.readTable g.asid r
    let g := { g with rcd := r, launch := { g.launch with cap := cap }, started := true }
    match x.1 with
    | .wait _ => x.2
    | .fail => x.2.setGrid k { g with endWith := some 0x0D }
    | .ok qr => x.2.setGrid k { g with qr := qr, interval := { st := .opened, first := true } }

/-! ## Placing -/

/-- Physical SRAM banks of a core that no team holds. -/
def State.freeSram (s : State) (core : Nat) : List Nat :=
  let used := s.teams.flatMap (fun e => if e.2.core = core then e.2.sram else [])
  (List.range 16).filter (fun b => !used.contains b)

/-- New physical banks for the accumulator banks that a team holds. -/
def mapBanks (acc : SMap Nat) (ps : List Nat) : SMap Nat :=
  match acc with
  | [] => []
  | e :: r => if e.2 = 0 then mapBanks r ps else (e.1, ps.headD 0 + 1) :: mapBanks r (ps.drop 1)

/-- Places one team on a core: it is dispatched, for the first time or from its image (R136, R245, R258). The core's
timestamp stands above those of the cores that it ran on before (R228). The trace record of a first dispatch gives the
sequencer address 0, as nothing is loaded yet (DESIGN CHOICE log 79). -/
def State.placeTeam (s : State) (k core tk : Nat) : State :=
  let g := s.grid k
  let t := s.team tk
  if t.st = .retired then s
  else
    match s.teamSlots g core tk with
    | none => s
    | some slots =>
      let again := decide (t.st = .swapped)
      ((s.raiseCore core s.maxPts).setTeam tk { t with
        st := .dispatched, core := core, reload := again, slots := slots,
        sram := (s.freeSram core).take g.launch.sbanks, acc := mapBanks t.acc (s.freeAcc core) }).traceEvent tk (if again then 3 else 1)

/-- Marks the clusters passed over, at their first time (R118). -/
def State.markPassed (s : State) (xs : List Cand) : State :=
  xs.foldl (fun s x =>
    let g := s.grid x.grid
    if g.passed.any (fun p => decide (p.1 = x.cluster)) then s
    else s.setGrid x.grid { g with passed := g.passed ++ [(x.cluster, s.fab.tick)] }) s

/-- Places a cluster on the rectangle from a first core. -/
def State.placeCluster (s : State) (x : Cand) (first : Nat) : State :=
  let s := s.startGrid x.grid
  let g := s.grid x.grid
  if g.endWith ≠ none ∨ g.started = false then s
  else
    let s := (List.range (g.clusterSize x.cluster)).foldl (fun s r =>
      s.placeTeam x.grid (rectCore g.launch.cx first r) (teamKey x.grid (x.cluster * g.q + r))) s
    let g := s.grid x.grid
    let s := s.setGrid x.grid { g with
      placed := (x.cluster, first) :: g.placed
      nextIx := Nat.max g.nextIx (Nat.min g.size ((x.cluster + 1) * g.q))
      passed := g.passed.filter (fun p => decide (p.1 ≠ x.cluster))
      behind := g.behind.filter (fun b => decide (b.1 ≠ x.cluster)) }
    let s := { s with dsp := { s.dsp with
      lastServed := x.cls
      rects := s.dsp.rects.filter (fun p => !decide (p.1 = x.grid ∧ p.2.1 = x.cluster)) } }
    match (s.ctx g.asid).st with
    | .ready => s.setCtxSt g.asid .running
    | .swapped => s.setCtxSt g.asid .running
    | _ => s

/-- TEAM_PLACEMENT: the next cluster by R118 goes to the rectangle at a die, column and row (DESIGN CHOICE log 10). -/
def execTeamPlacement (s : State) : Out :=
  match s.turn with
  | .event _ (.nat3 die col row) =>
    let first := die * 160 + row * 16 + col
    if decide (die < 4 ∧ col < 16 ∧ row < 10) then
      match s.choose first s.candidates [] with
      | none => .next s
      | some (x, passed) => .next ((s.markPassed passed).placeCluster x first)
    else .next s
  | _ => .next s

end Sys2Proof.Machine
end

