-- ==== Sys2Proof/Machine/LaneMem.lean ====
section
/-! DEFINITION. Lane memory instructions (R199 to R216, R219 to R222), ENTER and LEAVE (R169). -/

namespace Sys2Proof.Machine

/-! ## Checking and performing the accesses of a run (R203) -/

/-- What one lane of a run asks for: the lane, its address and size, whether it is aligned as the instruction
needs, whether host memory accepts it, whether the address is poisoned, and a fault that comes before any
address (class, code, %laddr). -/
structure LaneReq where
  lane : Nat
  va : Word
  size : Nat
  aligned : Bool := true
  hostOk : Bool := true
  az : Bool := false
  pre : Option (Nat × Nat × Word) := none
  deriving DecidableEq, Repr

/-- Checks one lane's request; one with a fault of its own, or of no bytes, makes no access. -/
def State.checkReq (s : State) (r : Run) (k : AccKind) (q : LaneReq) : Checked × State :=
  if q.pre = none ∧ q.size ≠ 0 then s.checkAccess (s.whoOf r.team) (s.coreOf r.team) k q.aligned q.hostOk false q.va.toNat q.size
  else (.ok [], s)

/-- Checks every lane's request (R203). -/
def State.checkReqs (s : State) (r : Run) (k : AccKind) (qs : List LaneReq) : List (LaneReq × Checked) × State :=
  match qs with
  | [] => ([], s)
  | q :: rest =>
    let x := s.checkReq r k q
    let y := State.checkReqs x.2 r k rest
    ((q, x.1) :: y.1, y.2)

/-- The faults of one lane's request (R204, R222). -/
def reqFaults (k : AccKind) (x : LaneReq × Checked) : List LaneFault :=
  (match x.1.pre with
    | some (c, d, a) => [⟨x.1.lane, c, d, a, [], 0⟩]
    | none => []) ++
  (match x.2 with
    | .fail f => [⟨x.1.lane, f.cls, f.code, BitVec.ofNat 64 f.addr, if f.cls = 4 then f.pages else [], k.code⟩]
    | _ => []) ++
  (if x.1.az then [⟨x.1.lane, 6, 2, x.1.va, [], 0⟩] else [])

/-- The first wait among checked requests. -/
def firstWait (xs : List (LaneReq × Checked)) : Option PageWait :=
  xs.findSome? (fun x => match x.2 with
    | .wait p => some p
    | _ => none)

/-- The FIFO ports that requests use, one entry per access: team, bank (R247). -/
def State.fifoUses (s : State) (xs : List (LaneReq × Checked)) : List (Nat × Nat × Nat) :=
  xs.filterMap (fun x => match x.2 with
    | .ok runs => s.fifoPort runs
    | _ => none)

/-- The wait for a FIFO that cannot take, or does not hold, what the run asks for (R248). -/
def State.fifoWait (s : State) (k : AccKind) (xs : List (LaneReq × Checked)) : Option Block :=
  let uses := s.fifoUses xs
  uses.findSome? (fun u =>
    let q := (SMap.get [] (s.team u.1).fifos u.2.1).length
    let n := (uses.filter (fun v => decide (v = u))).length
    if k = .store then (if q + n ≤ 4095 then none else some (.fifoRoom u.1 u.2.1 n))
    else if u.2.2 = 8 then (if n ≤ q then none else some (.fifoEntry u.1 u.2.1 n))
    else none)

/-- The 32-byte sectors that requests of lanes touch, each once (R121, R201). -/
def sectors (qs : List (Nat × Nat)) : List Nat :=
  (qs.flatMap (fun q => if q.2 = 0 then [] else (List.range ((q.1 + q.2 - 1) / 32 + 1 - q.1 / 32)).map (fun i => q.1 / 32 + i))).eraseDups

/-- The doubleword at 0x20 of a sampled record (R121): the phase count; of the timing fields the lane whose data returned
last, one of the active ones, and the replays are free; the sectors touched follow from the addresses. -/
def sampleWord (phases : BitVec 32) (lanes : List Nat) (touched free : Nat) : Nat :=
  phases.toNat + lanes.getD (free % Nat.max 1 lanes.length) 0 * 2 ^ 32 + touched % 256 * 2 ^ 40 + free / 2 ^ 8 % 256 * 2 ^ 48

/-- Sampling of memory instructions of captured teams (R121): every SAMPLE-th whose checks pass makes a record for
its lowest group. The count is the core's, over every context, and goes on through windows; only lane instructions are
counted (DESIGN CHOICE log 72). -/
def State.sample (s : State) (r : Run) (qs : List LaneReq) : State :=
  let g := s.gridOf r.team
  let t := s.team r.team
  let n := (s.ctx g.asid).rcd.sample
  if g.captured && decide (n ≠ 0) then
    let c := s.coreAt t.core
    let s := s.setCore t.core { c with sampled := c.sampled + 1 }
    if (c.sampled + 1) % n = 0 then
      let w := g.launch.width
      let grp := (r.lanes.headD 0) / w
      let lanes := (r.lanes.filter (fun l => decide (l / w = grp))).map (· % w)
      let touched := (sectors ((qs.filter (fun q => decide (q.lane / w = grp))).map (fun q => (q.va.toNat, q.size)))).length
      let s' := { s with freeCtr := s.freeCtr + 2 }
      s'.traceWrite g.asid
        (leBytes 8 (2 + g.asid * 2 ^ 16 + t.core * 2 ^ 25) ++ leBytes 8 s.fab.tick ++ leBytes 8 g.launch.seq.toNat ++
          leBytes 8 (g.coords (keyIx r.team)) ++
          leBytes 8 (sampleWord t.phases lanes touched (Config.sampleTiming s.freeCtr).toNat) ++
          leBytes 8 r.pc.toNat ++ leBytes 8 (lanes.foldl (fun m l => m + 2 ^ l) 0) ++
          leBytes 8 (Config.sampleTiming (s.freeCtr + 1)).toNat)
    else s
  else s

/-- An instruction of lanes whose checks have passed performs its accesses, or waits in a DET grid to be checked again
(R140, R203). `fin` is what happens to each lane at once. -/
def performRun (s : State) (r : Run) (qs : List LaneReq) (fin : Nat → Lane → Lane) (as : List Access) : Out :=
  match s.detHold (keyGrid r.team) as with
  | some x => .next (s.blockLanes r (.access (keyGrid r.team) x.1 x.2))
  | none =>
    let s := s.sample r qs
    let s := s.setTeam r.team ((s.team r.team).updateLanes r.lanes fin)
    .next (s.performOrPark r.team r.lanes r.pc as)

/-- Runs a memory instruction of a run: all checks, then a trap, a wait, or the accesses (R203). `fin` is what
happens to each lane at once when the checks pass; `acc` makes the accesses of a lane from its pieces. -/
def runMem (s : State) (r : Run) (k : AccKind) (qs : List LaneReq) (fin : Nat → Lane → Lane)
    (acc : LaneReq → List (Loc × Nat) → List Access) : Out :=
  let x := s.checkReqs r k qs
  let fs := x.1.flatMap (reqFaults k)
  let s := x.2
  if !fs.isEmpty then .next (laneTrap s r r.pc fs)
  else
    match firstWait x.1 with
    | some p => .next (s.holdLanes r p)
    | none =>
      match s.fifoWait k x.1 with
      | some b => .next (s.blockLanes r b)
      | none =>
        performRun s r qs fin (x.1.flatMap (fun y => match y.2 with
          | .ok (l :: ls) => acc y.1 (pieces (l :: ls))
          | _ => []))

/-! ## LD and ST (R206) -/

/-- The requests of an LM instruction: base plus the scaled offset. -/
def lmReqs (s : State) (r : Run) (o : BitVec 12) (b size : Nat) : List LaneReq :=
  r.lanes.map (fun n =>
    let x := ((s.team r.team).lane n).reg r.trap b
    { lane := n, va := x.val + o.signExtend 64 * BitVec.ofNat 64 size, size := size, az := x.poison })

/-- An access of a lane at its address, over the pieces found. -/
def laneAccess (r : Run) (q : LaneReq) (ps : List (Loc × Nat)) (op : MemOp) : Access :=
  { agent := .lane r.team q.lane, va := q.va, runs := ps, op := op }

/-- Registers first to first + k - 1. -/
def regRange (first k : Nat) : List Nat := (List.range k).map (fun i => first + i)

/-- LD of `size` bytes into registers from `first` on; the bits are zero-extended (R206). -/
def loadOp (s : State) (o : BitVec 12) (b first size : Nat) : Out :=
  onRunRegs s (b :: regRange first (Nat.max 1 (size / 8))) (fun r s =>
    runMem s r .load (lmReqs s r o b size) (fun _ l => l) (fun q runs =>
      [laneAccess r q runs (.load (absReg r.trap first) size false)]))

/-- The little-endian value of registers from `first` on, and whether any is poisoned. -/
def Lane.regsValue (l : Lane) (trap : Bool) (first k : Nat) : Nat × Bool :=
  match k with
  | 0 => (0, false)
  | j + 1 =>
    let r := Lane.regsValue l trap (first + 1) j
    let x := l.reg trap first
    (x.val.toNat + 2 ^ 64 * r.1, x.poison || r.2)

/-- ST of `size` bytes from registers from `first` on (R206). -/
def storeOp (s : State) (o : BitVec 12) (b first size : Nat) : Out :=
  onRunRegs s (b :: regRange first (Nat.max 1 (size / 8))) (fun r s =>
    let t := s.team r.team
    runMem s r .store (lmReqs s r o b size) (fun _ l => l) (fun q runs =>
      let v := (t.lane q.lane).regsValue r.trap first (Nat.max 1 (size / 8))
      [laneAccess r q runs (.store size (v.1 % 2 ^ (8 * size)) v.2)]))

/-- LD8 (R206). -/
def execLd8 (o : BitVec 12) (b d : BitVec 6) (s : State) : Out := loadOp s o b.toNat d.toNat 1
/-- LD16 (R206). -/
def execLd16 (o : BitVec 12) (b d : BitVec 6) (s : State) : Out := loadOp s o b.toNat d.toNat 2
/-- LD32 (R206). -/
def execLd32 (o : BitVec 12) (b d : BitVec 6) (s : State) : Out := loadOp s o b.toNat d.toNat 4
/-- LD64 (R206). -/
def execLd64 (o : BitVec 12) (b d : BitVec 6) (s : State) : Out := loadOp s o b.toNat d.toNat 8
/-- LDV.v128: the data field names the even register of a pair (R80). -/
def execLdv128 (o : BitVec 12) (b : BitVec 6) (d : BitVec 5) (s : State) : Out := loadOp s o b.toNat (2 * d.toNat) 16
/-- LDV.v256. -/
def execLdv256 (o : BitVec 12) (b : BitVec 6) (d : BitVec 4) (s : State) : Out := loadOp s o b.toNat (4 * d.toNat) 32
/-- LDV.v512. -/
def execLdv512 (o : BitVec 12) (b : BitVec 6) (d : BitVec 3) (s : State) : Out := loadOp s o b.toNat (8 * d.toNat) 64
/-- ST8 (R206). -/
def execSt8 (o : BitVec 12) (b d : BitVec 6) (s : State) : Out := storeOp s o b.toNat d.toNat 1
/-- ST16 (R206). -/
def execSt16 (o : BitVec 12) (b d : BitVec 6) (s : State) : Out := storeOp s o b.toNat d.toNat 2
/-- ST32 (R206). -/
def execSt32 (o : BitVec 12) (b d : BitVec 6) (s : State) : Out := storeOp s o b.toNat d.toNat 4
/-- ST64 (R206). -/
def execSt64 (o : BitVec 12) (b d : BitVec 6) (s : State) : Out := storeOp s o b.toNat d.toNat 8
/-- STV.v128 (R206). -/
def execStv128 (o : BitVec 12) (b : BitVec 6) (d : BitVec 5) (s : State) : Out := storeOp s o b.toNat (2 * d.toNat) 16
/-- STV.v256. -/
def execStv256 (o : BitVec 12) (b : BitVec 6) (d : BitVec 4) (s : State) : Out := storeOp s o b.toNat (4 * d.toNat) 32
/-- STV.v512. -/
def execStv512 (o : BitVec 12) (b : BitVec 6) (d : BitVec 3) (s : State) : Out := storeOp s o b.toNat (8 * d.toNat) 64

/-! ## ATOM and RED.D (R208 to R213) -/

/-- The requests of ATOM and RED.D: v(a), naturally aligned. -/
def atomReqs (s : State) (r : Run) (a t : Nat) (hostOk : Bool) : List LaneReq :=
  let w := atomWidth t / 8
  r.lanes.map (fun n =>
    let x := ((s.team r.team).lane n).reg r.trap a
    { lane := n, va := x.val, size := w, aligned := decide (x.val.toNat % w = 0), hostOk := hostOk, az := x.poison })

/-- ATOM (R208, R209). -/
def execAtom (t : BitVec 3) (o : BitVec 3) (b a d : BitVec 6) (s : State) : Out :=
  onRunRegs s [a.toNat, b.toNat, d.toNat] (fun r s =>
    let tm := s.team r.team
    let hostOk := decide (t.toNat < 4 ∧ (o.toNat = 0 ∨ o.toNat = 6 ∨ o.toNat = 7))
    runMem s r .atom (atomReqs s r a.toNat t.toNat hostOk) (fun _ l => l) (fun q runs =>
      let y := (tm.lane q.lane).reg r.trap b.toNat
      let c := (tm.lane q.lane).reg r.trap d.toNat
      [laneAccess r q runs (.atom o.toNat t.toNat y.val c.val (y.poison || c.poison) (absReg r.trap d.toNat))]))

/-- Entries that a team holds against the limit of R210: since the last flush point, or in a DET grid's span. -/
def State.redHeld (s : State) (tk : Nat) : Nat :=
  let g := s.gridOf tk
  (s.team tk).red.length +
    (if g.rcd.det then (g.deferred.filter (fun e => decide (e.ix = keyIx tk))).length else 0)

/-- The fault of the entry limit, which stands in every lane that has no earlier fault of class 0x04 (R204, R210). -/
def redFull (full : Bool) (y : LaneReq × Checked) : List LaneFault :=
  match y.2 with
  | .fail _ => []
  | _ => if full then [⟨y.1.lane, 4, 8, y.1.va, [y.1.va.toNat], 3⟩] else []

/-- RED.D: places one entry per active lane in the team's buffer (R210). -/
def execRedD (t : BitVec 3) (o : BitVec 3) (b a : BitVec 6) (s : State) : Out :=
  onRunRegs s [a.toNat, b.toNat] (fun r s =>
    let qs := atomReqs s r a.toNat t.toNat false
    let x := s.checkReqs r .red qs
    let full := decide (65536 < s.redHeld r.team + r.lanes.length)
    let fs := x.1.flatMap (fun y => reqFaults .red y ++ redFull full y)
    let s := x.2
    match firstWait x.1 with
    | some p => if fs.all (fun f => decide (f.code = 8)) then .next (s.holdLanes r p) else .next (laneTrap s r r.pc fs)
    | none =>
        if !fs.isEmpty then .next (laneTrap s r r.pc fs)
        else
          let s := s.sample r qs
          let tm := s.team r.team
          let w := (s.gridOf r.team).launch.width
          let es : List RedEntry := x.1.filterMap (fun y => match y.2 with
            | .ok ((l, _) :: _) =>
              let v := (tm.lane y.1.lane).reg r.trap b.toNat
              some ⟨keyIx r.team, y.1.lane / w, y.1.lane % w, tm.order, l, y.1.va, r.pc, o.toNat, t.toNat,
                BitVec.ofNat 64 (v.val.toNat % 2 ^ atomWidth t.toNat), v.poison, 0⟩
            | _ => none)
          let recs : List StoreRec :=
            if (s.gridOf r.team).audited then
              es.map (fun e => ⟨e.group, e.lane, e.order, e.va, atomWidth e.t / 8, e.y.toNat⟩)
            else []
          let tm := { tm with red := tm.red ++ es, order := tm.order + 1, stores := tm.stores ++ recs }
          .next (s.setTeam r.team (tm.updateLanes r.lanes (fun _ l => { l with pc := l.pc + 4 }))))

/-! ## STP (R214 to R216) -/

/-- Elements that a lane contributes (R214). -/
def stpCount (f : Nat) : Nat := if f = 0 then 1 else 2

/-- The elements of a group's lanes: position q and encoding. -/
def stpElems (t : Team) (r : Run) (w f d : Nat) (lanes : List Nat) : List (Nat × Nat) :=
  let sh := planeShape f
  lanes.flatMap (fun n =>
    let x := (t.lane n).reg r.trap d
    (List.range (stpCount f)).map (fun j =>
      (stpCount f * (n % w) + j, x.val.toNat / 2 ^ (j * sh.2.1 + sh.2.2) % 2 ^ sh.1)))

/-- Plane k of a block: mask and data of the bits that elements give (R215). -/
def planeWord (es : List (Nat × Nat)) (b block k : Nat) : Nat × Nat :=
  (es.filter (fun e => decide (e.1 / 64 = block))).foldl (fun m e =>
    (m.1 + 2 ^ (e.1 % 64), m.2 + (if e.2.testBit (b - 1 - k) then 2 ^ (e.1 % 64) else 0))) (0, 0)

/-- The blocks that elements reach, the lowest and the highest. -/
def stpBlocks (es : List (Nat × Nat)) : Nat × Nat :=
  (es.foldl (fun m e => Nat.min m (e.1 / 64)) 1, es.foldl (fun m e => Nat.max m (e.1 / 64)) 0)

/-- The request of a group: the blocks its elements reach, from the base in its lowest active lane (R215, R216). -/
def stpReq (t : Team) (r : Run) (w f a d : Nat) (lanes : List Nat) : LaneReq :=
  let first := lanes.headD 0
  let x := (t.lane first).reg r.trap a
  let b := stpBlocks (stpElems t r w f d lanes)
  let bytes := 8 * (planeShape f).1
  { lane := first, va := x.val + BitVec.ofNat 64 (b.1 * bytes), size := (b.2 + 1 - b.1) * bytes,
    aligned := decide (x.val.toNat % 8 = 0 ∧ windowBase ≤ x.val.toNat), az := x.poison }

/-- Where the blocks that a group reaches start, from the base on: past the window's end they go on above 2^64 (R216). -/
def stpStart (base : Nat) (q : LaneReq) : Nat := base + (q.va.toNat + 2 ^ 64 - base) % 2 ^ 64

/-- The first byte past the scratchpad that the base of blocks selects, where the blocks run past it (R216). -/
def stpPast (base : Nat) (q : LaneReq) : Option Nat :=
  let top := (base / 2 ^ 19 + 1) * 2 ^ 19
  if windowBase ≤ base ∧ top < stpStart base q + q.size then some (Nat.max top (stpStart base q)) else none

/-- A check of blocks that run past the scratchpad selected fails with code 0x05, unless an earlier byte fails (R204,
R216). -/
def stpCheck (base : Nat) (y : LaneReq × Checked) : LaneReq × Checked :=
  match stpPast base y.1 with
  | none => y
  | some a =>
    match if stpStart base y.1 < 2 ^ 64 then y.2 else .ok [] with
    | .fail f => if f.cls = 4 ∧ (f.code = 4 ∨ f.code = 5) then (y.1, .fail { f with addr := Nat.min f.addr a, pages := f.pages ++ [a] }) else (y.1, .fail ⟨4, 5, a, [a]⟩)
    | _ => (y.1, .fail ⟨4, 5, a, [a]⟩)

/-- Every active lane of the group takes the group's fault (DEDUCED log 21). -/
def stpFaults (r : Run) (w : Nat) (fs : List LaneFault) : List LaneFault :=
  fs.flatMap (fun f => (r.peers w f.lane).map (fun n => { f with lane := n }))

/-- Cuts the runs of a checked region into its 8-byte words. -/
def wordsOf (runs : List (Loc × Nat)) : List Loc := (runs.flatMap (fun x => cutRun (x.2 + 1) 8 x.1 x.2)).map (·.1)

/-- STP: bits of elements into plane words, one single-copy atomic step each (R215, R216). -/
def execStp (f : BitVec 5) (a d : BitVec 6) (s : State) : Out :=
  onRunRegs s [a.toNat, d.toNat] (fun r s =>
    let t := s.team r.team
    let w := (s.gridOf r.team).launch.width
    let groups := (r.lanes.map (· / w)).eraseDups.map (fun g => r.lanes.filter (fun n => decide (n / w = g)))
    let qs := groups.map (stpReq t r w f.toNat a.toNat d.toNat)
    let y := s.checkReqs r .stp qs
    let checked := y.1.map (fun y => stpCheck ((t.lane y.1.lane).reg r.trap a.toNat).val.toNat y)
    let fs := stpFaults r w (checked.flatMap (reqFaults .stp))
    let s := y.2
    if !fs.isEmpty then .next (laneTrap s r r.pc fs)
    else
      let b := (planeShape f.toNat).1
      performRun s r qs (fun _ l => l) (checked.flatMap (fun y => match y.2 with
        | .ok runs =>
          let lanes := r.peers w y.1.lane
          let es := stpElems t r w f.toNat d.toNat lanes
          let lo := (stpBlocks es).1
          let poison := lanes.any (fun n => ((t.lane n).reg r.trap d.toNat).poison)
          (wordsOf runs).zipIdx.map (fun l =>
            let m := planeWord es b (lo + l.2 / b) (l.2 % b)
            { laneAccess r y.1 [(l.1, 8)] (.plane m.1 m.2 poison) with va := y.1.va + BitVec.ofNat 64 (8 * l.2) })
        | _ => [])))

/-! ## ENTER and LEAVE (R169) -/

/-- ENTER's request: containment, alignment and limit in that order, then the store at nsp, which is an address modulo 2 to the 64
(DESIGN CHOICE log 91). -/
def enterReq (l : Lane) (trap : Bool) (lane n : Nat) : LaneReq :=
  let v6 := l.reg trap 6
  let v7 := l.reg trap 7
  let nsp : Int := (v6.val.toNat : Int) - 16 * n
  let at_ : Word := BitVec.ofInt 64 nsp
  if v6.poison || (decide (1 ≤ n) && v7.poison) then { lane := lane, va := at_, size := 0, pre := some (6, 2, at_) }
  else if v6.val.toNat % 16 ≠ 0 then { lane := lane, va := at_, size := 0, pre := some (0x0B, 2, 0) }
  else if nsp < 0 ∨ nsp < (l.stklim.toNat : Int) then { lane := lane, va := at_, size := 0, pre := some (0x0B, 1, at_) }
  else { lane := lane, va := at_, size := if n = 0 then 0 else 8 }

/-- ENTER (R169). It writes v6 as it issues, be its store still to perform (DESIGN CHOICE log 91). -/
def execEnter (n : BitVec 6) (s : State) : Out :=
  onRunRegs s [6, 7] (fun r s =>
    let t := s.team r.team
    runMem s r .store (r.lanes.map (fun k => enterReq (t.lane k) r.trap k n.toNat))
      (fun _ l => l.setReg r.trap 6 ⟨(l.reg r.trap 6).val - BitVec.ofNat 64 (16 * n.toNat), false⟩)
      (fun q runs => [laneAccess r q runs (.store 8 ((t.lane q.lane).reg r.trap 7).val.toNat false)]))

/-- LEAVE's request. -/
def leaveReq (l : Lane) (trap : Bool) (lane n : Nat) : LaneReq :=
  let v6 := l.reg trap 6
  if v6.poison then { lane := lane, va := v6.val, size := 0, pre := some (6, 2, v6.val) }
  else if v6.val.toNat % 16 ≠ 0 then { lane := lane, va := v6.val, size := 0, pre := some (0x0B, 2, 0) }
  else { lane := lane, va := v6.val, size := if n = 0 then 0 else 8 }

/-- LEAVE (R169): v7 is read and v6 raised when the load performs. -/
def execLeave (n : BitVec 6) (s : State) : Out :=
  onRunRegs s [6, 7] (fun r s =>
    let t := s.team r.team
    runMem s r .load (r.lanes.map (fun k => leaveReq (t.lane k) r.trap k n.toNat)) (fun _ l => l)
      (fun q runs => [laneAccess r q runs (.leave n.toNat)]))

/-! ## Fences and PRF (R219, R221) -/

/-- FENCE.C: a lane that issues has no earlier access waiting, so its accesses to this chip's memory are performed
(R219). -/
def execFenceC (s : State) : Out := laneOp s 4 [] (fun _ _ _ _ => {})

/-- FENCE.D and FENCE.S: they wait until the earlier accesses that the lanes forwarded have performed at their owners; the
host sees a store to host memory as it performs (R219, R220). -/
def remoteFence (s : State) : Out :=
  onRun s (fun r s =>
    let b : Block := .fence r.team r.lanes
    if s.unblocked b then finishLanes s r 4 (fun _ _ => {}) else .next (s.blockLanes r b))

/-- FENCE.D (R219). -/
def execFenceD (s : State) : Out := remoteFence s
/-- FENCE.S (R219). -/
def execFenceS (s : State) : Out := remoteFence s

/-- Brings the line at an address into the core's L1, where its access would not fault and it is not poisoned. -/
def State.prefetch (s : State) (r : Run) (va : Word) : State :=
  let at_ := va.toNat / 64 * 64
  let who := { s.whoOf r.team with va := at_ }
  match s.checkAccess who (s.coreOf r.team) .load true true false at_ 64 with
  | (.ok ((l, _) :: _), s') =>
    match s'.lineKey l with
    | none => s'
    | some k =>
      let x := s'.line k
      if x.poison || !l.cached then s' else s'.setLine k { x with copies := copiesAfter x.copies l who false x.wts x.rts }
  | _ => s

/-- PRF: only a poisoned address traps (R221); a request that would fault, as one for a FIFO bank would (R247), is
dropped (DEDUCED log 83). It is no memory instruction that SAMPLE counts (DESIGN CHOICE log 72). -/
def prfOp (s : State) (a : Nat) (l1 : Bool) : Out :=
  onRunRegs s [a] (fun r s =>
    let t := s.team r.team
    let fs : List LaneFault := r.lanes.filterMap (fun n =>
      let x := (t.lane n).reg r.trap a
      if x.poison then some ⟨n, 6, 2, x.val, [], 0⟩ else none)
    if !fs.isEmpty then .next (laneTrap s r r.pc fs)
    else
      let s := if l1 then r.lanes.foldl (fun s n => s.prefetch r ((t.lane n).reg r.trap a).val) s else s
      finishLanes s r 4 (fun _ _ => {}))

/-- PRF.l1 (R221). -/
def execPrfL1 (a : BitVec 6) (s : State) : Out := prfOp s a.toNat true
/-- PRF.msc (R221): the memory-side cache holds no state that a program observes. -/
def execPrfMsc (a : BitVec 6) (s : State) : Out := prfOp s a.toNat false

end Sys2Proof.Machine
end

