-- ==== Sys2Proof/Machine/Sched.lean ====
section
/-! DEFINITION. What a step does around an instruction: breakpoint matching (R131, R132), the early sight of a
buffered store (R238), replacements of TLB entries and L1 copies (R317, R232), and the refill of the schedule
by the barrel order (R163, DESIGN CHOICE log 2). -/

namespace Sys2Proof.Machine

/-- Whether a breakpoint entry stops a stream (0 sequencer, else 1 + group) of a team about to issue at an
address (R130, R131). Entries with a nonzero reserved field are ignored. -/
def bpMatches (e : BpEntry) (ix stream : Nat) (pc : Word) : Bool :=
  let a := e.w0.toNat
  let b := e.w1.toNat
  let st := a / 2 ^ 61 % 4
  a.testBit 63 && decide (a / 2 ^ 56 % 32 = 0 ∧ b / 2 ^ 48 % 2 ^ 15 = 0 ∧ st ≠ 3) &&
    (decide (st = 0) || decide (st = 1 ∧ stream ≠ 0) || decide (st = 2 ∧ stream = 0)) &&
    decide (a % 2 ^ 56 = pc.toNat) && (!b.testBit 63 || decide (b % 2 ^ 48 = ix))

/-- The first stream of a team, among those about to issue at an address, that an entry stops, with the entry's
index; streams whose first instruction after a stop is still to come are passed (R132, R134). -/
def State.bpHit (s : State) (tk : Nat) (streams : List Nat) (pc : Word) : Option (Nat × Nat) :=
  let t := s.team tk
  let bps := (s.ctx (s.asidOf tk)).bps
  streams.findSome? (fun st =>
    if t.bpPass.contains st then none
    else (bps.find? (fun e => bpMatches e (keyIx tk) st pc)).map (fun e => (st, e.index)))

/-- The groups that a run's lanes belong to, as streams. -/
def State.runStreams (s : State) (r : Run) : List Nat :=
  let w := (s.gridOf r.team).launch.width
  (r.lanes.map (fun n => 1 + n / w)).eraseDups

/-- The first instruction of these streams issues: they are matched again from now on (R134). -/
def State.passBreak (s : State) (tk : Nat) (streams : List Nat) : State :=
  let t := s.team tk
  if t.bpPass.isEmpty then s
  else s.setTeam tk { t with bpPass := t.bpPass.filter (fun x => !streams.contains x) }

/-- The other agents' loads see a buffered store of a sequencer before it joins the global order, or see the old value again
(R148, R227, R238) (DEDUCED log 5). -/
def State.showStore (s : State) (tk idx : Nat) : State :=
  match (s.team tk).seq.sbuf.drop idx with
  | [] => s
  | b :: _ =>
    let x := (tk, b.store)
    { s with seen := if s.seen.contains x then s.seen.filter (fun y => decide (y ≠ x)) else x :: s.seen }

/-- A TLB entry is replaced (R317). -/
def State.dropTlb (s : State) (quad idx : Nat) : State := { s with tlb := SMap.set [] s.tlb quad ((s.tlbOf quad).eraseIdx idx) }

/-- An L1 copy is evicted (R232): the bytes are at the home already. -/
def State.dropL1 (s : State) (line core : Nat) : State :=
  let s := if s.badFor none line = false ∧ s.badFor (some core) line = true then
      { s with bad := SMap.set false s.bad line false, sites := SMap.set .home s.sites line .home } else s
  s.setLine line { s.line line with copies := (s.line line).copies.filter (fun c => decide (c.core ≠ core)) }

/-- The eligible slots of a partition at a clock, in order of service (R163). -/
def barrelSlots (clock : Nat) : List Nat :=
  (List.range 4).map (fun k => clock % 4 + 4 * ((clock / 4 + k) % 4))

/-- Cores that hold a running team. -/
def State.busyCores (s : State) : List Nat := sortNats ((s.teams.filterMap (fun e => if e.2.st = .running then some e.2.core else none)).eraseDups)

/-- The turns of one clock (R163): a write of the device that waits, every eligible slot of every partition of every busy
core, then every sequencer. -/
def State.clockTurns (s : State) : List Turn :=
  (if s.dsp.late.isEmpty then [] else [Turn.late]) ++
    s.busyCores.flatMap (fun c => (List.range 4).flatMap (fun p => (barrelSlots s.clock).map (fun i => Turn.slot c p i))) ++
    s.teams.filterMap (fun e => if e.2.st = .running then some (Turn.seq e.1) else none)

/-- A clock ends: what was stopped by a fault in it issues no more, and the fault's record is written (R174). -/
def State.endClock (s : State) : State :=
  (s.ctxs.map (·.1)).foldl State.settleFault { s with teams := SMap.mapV {} s.teams (fun _ t => { t with closing := false }) }

/-- Fills an empty schedule with the next clock's turns (DESIGN CHOICE log 2) (DESIGN CHOICE log 65). -/
def State.refill (s : State) : State :=
  let s := s.endClock
  { s with schedule := s.clockTurns, turn := .idle, clock := s.clock + 1 }

/-- The entry that stops a run about to issue, with the stream. An instruction that waited is reissued internally: it is matched
once (R131, R160). -/
def State.runHit (s : State) (r : Run) : Option (Nat × Nat) :=
  if r.lanes.all (fun n => decide (((s.team r.team).lane n).block ≠ .none)) then none else s.bpHit r.team (s.runStreams r) r.pc

/-- The entry that stops a sequencer about to issue: one that waits inside its instruction has been matched. -/
def State.seqHit (s : State) (tk : Nat) : Option (Nat × Nat) :=
  if (s.team tk).seq.wait = none then s.bpHit tk [0] (s.team tk).seq.pc else none

/-- Whether a pending trap is taken while the sequencer waits for forces, buffered stores or a page inside an
instruction: only one of class 0x08 (R280); any other boundary takes any (R151, R396). -/
def asyncNow (q : Sequencer) (a : AsyncTrap) : Bool :=
  match q.wait with
  | some .force => decide (a.cls = 8)
  | some (.page _ false) => decide (a.cls = 8)
  | _ => true

/-- The trap that a sequencer takes before its next instruction, if any (R151). -/
def State.asyncOf (s : State) (tk : Nat) : Option AsyncTrap :=
  let q := (s.team tk).seq
  if s.issues tk && !q.exited && !q.parked && !q.trap then q.pending.find? (asyncNow q) else none

/-- The entry that stops a stream of a team in a turn of the present clock that is still to come, with the stream (R132). -/
def State.turnHit (s : State) (tk : Nat) (t : Turn) : Option (Nat × Nat) :=
  match t with
  | .slot c p i =>
    (match s.headRun c p i with
      | some r => if r.team = tk then s.runHit r else none
      | none => none)
  | .seq k => if k = tk ∧ s.seqIssues tk = true ∧ s.asyncOf tk = none then s.seqHit tk else none
  | _ => none

/-- The stream that a stop in this clock names: of those that match in it the sequencer, else the lowest group (R132). -/
def State.clockHit (s : State) (tk : Nat) (h : Nat × Nat) : Nat × Nat :=
  (s.schedule.filterMap (s.turnHit tk)).foldl (fun m x => if x.1 < m.1 then x else m) h

/-- What a slot's or a sequencer's turn comes to before any instruction executes: nothing more, a breakpoint
stop, or a fetched word to decode. -/
inductive Ready where
  | done (s : State)
  | stop (s : State)
  | word (w : Nat) (s : State)
  deriving DecidableEq, Repr

/-- A slot's turn (R161, R128, R131). -/
def State.slotReady (s : State) (c p i : Nat) : Ready :=
  match s.headRun c p i with
  | none => .done s
  | some r =>
    match s.runHit r with
    | some _ => .stop s
    | none =>
      let s := s.passBreak r.team (s.runStreams r)
      match s.fetchInstr r.team r.pc.toNat with
      | (.ok w, s) => .word w s
      | (.fault code, s) =>
        let s := (s.clearMarks c (p * 16 + i)).clearBlocks r
        .done (laneTrap s r r.pc (r.lanes.map (fun n => ⟨n, 3, code, 0, [], 0⟩)))
      | (.wait p, s) => .done (s.holdLanes r p)

/-- Breakpoints and the fetch of a sequencer (R128, R131). -/
def State.seqFetch (s : State) (tk : Nat) : Ready :=
  let q := (s.team tk).seq
  match s.seqHit tk with
  | some _ => .stop s
  | none =>
    let s := s.passBreak tk [0]
    match s.fetchInstr tk q.pc.toNat with
    | (.ok w, s) => .word w s
    | (.fault code, s) => .done (seqTrapAt s tk 3 code q.pc 0)
    | (.wait p, s) => .done (s.seqPage tk p true)

/-- A sequencer's turn: an asynchronous trap at the boundary first (R151), then breakpoints and the fetch. -/
def State.seqReady (s : State) (tk : Nat) : Ready :=
  match s.asyncOf tk with
  | some a => .done (takeAsync s tk a)
  | none => if s.seqIssues tk then s.seqFetch tk else .done s

end Sys2Proof.Machine
end

