-- ==== Sys2Proof/Machine/TeamLife.lean ====
section
/-! DEFINITION. The life of a team (R135, R136): loading, quanta, swap-out, breakpoint stops and their records, exit
actions, the end of a grid, and the undefined-instruction fault. -/

namespace Sys2Proof.Machine

/-! ## Loading (R22 to R24, R136, R303) -/

/-- A team right after its first loading: registers zero, counters at the entry, s1 the argument. -/
def freshTeam (t : Team) (l : Launch) (tick : Nat) : Team :=
  { st := .running, core := t.core, slots := t.slots, sram := t.sram, qstart := tick
    lanes := (List.range l.lanes).foldl (fun m n => SMap.set {} m n { pc := l.lanePc }) []
    seq := { s := SMap.set 0 [] 1 l.arg, pc := l.seqPc } }

/-- Loads one dispatched team: the data image is copied at its first dispatch, else its image stands as saved; one whose streams
have all exited goes on with its exit (R136, R375). -/
def State.loadTeam (s : State) (tk : Nat) : State :=
  let t := s.team tk
  if t.st = .dispatched then
    if t.reload then
      let out := t.seq.exited && (List.range (s.gridOf tk).launch.lanes).all (fun n => (t.lane n).exited)
      s.setTeam tk { t with st := if out then .exiting else .running, reload := false, qstart := s.fab.tick }
    else
      let l := (s.gridOf tk).launch
      (s.setTeam tk (freshTeam t l s.fab.tick)).putBytes (spadKey tk 0 0) l.image
  else s

/-- LOADING_COMPLETE: grid and cluster. -/
def execLoadingComplete (s : State) : Out :=
  match s.turn with
  | .event _ (.nat2 k c) =>
    let g := s.grid k
    if g.live && (g.placed.any (fun p => decide (p.1 = c))) then .next ((g.clusterTeams k c).foldl State.loadTeam s)
    else .next s
  | _ => .next s

/-! ## Leaving running (R132, R136, R142) -/

/-- The running teams of a cluster stop issuing: each then swaps out. -/
def State.leaveRunning (s : State) (k c : Nat) : State :=
  ((s.grid k).clusterTeams k c).foldl (fun s tk =>
    let t := s.team tk
    if t.st = .running then s.setTeam tk { t with st := .swapped } else s) s

/-- The state in which a cluster holds no places. -/
def State.without (s : State) (k c : Nat) : State :=
  let g := s.grid k
  let s := (g.clusterTeams k c).foldl (fun s tk => s.setTeam tk { s.team tk with slots := [], sram := [], acc := [] }) s
  s.setGrid k { g with placed := g.placed.filter (fun p => decide (p.1 ≠ c)) }

/-- Whether a waiting cluster goes before a placed one (R142, R144): one of its class, or of a class that R118 ranks
higher. -/
def State.goesBefore (s : State) (cs : List Cand) (own x : Cand) : Bool :=
  decide (x.cls = own.cls ∨ s.candKey (own :: cs) x / 8 < s.candKey (own :: cs) own / 8)

/-- The waiting cluster that would take a place of a placed one (R142): one that goes before it, that the dispatcher
cannot place now, and can place over its cores once they are free; or one passed over for a quantum whose named rectangle
takes its cores (R118). -/
def State.waitingFor (s : State) (k c first : Nat) : Option Cand :=
  let g := s.grid k
  let cores := g.rectCores first
  let own : Cand := ⟨k, c, (s.recOf g).mclass, (s.recOf g).prio⟩
  let s' := s.without k c
  let cs := s'.candidates
  let named := cs.find? (fun x => s.overdue x && s.dsp.rects.any (fun r => decide (r.1 = x.grid ∧ r.2.1 = x.cluster) &&
    ((s.grid x.grid).rectCores r.2.2).any cores.contains))
  named.or (cs.find? (fun x =>
    s'.goesBefore cs own x && !(s.candidates.contains x && s.fitsAnywhere x.grid x.cluster) &&
      (List.range 640).any (fun f => ((s.grid x.grid).rectCores f).any cores.contains && s'.clusterFits x.grid x.cluster f)))

/-- QUANTUM_EXPIRY: grid and cluster. At the first tick at or after the quantum the cluster swaps out if a waiting one
would take a place of it; else a new quantum starts (R142). -/
def execQuantumExpiry (s : State) : Out :=
  match s.turn with
  | .event _ (.nat2 k c) =>
    let g := s.grid k
    let run := (g.clusterTeams k c).filter (fun tk => decide ((s.team tk).st = .running))
    match g.placed.find? (fun p => decide (p.1 = c)), run with
    | some p, tk :: _ =>
      if 2 * (s.fab.tick - (s.team tk).qstart) < s.quantumOf k then .next s
      else
        match s.waitingFor k c p.2 with
        | some x =>
          let s := s.leaveRunning k c
          let g := s.grid k
          .next (s.setGrid k { g with behind := (c, x.grid, x.cluster) :: g.behind })
        | none => .next (run.foldl (fun s tk => s.setTeam tk { s.team tk with qstart := s.fab.tick }) s)
    | _, _ => .next s
  | _ => .next s

/-- A stream of a team stops at a breakpoint entry (R132): the team is marked, and its cluster swaps out
(DEDUCED log 54). -/
def State.stopTeam (s : State) (tk : Nat) (hit : Nat × Nat) : State :=
  let t := s.team tk
  let s := s.setTeam tk { t with stopped := true, stopRec := some (hit.2, hit.1, t.phases.toNat) }
  s.leaveRunning (keyGrid tk) ((s.gridOf tk).clusterOf (keyIx tk))

/-- BREAKPOINT_MATCH: the stream whose turn it is stands before an instruction that an entry stops; the record names the
first of the streams that match in this clock (R131, R132). -/
def execBreakpointMatch (s : State) : Out :=
  match s.turn with
  | .slot c p i =>
    match s.headRun c p i with
    | none => .next s
    | some r =>
      match s.bpHit r.team (s.runStreams r) r.pc with
      | some h => .next (s.stopTeam r.team (s.clockHit r.team h))
      | none => .next s
  | .seq tk =>
    if s.seqIssues tk then
      match s.bpHit tk [0] (s.team tk).seq.pc with
      | some h => .next (s.stopTeam tk (s.clockHit tk h))
      | none => .next s
    else .next s
  | _ => .next s

/-! ## Stop records (R133, R134) -/

/-- The record of a stopped team. -/
def State.stopBytes (s : State) (tk : Nat) (h : Nat × Nat × Nat) : List Byte :=
  let t := s.team tk
  let g := s.gridOf tk
  leBytes 8 (2 ^ 63 + h.1 * 2 ^ 40 + h.2.1 * 2 ^ 32 + g.launch.seq.toNat) ++ leBytes 8 (g.coords (keyIx tk)) ++
    leBytes 8 t.seq.pc.toNat ++ leBytes 8 h.2.2 ++
    (List.range 16).flatMap (fun b => leBytes 2 (SMap.get {} t.bars b).arr)

/-- The address of a stop slot of a context (R133). -/
def State.stopAddr (s : State) (asid i : Nat) : Nat := (s.ctx asid).rcd.bptab + 0x400 + 64 * i

/-- Word 0x00 of the stop slot at an address of a context. -/
def State.stopWord (s : State) (asid addr : Nat) : Disp Nat :=
  match (s.dispLoad (some asid) addr 8).1 with
  | .ok bs => .ok (leNat bs)
  | .fail => .fail
  | .wait p => .wait p

/-- The lowest stop slot of a context whose VALID bit is 0; a slot whose word must be waited for is none yet. -/
def State.freeStopSlot (s : State) (asid : Nat) : Option Nat :=
  match (List.range 16).find? (fun i => match s.stopWord asid (s.stopAddr asid i) with
      | .ok w => !(w.testBit 63)
      | .wait _ => true
      | .fail => false) with
  | none => none
  | some i => match s.stopWord asid (s.stopAddr asid i) with
    | .wait _ => none
    | _ => some i

/-- Writes a stopped team's record, if a slot is free; where the write must wait the next scan tries again. -/
def State.writeStop (s : State) (tk : Nat) : State :=
  let t := s.team tk
  let a := s.asidOf tk
  match t.stopRec, s.freeStopSlot a with
  | some h, some i =>
    match s.dispStore (some a) (s.stopAddr a i) (s.stopBytes tk h) false with
    | (.ok _, t) => t.setTeam tk { t.team tk with stopRec := none, stopSlot := some (s.stopAddr a i) }
    | (_, s) => s
  | _, _ => s

/-- Stopped teams of a context that have swapped out and whose records are not written, in team-index order. -/
def State.unrecorded (s : State) (asid : Nat) : List Nat :=
  let tks := (s.teams.map (·.1)).filter (fun tk =>
    let t := s.team tk
    t.stopRec.isSome && t.slots.isEmpty && decide (t.st = .swapped ∧ s.asidOf tk = asid))
  let ins (l : List Nat) (x : Nat) : List Nat := l.filter (fun y => decide (keyIx y ≤ keyIx x)) ++ x :: l.filter (fun y => decide (keyIx x < keyIx y))
  tks.foldl ins []

/-- The teams that hold the stop slot at an address of a context are dispatchable again, and the first instruction of each of their
streams then passes the breakpoints (R134). -/
def State.freeStopped (s : State) (a addr : Nat) : State :=
  { s with teams := SMap.mapV {} s.teams (fun tk t =>
      if t.stopSlot = some addr ∧ s.asidOf tk = a then
        let l := (s.gridOf tk).launch
        { t with stopped := false, stopSlot := none, bpPass := List.range (1 + l.lanes / l.width) }
      else t) }

/-- The stop slots of a context, by address, that a team holds and into whose word 0x00 zero was stored, by whatever agent: the
record has set its VALID bit (R134). -/
def State.clearedStops (s : State) (a : Nat) : List Nat :=
  ((s.teams.filterMap (fun e => if s.asidOf e.1 = a then e.2.stopSlot else none)).eraseDups).filter
    (fun addr => decide (s.stopWord a addr = .ok 0))

/-- A scan of the stop slots of a context: a slot that was cleared frees its team, and the records that wait are written
in team-index order (R133, R134). -/
def State.scanStops (s : State) (a : Nat) : State :=
  let s := (s.clearedStops a).foldl (fun (s : State) i => s.freeStopped a i) s
  (s.unrecorded a).foldl State.writeStop s

/-- STOP_SLOT_SCAN: the stop slots of a context are scanned (R133). -/
def execStopSlotScan (s : State) : Out :=
  match s.turn with
  | .event _ (.nat a) => .next (s.scanStops a)
  | _ => .next s

/-- STOP_SLOT_FREE: system software stores zero to word 0x00 of a slot of a context (R134). -/
def execStopSlotFree (s : State) : Out :=
  match s.turn with
  | .event _ (.nat2 a i) =>
    if i < 16 ∧ (s.ctx a).st ≠ .free then
      match s.dispStore (some a) (s.stopAddr a i) (leBytes 8 0) false with
      | (.ok _, t) => .next (t.freeStopped a (s.stopAddr a i))
      | (_, s) => .next s
    else .next s
  | _ => .next s

/-! ## Swap-out (R143) -/

/-- Whether some engine command still reads or writes a team's scratchpad, its arrival word and its result record included
(R143, R155, R156). -/
def State.spadBusy (s : State) (tk : Nat) : Bool :=
  (s.commands ++ s.dsp.pg.filter (fun c => !c.fw)).any (fun c => c.touches.contains tk)

/-- Whether an evaluation of a team is in progress (R143): a force under way, or a TST of whose target a line can be written. -/
def State.evaluates (s : State) (tk : Nat) : Bool :=
  match nextForce (s.mf tk).forces with
  | some (_, f) => f.work.isSome || (f.fin && (s.tstNext tk f).isSome)
  | none => false

/-- A cluster that has left its places: they are free, and a retired team's banks go (R136, R245)
(DESIGN CHOICE log 47). -/
def State.freePlaces (s : State) (k c : Nat) : State :=
  let g := s.grid k
  let s := (g.clusterTeams k c).foldl (fun s tk =>
    let t := s.team tk
    if t.st = .retired then (s.setTeam tk { t with slots := [], sram := [], fifos := [], bmode := 0, bmodeNext := [] }).wipeSpad tk else s) s
  s.setGrid k { s.grid k with placed := g.placed.filter (fun p => decide (p.1 ≠ c)) }

/-- Whether every team of a cluster has given up its place or retired. -/
def State.clusterLeft (s : State) (k c : Nat) : Bool :=
  ((s.grid k).clusterTeams k c).all (fun tk => decide ((s.team tk).st = .retired) ||
    (decide ((s.team tk).st = .swapped) && (s.team tk).slots.isEmpty))

/-- The last steps of a team's swap-out: its image stands, its banks and slots are free. -/
def State.finishSwap (s : State) (tk : Nat) : State :=
  let t := s.team tk
  let k := keyGrid tk
  let c := (s.grid k).clusterOf (keyIx tk)
  let core := s.coreAt t.core
  -- an ACQ that waits is abandoned, and issues again after the swap-in
  let s := s.setCore t.core { core with acq := core.acq.filter (fun x => decide (x.1 ≠ tk)) }
  let s := s.traceEvent tk 2
  let q := if t.seq.wait = some .acq then { t.seq with wait := none } else t.seq
  let s := s.setTeam tk { t with slots := [], sram := [], seq := q, swapNo := s.dsp.nextSwap }
  let s : State := { s with dsp := { s.dsp with nextSwap := s.dsp.nextSwap + 1 } }
  let s := if s.clusterLeft k c then s.freePlaces k c else s
  let a := s.asidOf tk
  let s := if (s.ctx a).st = .running ∧ s.hasResident a = false then s.setCtxSt a .swapped else s
  if t.stopRec.isSome then s.scanStops a else s

/-- SWAP_OUT: the team that the operand names has stopped issuing. An evaluation in progress comes first, then engine
commands on its banks, then its buffered stores. -/
def execSwapOut (s : State) : Out :=
  match s.turn with
  | .event _ (.nat tk) =>
    let t := s.team tk
    if t.st = .swapped ∧ t.slots.isEmpty = false then
      if s.evaluates tk || s.spadBusy tk then .next s
      else
        let s := s.drainAll tk
        if (s.team tk).seq.sbuf.isEmpty then .next (s.finishSwap tk) else .next s
    else .next s
  | _ => .next s

/-! ## Team exit (R155, R156) -/

/-- The bytes that a store record gives to the signature (R378): address, size and data. -/
def StoreRec.bytes (r : StoreRec) : List Byte := leBytes 8 r.addr.toNat ++ leBytes 8 r.size ++ leBytes r.size r.data

/-- Store records sorted by group, then lane, then program order (R378). -/
def insertStore (e : StoreRec) (l : List StoreRec) : List StoreRec :=
  match l with
  | [] => [e]
  | x :: r =>
    if x.group < e.group ∨ (x.group = e.group ∧ (x.lane < e.lane ∨ (x.lane = e.lane ∧ x.order ≤ e.order))) then x :: insertStore e r
    else e :: x :: r

/-- The signature of a team (R378). -/
def Team.signature (t : Team) : Nat :=
  sha384 ((t.stores.foldl (fun l e => insertStore e l) []).flatMap StoreRec.bytes)

/-- A team that retires may be selected for a replay (R377). -/
def State.selectAudit (s : State) (tk : Nat) : State :=
  let g := s.gridOf tk
  let t := s.team tk
  match (s.policyOf g.rcd).audit with
  | none => s
  | some k =>
    if g.audited && !t.pushed && decide ((keyIx tk + g.launch.seq.toNat) % 2 ^ k = 0) then
      { s with dsp := { s.dsp with audits := s.dsp.audits ++ [⟨keyIx tk, g.asid, g.launch.seq, t.signature⟩] } }
    else s

/-- Step 6: the team retires; its cluster's places are freed when all of it has (R136). A context whose last resident team
retires while others of it are swapped out or not started goes on as running: R98 lists no event (DESIGN CHOICE log 80). -/
def State.retire (s : State) (tk : Nat) : State :=
  let k := keyGrid tk
  let g := s.grid k
  let c := g.clusterOf (keyIx tk)
  let s := (s.selectAudit tk).traceEvent tk 5
  let s := s.setTeam tk { s.team tk with st := .retired, acc := [], stores := [], lanes := [], mf := {} }
  let s := s.setGrid k { s.grid k with retired := (s.grid k).retired + 1 }
  let s := if s.clusterLeft k c then s.freePlaces k c else s
  let a := s.asidOf tk
  s.testMoved a

/-- Step 2 of an exit: the team's entries are flushed, and applied as far as nothing waits (R155, R211). -/
def State.flushExit (s : State) (tk : Nat) : State :=
  let t := s.team tk
  if t.red.isEmpty then
    match s.releases.findIdx? (fun r => decide (r.kind = .exit tk)) with
    | some idx => s.progressRelease idx
    | none => s
  else
    let x := s.flushTeam tk t.red
    (x.2.setTeam tk { x.2.team tk with red := [] }).startRelease ⟨.exit tk, 0, x.1⟩

/-- EXIT_ACTIONS of the team that the operand names: each event goes as far as nothing waits. -/
def execExitActions (s : State) : Out :=
  match s.turn with
  | .event _ (.nat tk) =>
    let t := s.team tk
    if t.st ≠ .exiting ∨ (s.gridOf tk).interval.st = .rolling then .next s
    else
      let t := t.atExit
      let s := s.setTeam tk t
      if !t.mf.forces.isEmpty then .next s
      else
        let s := s.flushExit tk
        if s.releases.any (fun r => decide (r.kind = .exit tk)) then .next s
        else
          let s := s.drainAll tk
          if !(s.team tk).seq.sbuf.isEmpty ∨ s.spadBusy tk = true then .next s else .next (s.retire tk)
  | _ => .next s

/-! ## Grid end (R115, R211, R371, R125) -/

/-- Whether an engine command of a grid is not complete, entries are still to be applied, or accesses that it has forwarded to
other chips have not performed (R115, R322). -/
def State.gridBusy (s : State) (k : Nat) : Bool :=
  (s.commands ++ s.dsp.pg).any (fun c => !c.fw && decide (keyGrid c.team = k)) || s.releases.any (fun r => decide (r.kind.grid = k)) ||
    s.fab.fwd.any (fun x => decide (x.grid = k))

/-- The end of a grid: its word, and its reference goes when the word is written; a context whose last grid this was is
ready (R98, R125). -/
def State.finishGrid (s : State) (k status : Nat) : State :=
  let g := s.grid k
  let a := g.asid
  let s : State := match g.regen with
    | some _ =>
      let s := (s.dropTeams k).setGrid k { g with regenStatus := some status, placed := [] }
      { s with dsp := { s.dsp with order := s.dsp.order.filter (fun x => decide (x ≠ k)) } }.releaseObj g.launch.obj
    | none => (s.writeWord ⟨g.cw, g.cw.word status, g.launch.obj⟩ false).dropGrid k
  if (s.ctx a).st = .running ∧ s.hasGrid a = false then s.setCtxSt a .ready else s

/-- Whether every team of a grid that starts here has retired. Teams not started when their context moved run on the
target, and the source's on the source (R104). -/
def State.allRetired (s : State) (k : Nat) : Bool :=
  let g := s.grid k
  decide (g.retired + g.source = g.size) ||
    (decide ((s.ctx g.asid).moveTo ≠ none) && !(s.teamsOf k).any (fun tk => (s.team tk).started))

/-- GRID_END: the grid, and whether the last of all its teams retired here (1) or on the other chip of a MOVE (0), in which
case that one writes the word (R104); of a DET grid that has unstarted teams they start there after all that started here
have retired. -/
def execGridEnd (s : State) : Out :=
  match s.turn with
  | .event _ (.nat2 k here) =>
    let g := s.grid k
    if g.active = false ∨ s.gridBusy k = true ∨ g.interval.st = .rolling then .next s
    else
      match g.endWith with
      | some st => .next (s.finishGrid k st)
      | none =>
        if !s.allRetired k then .next s
        else if g.moved = true ∨ (g.retired ≠ g.size ∧ (here = 0 ∨ g.rcd.det = true)) then .next (s.carryGrid k)
        else if g.source ≠ 0 then .next s
        else
          let x := s.takeReds k
          let y := x.2.applyReds x.2.releases.length k (sortRed (g.deferred ++ x.1))
          let s := y.2.setGrid k { y.2.grid k with deferred := y.1 }
          -- a consumption by an entry rolls the interval back (R373)
          if (s.grid k).interval.st = .rolling then .next s
          else if y.1.isEmpty then .next (s.finishGrid k 0) else .next s
  | _ => .next s

/-! ## Undefined instructions (R94, R95) -/

/-- UNDEFINED_INSTRUCTION: the stream whose turn it is issues a word that decodes to nothing: the fault of class 0x01
with code 0x01, or 0x02 for a reserved encoding. -/
def execUndefinedInstruction (s : State) : Out :=
  match s.turn with
  | .slot _ _ _ =>
    onRun s (fun r s =>
      match s.fetchInstr r.team r.pc.toNat with
      | (.ok w, s) =>
        match decodeLane w with
        | .ok _ => .next s
        | .error u => trapAll s r 1 u.code.toNat
      | (_, s) => .next s)
  | .seq _ =>
    onSeq s (fun tk q s =>
      match s.fetchInstr tk q.pc.toNat with
      | (.ok w, s) =>
        match decodeSeq w with
        | .ok _ => .next s
        | .error u => seqTrap s tk 1 u.code.toNat 0
      | (_, s) => .next s)
  | _ => .next s

end Sys2Proof.Machine
end

