-- ==== Sys2Proof/Machine/Interval.lean ====
section
/-! DEFINITION. Rollback of an interval (R375), the auditor's replay (R378), HBM repair (R379) and ageing (R380). -/

namespace Sys2Proof.Machine

/-! ## Rollback (R375) -/

/-- Writes one logged line back: bytes, poison and tags, as one event; another chip's line by a forwarded write (R372, R375). -/
def State.restoreLine (s : State) (k : Nat) (u : UndoEntry) : State :=
  let l := Loc.pa (u.line * 64)
  let s :=
    match s.reach l with
    | .here key => ((s.touchStore (dispWho noAsid) l).putBytes key u.bytes).setPoison l u.poison
    | .remote _ _ =>
      if u.bytes = [] then s
      else (s.touchStore (dispWho noAsid) l).forward (dispWho noAsid) l 64 true (fun tag pa => .fwdWrite tag pa u.bytes u.poison false)
    | .storage => s.putBytes (s.storedAt l) u.bytes
    | _ => s
  let g := s.grid k
  s.setGrid k { g with tags := SMap.set (0, 0) g.tags u.line u.tags }

/-- Restores one team and its scratchpad from a checkpoint image: it waits for a place. -/
def State.restoreTeam (s : State) (c : Checkpoint) : State :=
  let s := s.setTeam c.key { c.team with st := .swapped, slots := [], sram := [], closing := false, swapNo := s.dsp.nextSwap }
  let s : State := { s with
    dsp := { s.dsp with nextSwap := s.dsp.nextSwap + 1 }
    mem := c.bytes.foldl (fun m e => SMap.set 0 m e.1 e.2) s.mem
    parked := s.parked ++ c.parked, releases := s.releases ++ c.releases }
  c.poisoned.foldl (fun s l => s.setLine l { s.line l with poison := true }) s

/-- The answers that a grid's streams wait for from other chips are wanted no more: what is issued again asks again. -/
def State.dropReads (s : State) (k : Nat) : State :=
  { s with fab := { s.fab with fwd := s.fab.fwd.filter (fun x => !decide (x.grid = k ∧ x.write = false)) } }

/-- Steps 1 to 4 of a rollback (DEDUCED log 48). The first interval of a grid that came by a MOVE begins with the first team that
starts here, and with what the source's teams have left (R104, R344). -/
def State.rollback (s : State) (k : Nat) : State :=
  let s := s.cancelCmds true (fun tk => decide (keyGrid tk = k))
  let i := (s.grid k).interval
  let s := i.undo.reverse.foldl (fun s u => s.restoreLine k u) s
  -- teams that had retired before the interval stay retired
  let before := if i.first then [] else (s.teamsOf k).filter (fun tk =>
    decide ((s.team tk).st = .retired) && !i.images.any (fun c => decide (c.key = tk)))
  let kept := before.map (fun tk => (tk, { s.team tk with slots := [], sram := [] }))
  let s := (s.dropTeams k).dropReads k
  let s := kept.foldl (fun s e => s.setTeam e.1 e.2) s
  let s := if i.first then s else i.images.foldl State.restoreTeam s
  let g := s.grid k
  let s := s.setGrid k { g with
    nextIx := if i.first then g.base else g.nextIx
    retired := (if g.source ≠ 0 then 0 else g.base) + before.length
    placed := [], passed := [], behind := []
    deferred := i.deferred, gbarArr := [], cbar := SMap.mapV (0, []) g.cbar (fun _ x => (x.1, []))
    interval := { i with st := .opened, undo := [], rolls := i.rolls + 1 } }
  let s := s.logEntry 4 g.asid g.launch.seq 0 (BitVec.ofNat 64 i.undo.length)
  if (s.ctx g.asid).st = .running ∧ s.hasResident g.asid = false then s.setCtxSt g.asid .swapped else s

/-- Whether accesses that a grid has forwarded to other chips have not been answered. -/
def State.forwards (s : State) (k : Nat) : Bool := s.fab.fwd.any (fun x => decide (x.grid = k) && x.reply.isNone)

/-- ROLLBACK of the grid that the operand names (R373, R375), once what it has forwarded has performed (DEDUCED log 87). -/
def execRollback (s : State) : Out :=
  match s.turn with
  | .event _ (.nat k) => if (s.grid k).interval.st = .rolling ∧ s.forwards k = false then .next (s.rollback k) else .next s
  | _ => .next s

/-! ## The auditor (R378) -/

/-- AUDIT_REPLAY: the operand names a selected team and says what its replay gave: a signature, or a fault (R378, DESIGN CHOICE
log 88). -/
def execAuditReplay (s : State) : Out :=
  match s.turn with
  | .event _ (.audit idx r) =>
    match s.dsp.audits.drop idx with
    | [] => .next s
    | a :: _ =>
      let s : State := { s with dsp := { s.dsp with audits := s.dsp.audits.eraseIdx idx } }
      match r with
      | .ran sig => .next (if sig = a.signature then s else s.logEntry 6 a.asid a.seq (BitVec.ofNat 64 a.ix) 0)
      | .faulted => .next (s.logEntry 7 a.asid a.seq (BitVec.ofNat 64 a.ix) 0)
  | _ => .next s

/-! ## HBM repair (R379) -/

/-- DETAIL of a row of HBM4E (R376). -/
def HbmRow.detail (r : HbmRow) : Word := BitVec.ofNat 64 (r.stack % 16 * 2 ^ 38 + r.channel % 64 * 2 ^ 32 + r.row % 2 ^ 32)

/-- Whether the module has a row: 16 stacks, and a channel that DETAIL can name (R2, R376). -/
def HbmRow.exists_ (r : HbmRow) : Bool := decide (r.stack < 16 ∧ r.channel < 64 ∧ r.row < 2 ^ 32)

/-- The bank group of a row. -/
def HbmRow.bankGroup (r : HbmRow) : Nat := (r.group * 64 + r.channel) * 16 + r.stack

/-- Spare rows left in the bank group of a row. -/
def State.sparesOf (s : State) (r : HbmRow) : Nat := SMap.get 1 s.dsp.spares r.bankGroup

/-- A spare row of a row's bank group is spent. -/
def State.spend (s : State) (r : HbmRow) : State :=
  { s with dsp := { s.dsp with spares := SMap.set 1 s.dsp.spares r.bankGroup (s.sparesOf r - 1) } }

/-- A repair request is logged, and goes on with `act` where a spare row of the bank group is left (DEDUCED log 52). -/
def repairRow (s : State) (kind : Nat) (act : HbmRow → State → State) : Out :=
  match s.turn with
  | .event _ (.row r) =>
    if r.exists_ then
      let s := s.logEntry kind 0 0 0 r.detail
      .next (if s.sparesOf r = 0 then s else act r (s.spend r))
    else .next s
  | _ => .next s

/-- SOFT_REPAIR of a row: its channel is quiesced, or the request is refused. -/
def execSoftRepair (s : State) : Out :=
  repairRow s 8 (fun r s => { s with dsp := { s.dsp with quiesced := s.dsp.quiesced ++ [r] } })

/-- REPAIR_QUIESCE_END of a channel: the lines of the row that was asked for stand in the spare row with their bytes and poison, and
the channel goes on. -/
def execRepairQuiesceEnd (s : State) : Out :=
  match s.turn with
  | .event _ (.nat2 st ch) =>
    match s.dsp.quiesced.find? (fun r => decide (r.stack = st ∧ r.channel = ch)) with
    | some r => .next { s with dsp := { s.dsp with quiesced := s.dsp.quiesced.erase r, repaired := s.dsp.repaired ++ [r] } }
    | none => .next s
  | _ => .next s

/-- HARD_REPAIR of a row: recorded for the next reset, or refused. -/
def execHardRepair (s : State) : Out :=
  repairRow s 9 (fun r s => { s with dsp := { s.dsp with hardList := s.dsp.hardList ++ [r] } })

/-! ## Ageing (R380) -/

/-- WEAR of an ageing register. -/
def wearOf (w : Word) : Nat := w.toNat % 2 ^ 10

/-- A register value with reserved bits zero and WEAR saturated at 1,000. -/
def ageValue (w : Word) : Word :=
  BitVec.ofNat 64 (w.toNat / 2 ^ 16 % 2 ^ 32 * 2 ^ 16 + Nat.min 1000 (wearOf w))

/-- AGEING_THRESHOLD: a die's monitors give a new register value; a crossing of firmware's threshold is logged. -/
def execAgeingThreshold (s : State) : Out :=
  match s.turn with
  | .event _ (.natWord die w) =>
    if die < 4 then
      let old := s.ageing die
      let v := ageValue w
      let s : State := { s with dsp := { s.dsp with ageing := SMap.set ageReset s.dsp.ageing die v } }
      .next (if wearOf old < s.dsp.ageLimit ∧ s.dsp.ageLimit ≤ wearOf v then s.logEntry 0x0A 0 0 0 0 else s)
    else .next s
  | _ => .next s

end Sys2Proof.Machine
end

