-- ==== Sys2Proof/Machine/LaneFloat.lean ====
section
/-! DEFINITION. Floating-point lane instructions and conversions (R187 to R192). -/

namespace Sys2Proof.Machine

/-- f16 or b16, by the type bit of major FAH (R75). -/
def fahFmt (t : BitVec 1) : FFmt := if t = 0 then fmtF16 else fmtB16
/-- f32 or f64, by the type bit of major FAW (R75). -/
def fawFmt (t : BitVec 1) : FFmt := if t = 0 then fmtF32 else fmtF64
/-- The lane float type of NCVT: f32 or f16 (R77). -/
def ncvtFmt (t : BitVec 1) : FFmt := if t = 0 then fmtF32 else fmtF16
/-- Bits of a format's container. -/
def FFmt.bits (f : FFmt) : Nat := 1 + f.E + f.m + f.pad

/-- ADD.mode of a float type (R187). -/
def execFahAdd (x_s : BitVec 1) (m : BitVec 2) (b a d : BitVec 6) (s : State) : Out :=
  binary s 4 d.toNat a.toNat b.toNat (elems2 (fahFmt x_s).bits (fAdd (fahFmt x_s) m.toNat))

/-- SUB.mode of a float type (R187). -/
def execFahSub (x_s : BitVec 1) (m : BitVec 2) (b a d : BitVec 6) (s : State) : Out :=
  binary s 4 d.toNat a.toNat b.toNat (elems2 (fahFmt x_s).bits (fSub (fahFmt x_s) m.toNat))

/-- MUL.mode of a float type (R187). -/
def execFahMul (x_s : BitVec 1) (m : BitVec 2) (b a d : BitVec 6) (s : State) : Out :=
  binary s 4 d.toNat a.toNat b.toNat (elems2 (fahFmt x_s).bits (fMul (fahFmt x_s) m.toNat))

/-- DIV.mode of a float type (R187). -/
def execFahDiv (x_s : BitVec 1) (m : BitVec 2) (b a d : BitVec 6) (s : State) : Out :=
  binary s 4 d.toNat a.toNat b.toNat (elems2 (fahFmt x_s).bits (fDiv (fahFmt x_s) m.toNat))

/-- MIN (R51, R187). -/
def execFahMin (x_s : BitVec 1) (b a d : BitVec 6) (s : State) : Out :=
  binary s 4 d.toNat a.toNat b.toNat (elems2 (fahFmt x_s).bits (fMinMax (fahFmt x_s) false))

/-- MAX (R51, R187). -/
def execFahMax (x_s : BitVec 1) (b a d : BitVec 6) (s : State) : Out :=
  binary s 4 d.toNat a.toNat b.toNat (elems2 (fahFmt x_s).bits (fMinMax (fahFmt x_s) true))

/-- SQRT.mode (R52, R187). -/
def execFahSqrt (x_s : BitVec 1) (m : BitVec 2) (a d : BitVec 6) (s : State) : Out :=
  unary s 4 d.toNat a.toNat (elems1 (fahFmt x_s).bits (fSqrt (fahFmt x_s) m.toNat))

/-- CPSGN: the magnitude of x with the sign of y (R187). -/
def execFahCpsgn (x_s : BitVec 1) (b a d : BitVec 6) (s : State) : Out :=
  binary s 4 d.toNat a.toNat b.toNat (elems2 (fahFmt x_s).bits (fCpsgn (fahFmt x_s)))

/-- ADD.mode of a float type (R187). -/
def execFawAdd (x_s : BitVec 1) (m : BitVec 2) (b a d : BitVec 6) (s : State) : Out :=
  binary s 4 d.toNat a.toNat b.toNat (elems2 (fawFmt x_s).bits (fAdd (fawFmt x_s) m.toNat))

/-- SUB.mode of a float type (R187). -/
def execFawSub (x_s : BitVec 1) (m : BitVec 2) (b a d : BitVec 6) (s : State) : Out :=
  binary s 4 d.toNat a.toNat b.toNat (elems2 (fawFmt x_s).bits (fSub (fawFmt x_s) m.toNat))

/-- MUL.mode of a float type (R187). -/
def execFawMul (x_s : BitVec 1) (m : BitVec 2) (b a d : BitVec 6) (s : State) : Out :=
  binary s 4 d.toNat a.toNat b.toNat (elems2 (fawFmt x_s).bits (fMul (fawFmt x_s) m.toNat))

/-- DIV.mode of a float type (R187). -/
def execFawDiv (x_s : BitVec 1) (m : BitVec 2) (b a d : BitVec 6) (s : State) : Out :=
  binary s 4 d.toNat a.toNat b.toNat (elems2 (fawFmt x_s).bits (fDiv (fawFmt x_s) m.toNat))

/-- MIN (R51, R187). -/
def execFawMin (x_s : BitVec 1) (b a d : BitVec 6) (s : State) : Out :=
  binary s 4 d.toNat a.toNat b.toNat (elems2 (fawFmt x_s).bits (fMinMax (fawFmt x_s) false))

/-- MAX (R51, R187). -/
def execFawMax (x_s : BitVec 1) (b a d : BitVec 6) (s : State) : Out :=
  binary s 4 d.toNat a.toNat b.toNat (elems2 (fawFmt x_s).bits (fMinMax (fawFmt x_s) true))

/-- SQRT.mode (R52, R187). -/
def execFawSqrt (x_s : BitVec 1) (m : BitVec 2) (a d : BitVec 6) (s : State) : Out :=
  unary s 4 d.toNat a.toNat (elems1 (fawFmt x_s).bits (fSqrt (fawFmt x_s) m.toNat))

/-- CPSGN: the magnitude of x with the sign of y (R187). -/
def execFawCpsgn (x_s : BitVec 1) (b a d : BitVec 6) (s : State) : Out :=
  binary s 4 d.toNat a.toNat b.toNat (elems2 (fawFmt x_s).bits (fCpsgn (fawFmt x_s)))

/-- RCP of each sub-element, correctly rounded (R53, R54, R189). -/
def execRcp (t : BitVec 2) (a d : BitVec 6) (s : State) : Out :=
  unary s 4 d.toNat a.toNat (elems1 (laneFloat t.toNat).bits (fRcp (laneFloat t.toNat)))

/-- RSQ of each sub-element, correctly rounded (R53, R54, R189). -/
def execRsq (t : BitVec 2) (a d : BitVec 6) (s : State) : Out :=
  unary s 4 d.toNat a.toNat (elems1 (laneFloat t.toNat).bits (fRsq (laneFloat t.toNat)))

/-- EXP2 of each sub-element, correctly rounded (R53, R54, R189). -/
def execExp2 (t : BitVec 2) (a d : BitVec 6) (s : State) : Out :=
  unary s 4 d.toNat a.toNat (elems1 (laneFloat t.toNat).bits (fExp2 (laneFloat t.toNat)))

/-- LOG2 of each sub-element, correctly rounded (R53, R54, R189). -/
def execLog2 (t : BitVec 2) (a d : BitVec 6) (s : State) : Out :=
  unary s 4 d.toNat a.toNat (elems1 (laneFloat t.toNat).bits (fLog2 (laneFloat t.toNat)))

/-- SIN of each sub-element, correctly rounded (R53, R54, R189). -/
def execSin (t : BitVec 2) (a d : BitVec 6) (s : State) : Out :=
  unary s 4 d.toNat a.toNat (elems1 (laneFloat t.toNat).bits (fSin (laneFloat t.toNat)))

/-- COS of each sub-element, correctly rounded (R53, R54, R189). -/
def execCos (t : BitVec 2) (a d : BitVec 6) (s : State) : Out :=
  unary s 4 d.toNat a.toNat (elems1 (laneFloat t.toNat).bits (fCos (laneFloat t.toNat)))

/-- TANH of each sub-element, correctly rounded (R53, R54, R189). -/
def execTanh (t : BitVec 2) (a d : BitVec 6) (s : State) : Out :=
  unary s 4 d.toNat a.toNat (elems1 (laneFloat t.toNat).bits (fTanh (laneFloat t.toNat)))

/-- CMP of a float type (R50, R190). -/
def execFspecCmp (t : BitVec 2) (b a : BitVec 6) (c p : BitVec 3) (s : State) : Out :=
  compare2 s p.toNat a.toNat b.toNat (fun x y =>
    let f := laneFloat t.toNat
    fCompare f c.toNat (subElem x 0 f.bits) (subElem y 0 f.bits))

/-- FMA: exact product and sum, one rounding (R188). -/
def execFma (m : BitVec 2) (x_s : BitVec 1) (c : BitVec 5) (b a d : BitVec 6) (s : State) : Out :=
  ternary s 4 d.toNat a.toNat b.toNat c.toNat (elems3 (fawFmt x_s).bits (fFma (fawFmt x_s) m.toNat))

/-- The sub-elements that a conversion between widths moves: E = 64 / max of the widths; the rest of d is
cleared (R191). -/
def convertElems (ws wd : Nat) (f : Nat → Nat × Flags) (x : Word) : Word × Flags :=
  let o := packElems wd (64 / Nat.max ws wd) (fun i => f (subElem x i ws))
  (BitVec.ofNat 64 o.1, o.2)

/-- CVT.mode.dtype.stype (R57, R191). -/
def execCvt (t : BitVec 3) (e : BitVec 1) (m : BitVec 2) (x_s : BitVec 4) (a d : BitVec 6) (s : State) : Out :=
  unary s 4 d.toNat a.toNat (convertElems (typeWidth x_s.toNat) (typeWidth (e ++ t).toNat)
    (convertNum (laneKind x_s.toNat) (laneKind (e ++ t).toNat) m.toNat))

/-- CVTS: the saturating integer narrowing (R57, R191). -/
def execCvts (t : BitVec 3) (x_s : BitVec 4) (a d : BitVec 6) (s : State) : Out :=
  unary s 4 d.toNat a.toNat (convertElems (typeWidth x_s.toNat) (typeWidth t.toNat)
    (fun x => clampInt flagIV (intSigned t) (intWidth t) (readInt (decide (x_s.toNat < 4)) (typeWidth x_s.toNat) x)))

/-- CVTW: the wrapping integer narrowing (R57, R191). -/
def execCvtw (t : BitVec 3) (x_s : BitVec 4) (a d : BitVec 6) (s : State) : Out :=
  unary s 4 d.toNat a.toNat (convertElems (typeWidth x_s.toNat) (typeWidth t.toNat) (fun x => noFlag (x % 2 ^ typeWidth t.toNat)))

/-- The elements of a packed narrow register: n elements of holder width h (R192). -/
def packTo (F : FFmt) (h : Nat) (f : Nat → Nat × Flags) (x : Word) : Word × Flags :=
  let o := packElems h (64 / F.bits) (fun j => f (subElem x j F.bits))
  (BitVec.ofNat 64 o.1, o.2)

/-- Lane float elements from a packed narrow register (R192). -/
def unpackFrom (F : FFmt) (h : Nat) (f : Nat → Nat × Flags) (x : Word) : Word × Flags :=
  let o := packElems F.bits (64 / F.bits) (fun j => f (subElem x j h))
  (BitVec.ofNat 64 o.1, o.2)

/-- NPK.mode.fmt.F: packs converted elements (R192). -/
def execNpk (x_s : BitVec 1) (m : BitVec 2) (f : BitVec 5) (a d : BitVec 6) (s : State) : Out :=
  unary s 4 d.toNat a.toNat (packTo (ncvtFmt x_s) (holderWidth f.toNat)
    (convertNum (.flt (ncvtFmt x_s)) (matrixKind f.toNat) m.toNat))

/-- NUNP.fmt.F: unpacks to the lane float type, exactly (R192). -/
def execNunp (x_s : BitVec 1) (f : BitVec 5) (a d : BitVec 6) (s : State) : Out :=
  unary s 4 d.toNat a.toNat (unpackFrom (ncvtFmt x_s) (holderWidth f.toNat)
    (convertNum (matrixKind f.toNat) (.flt (ncvtFmt x_s)) 0))

/-- QNT.F: the Q16 index of each element under the scale in b (R40, R192). -/
def execQnt (x_s : BitVec 1) (b a d : BitVec 6) (s : State) : Out :=
  binary s 4 d.toNat a.toNat b.toNat (fun x y =>
    let F := ncvtFmt x_s
    packTo F 4 (fun e => q16Quantise (F.decode e) (F.decode (subElem y 0 F.bits))) x)

/-- DQNT.mode.F: L / 127 * c with one rounding (R192). -/
def execDqnt (x_s : BitVec 1) (m : BitVec 2) (b a d : BitVec 6) (s : State) : Out :=
  binary s 4 d.toNat a.toNat b.toNat (fun x y =>
    let F := ncvtFmt x_s
    unpackFrom F 4 (fun e => q16Dequantise F m.toNat e (F.decode (subElem y 0 F.bits))) x)

/-- TOE8.F: the E8M0 scale of each element (R58, R192). -/
def execToe8 (x_s : BitVec 1) (a d : BitVec 6) (s : State) : Out :=
  unary s 4 d.toNat a.toNat (packTo (ncvtFmt x_s) 8 (fun e => toE8M0 ((ncvtFmt x_s).decode e)))

/-- FRE8.mode.F: the value of each E8M0 scale, rounded (R58, R192). -/
def execFre8 (x_s : BitVec 1) (m : BitVec 2) (a d : BitVec 6) (s : State) : Out :=
  unary s 4 d.toNat a.toNat (unpackFrom (ncvtFmt x_s) 8 (fun e => (ncvtFmt x_s).deliver m.toNat (ofE8M0 e)))

end Sys2Proof.Machine
end

