-- ==== Sys2Proof/Machine/LaneInt.lean ====
section
/-! DEFINITION. Integer lane instructions (R182 to R186). -/

namespace Sys2Proof.Machine

/-- ADD: (x + y) modulo 2^w (R182). -/
def execAdd (t : BitVec 3) (b a d : BitVec 6) (s : State) : Out :=
  binary s 4 d.toNat a.toNat b.toNat (elems2 (intWidth t) (fun x y => noFlag ((x + y) % 2 ^ intWidth t)))

/-- SUB: (x - y) modulo 2^w (R182). -/
def execSub (t : BitVec 3) (b a d : BitVec 6) (s : State) : Out :=
  binary s 4 d.toNat a.toNat b.toNat (elems2 (intWidth t) (fun x y => noFlag (wrapInt (intWidth t) ((x : Int) - y))))

/-- MUL: (x * y) modulo 2^w (R182). -/
def execMul (t : BitVec 3) (b a d : BitVec 6) (s : State) : Out :=
  binary s 4 d.toNat a.toNat b.toNat (elems2 (intWidth t) (fun x y => noFlag (x * y % 2 ^ intWidth t)))

/-- MULH: the high half of the exact product (R182). -/
def execMulh (t : BitVec 3) (b a d : BitVec 6) (s : State) : Out :=
  binary s 4 d.toNat a.toNat b.toNat (elems2 (intWidth t) (fun x y => noFlag (wrapInt (intWidth t) (readInt (intSigned t) (intWidth t) x * readInt (intSigned t) (intWidth t) y / (2 ^ intWidth t : Nat)))))

/-- MIN: the smaller (R182). -/
def execMin (t : BitVec 3) (b a d : BitVec 6) (s : State) : Out :=
  binary s 4 d.toNat a.toNat b.toNat (elems2 (intWidth t) (fun x y => noFlag (if readInt (intSigned t) (intWidth t) x ≤ readInt (intSigned t) (intWidth t) y then x else y)))

/-- MAX: the larger (R182). -/
def execMax (t : BitVec 3) (b a d : BitVec 6) (s : State) : Out :=
  binary s 4 d.toNat a.toNat b.toNat (elems2 (intWidth t) (fun x y => noFlag (if readInt (intSigned t) (intWidth t) x ≤ readInt (intSigned t) (intWidth t) y then y else x)))

/-- ADDS: the sum clamped to the type, with IV when it clamps (R182). -/
def execAdds (t : BitVec 3) (b a d : BitVec 6) (s : State) : Out :=
  binary s 4 d.toNat a.toNat b.toNat (elems2 (intWidth t) (fun x y => clampInt flagIV (intSigned t) (intWidth t) (readInt (intSigned t) (intWidth t) x + readInt (intSigned t) (intWidth t) y)))

/-- SUBS: the difference clamped, with IV when it clamps (R182). -/
def execSubs (t : BitVec 3) (b a d : BitVec 6) (s : State) : Out :=
  binary s 4 d.toNat a.toNat b.toNat (elems2 (intWidth t) (fun x y => clampInt flagIV (intSigned t) (intWidth t) (readInt (intSigned t) (intWidth t) x - readInt (intSigned t) (intWidth t) y)))

/-- AND of whole registers (R183). -/
def execAnd (b a d : BitVec 6) (s : State) : Out :=
  binary s 4 d.toNat a.toNat b.toNat (fun x y => (x &&& y, 0))

/-- OR of whole registers (R183). -/
def execOr (b a d : BitVec 6) (s : State) : Out :=
  binary s 4 d.toNat a.toNat b.toNat (fun x y => (x ||| y, 0))

/-- XOR of whole registers (R183). -/
def execXor (b a d : BitVec 6) (s : State) : Out :=
  binary s 4 d.toNat a.toNat b.toNat (fun x y => (x ^^^ y, 0))

/-- ANDN: a AND NOT b (R183). -/
def execAndn (b a d : BitVec 6) (s : State) : Out :=
  binary s 4 d.toNat a.toNat b.toNat (fun x y => (x &&& ~~~y, 0))

/-- SHL by y modulo w (R182). -/
def execShl (t : BitVec 3) (b a d : BitVec 6) (s : State) : Out :=
  binary s 4 d.toNat a.toNat b.toNat (elems2 (intWidth t) (fun x y => noFlag (shlElem (intWidth t) x y)))

/-- SHR, n types: zeros enter (R182). -/
def execShr (t : BitVec 3) (b a d : BitVec 6) (s : State) : Out :=
  binary s 4 d.toNat a.toNat b.toNat (elems2 (intWidth t) (fun x y => noFlag (shrElem (intWidth t) x y)))

/-- SHRA, i types: the sign enters (R182). -/
def execShra (t : BitVec 3) (b a d : BitVec 6) (s : State) : Out :=
  binary s 4 d.toNat a.toNat b.toNat (elems2 (intWidth t) (fun x y => noFlag (shraElem (intWidth t) x y)))

/-- ROL by y modulo w (R182). -/
def execRol (t : BitVec 3) (b a d : BitVec 6) (s : State) : Out :=
  binary s 4 d.toNat a.toNat b.toNat (elems2 (intWidth t) (fun x y => noFlag (rolElem (intWidth t) x y)))

/-- SEL: a where p reads true, otherwise b; poisoned when p is, or the register copied is (R183). -/
def execSel (p : BitVec 3) (b a d : BitVec 6) (s : State) : Out :=
  laneOp s 4 [d.toNat, a.toNat, b.toNat] (fun r _ _ l =>
    let x := if l.pred p.toNat then l.reg r.trap a.toNat else l.reg r.trap b.toNat
    { regs := [(d.toNat, ⟨x.val, l.predPoison p.toNat || x.poison⟩)] })

/-- DIV: truncated quotient (R56, R182). -/
def execDiv (t : BitVec 3) (b a d : BitVec 6) (s : State) : Out :=
  binary s 4 d.toNat a.toNat b.toNat (elems2 (intWidth t) (fun x y => intDiv (intSigned t) (intWidth t) x y))

/-- REM: remainder (R56, R182). -/
def execRem (t : BitVec 3) (b a d : BitVec 6) (s : State) : Out :=
  binary s 4 d.toNat a.toNat b.toNat (elems2 (intWidth t) (fun x y => intRem (intSigned t) (intWidth t) x y))

/-- CLZ: leading zero bits, 0 to w (R182). -/
def execClz (t : BitVec 3) (a d : BitVec 6) (s : State) : Out :=
  unary s 4 d.toNat a.toNat (elems1 (intWidth t) (fun x => noFlag (leadingZeros (intWidth t) x)))

/-- POPC: one bits (R182). -/
def execPopc (t : BitVec 3) (a d : BitVec 6) (s : State) : Out :=
  unary s 4 d.toNat a.toNat (elems1 (intWidth t) (fun x => noFlag (popcount (intWidth t) x)))

/-- BREV: bit k moves to bit w - 1 - k (R182). -/
def execBrev (t : BitVec 3) (a d : BitVec 6) (s : State) : Out :=
  unary s 4 d.toNat a.toNat (elems1 (intWidth t) (fun x => noFlag (bitReverse (intWidth t) x)))

/-- ABS, i types: |x| modulo 2^w (R182). -/
def execAbs (t : BitVec 2) (a d : BitVec 6) (s : State) : Out :=
  unary s 4 d.toNat a.toNat (elems1 (widthOf t) (fun x => noFlag (wrapInt (widthOf t) (asSigned (widthOf t) x).natAbs)))

/-- ABSD: |x - y| exactly, as an unsigned value (R182). -/
def execAbsd (t : BitVec 3) (b a d : BitVec 6) (s : State) : Out :=
  binary s 4 d.toNat a.toNat b.toNat (elems2 (intWidth t) (fun x y => noFlag (readInt (intSigned t) (intWidth t) x - readInt (intSigned t) (intWidth t) y).natAbs))

/-- CMP of sub-elements 0 into a predicate (R184). -/
def execCmp (t : BitVec 3) (b a : BitVec 6) (c p : BitVec 3) (s : State) : Out :=
  compare2 s p.toNat a.toNat b.toNat (fun x y =>
    (intCompare c.toNat (readInt (intSigned t) (intWidth t) (subElem x 0 (intWidth t))) (readInt (intSigned t) (intWidth t) (subElem y 0 (intWidth t))), 0))

/-- ADD with a sign-extended immediate (R185). -/
def execAddi (w : BitVec 2) (i : BitVec 12) (a d : BitVec 6) (s : State) : Out :=
  unary s 4 d.toNat a.toNat (elems1 (widthOf w) (fun x => noFlag (wrapInt (widthOf w) (x + i.toInt))))

/-- AND with sext(k, 64) (R185). -/
def execLogiAnd (i : BitVec 12) (a d : BitVec 6) (s : State) : Out :=
  unary s 4 d.toNat a.toNat (fun x => (x &&& imm12 i, 0))

/-- OR with sext(k, 64) (R185). -/
def execLogiOr (i : BitVec 12) (a d : BitVec 6) (s : State) : Out :=
  unary s 4 d.toNat a.toNat (fun x => (x ||| imm12 i, 0))

/-- XOR with sext(k, 64) (R185). -/
def execLogiXor (i : BitVec 12) (a d : BitVec 6) (s : State) : Out :=
  unary s 4 d.toNat a.toNat (fun x => (x ^^^ imm12 i, 0))

/-- ANDN with sext(k, 64) (R185). -/
def execLogiAndn (i : BitVec 12) (a d : BitVec 6) (s : State) : Out :=
  unary s 4 d.toNat a.toNat (fun x => (x &&& ~~~(imm12 i), 0))

/-- SHL by an immediate count (R185). -/
def execShfiShl (w : BitVec 2) (n a d : BitVec 6) (s : State) : Out :=
  unary s 4 d.toNat a.toNat (elems1 (widthOf w) (fun x => noFlag (shlElem (widthOf w) x n.toNat)))

/-- SHR by an immediate count (R185). -/
def execShfiShr (w : BitVec 2) (n a d : BitVec 6) (s : State) : Out :=
  unary s 4 d.toNat a.toNat (elems1 (widthOf w) (fun x => noFlag (shrElem (widthOf w) x n.toNat)))

/-- SHRA by an immediate count (R185). -/
def execShfiShra (w : BitVec 2) (n a d : BitVec 6) (s : State) : Out :=
  unary s 4 d.toNat a.toNat (elems1 (widthOf w) (fun x => noFlag (shraElem (widthOf w) x n.toNat)))

/-- ROL by an immediate count (R185). -/
def execShfiRol (w : BitVec 2) (n a d : BitVec 6) (s : State) : Out :=
  unary s 4 d.toNat a.toNat (elems1 (widthOf w) (fun x => noFlag (rolElem (widthOf w) x n.toNat)))

/-- CMP with an immediate: conditions 0 to 5 signed, 6 lo and 7 hi unsigned (R185). -/
def execCmpi (w : BitVec 2) (i : BitVec 12) (a : BitVec 6) (c p : BitVec 3) (s : State) : Out :=
  laneOp s 4 [a.toNat] (fun r _ _ l =>
    let x := l.reg r.trap a.toNat
    let wd := widthOf w
    let u := subElem x.val 0 wd
    let k := wrapInt wd i.toInt
    let res :=
      if c.toNat = 6 then decide (u < k)
      else if c.toNat = 7 then decide (k < u)
      else intCompare c.toNat (asSigned wd u) (asSigned wd k)
    { preds := [(p.toNat, res, x.poison)] })

/-- LU: d := sext(imm20 * 4096) from bit 31 (R79). -/
def execLu (i : BitVec 20) (d : BitVec 6) (s : State) : Out :=
  laneOp s 4 [d.toNat] (fun _ _ _ _ => { regs := [(d.toNat, ⟨((i ++ (0 : BitVec 12)) : BitVec 32).signExtend 64, false⟩)] })

/-- Compact MOV: d := b, with its poison (R186). -/
def execLcMov (b : BitVec 5) (d : BitVec 6) (s : State) : Out :=
  unary s 2 d.toNat b.toNat (fun x => (x, 0))

/-- Compact ADD.i32 (R186). -/
def execLcAddI32 (b : BitVec 5) (d : BitVec 6) (s : State) : Out :=
  binary s 2 d.toNat d.toNat b.toNat (elems2 32 (fun x y => noFlag ((x + y) % 2 ^ 32)))

/-- Compact SUB.i32 (R186). -/
def execLcSubI32 (b : BitVec 5) (d : BitVec 6) (s : State) : Out :=
  binary s 2 d.toNat d.toNat b.toNat (elems2 32 (fun x y => noFlag (wrapInt 32 ((x : Int) - y))))

/-- Compact AND (R186). -/
def execLcAnd (b : BitVec 5) (d : BitVec 6) (s : State) : Out :=
  binary s 2 d.toNat d.toNat b.toNat (fun x y => (x &&& y, 0))

/-- Compact OR (R186). -/
def execLcOr (b : BitVec 5) (d : BitVec 6) (s : State) : Out :=
  binary s 2 d.toNat d.toNat b.toNat (fun x y => (x ||| y, 0))

/-- Compact XOR (R186). -/
def execLcXor (b : BitVec 5) (d : BitVec 6) (s : State) : Out :=
  binary s 2 d.toNat d.toNat b.toNat (fun x y => (x ^^^ y, 0))

/-- Compact SHL.i32 (R186). -/
def execLcShlI32 (b : BitVec 5) (d : BitVec 6) (s : State) : Out :=
  binary s 2 d.toNat d.toNat b.toNat (elems2 32 (fun x y => noFlag (shlElem 32 x y)))

/-- Compact SHR.n32 (R186). -/
def execLcShrN32 (b : BitVec 5) (d : BitVec 6) (s : State) : Out :=
  binary s 2 d.toNat d.toNat b.toNat (elems2 32 (fun x y => noFlag (shrElem 32 x y)))

/-- Compact SHRA.i32 (R186). -/
def execLcShraI32 (b : BitVec 5) (d : BitVec 6) (s : State) : Out :=
  binary s 2 d.toNat d.toNat b.toNat (elems2 32 (fun x y => noFlag (shraElem 32 x y)))

/-- Compact ADD.f32, RNE (R186). -/
def execLcAddF32 (b : BitVec 5) (d : BitVec 6) (s : State) : Out :=
  binary s 2 d.toNat d.toNat b.toNat (elems2 32 (fAdd fmtF32 0))

/-- Compact SUB.f32, RNE (R186). -/
def execLcSubF32 (b : BitVec 5) (d : BitVec 6) (s : State) : Out :=
  binary s 2 d.toNat d.toNat b.toNat (elems2 32 (fSub fmtF32 0))

/-- Compact MUL.f32, RNE (R186). -/
def execLcMulF32 (b : BitVec 5) (d : BitVec 6) (s : State) : Out :=
  binary s 2 d.toNat d.toNat b.toNat (elems2 32 (fMul fmtF32 0))

/-- Compact MIN.f32 (R186). -/
def execLcMinF32 (b : BitVec 5) (d : BitVec 6) (s : State) : Out :=
  binary s 2 d.toNat d.toNat b.toNat (elems2 32 (fMinMax fmtF32 false))

/-- Compact MAX.f32 (R186). -/
def execLcMaxF32 (b : BitVec 5) (d : BitVec 6) (s : State) : Out :=
  binary s 2 d.toNat d.toNat b.toNat (elems2 32 (fMinMax fmtF32 true))

/-- Compact ADD.i64 (R186). -/
def execLcAddI64 (b : BitVec 5) (d : BitVec 6) (s : State) : Out :=
  binary s 2 d.toNat d.toNat b.toNat (fun x y => (x + y, 0))

/-- Compact NEG.f32 (R186). -/
def execLcNegF32 (b : BitVec 5) (d : BitVec 6) (s : State) : Out :=
  unary s 2 d.toNat b.toNat (elems1 32 (fNeg fmtF32))

end Sys2Proof.Machine
end

