-- ==== Sys2Proof/Machine/Qru.lean ====
section
/-! DEFINITION. The quasi-random unit (R337 to R343). -/

namespace Sys2Proof.Machine

/-- Direction number k of dimension d in a snapshot: sixteen doublewords per dimension, then one seed record per
dimension (R337). -/
def Grid.dirNum (g : Grid) (d k : Nat) : Nat := (g.qr.getD (16 * d + k / 2) 0).toNat / 2 ^ (32 * (k % 2)) % 2 ^ 32

/-- The seed record of dimension d (R337). -/
def Grid.seedRec (g : Grid) (d : Nat) : Nat := (g.qr.getD (16 * g.rcd.qrdims + d) 0).toNat

/-- X(d, i): the direction numbers that the set bits of i select (R340). -/
def Grid.qrX (g : Grid) (d i : Nat) : Nat :=
  (List.range 32).foldl (fun x k => if i.testBit k then x ^^^ g.dirNum d k else x) 0

/-- The hash of R340. -/
def qrMix (z : Nat) : Nat :=
  let z := z ^^^ z / 2 ^ 16
  let z := z * 0x6A5D39E9 % 2 ^ 32
  let z := z ^^^ z / 2 ^ 15
  let z := z * 0x8B3F2C47 % 2 ^ 32
  z ^^^ z / 2 ^ 16

/-- Bit j of H(x, s) (R340). -/
def qrHBit (x s j : Nat) : Bool :=
  let p := x / 2 ^ (j + 1) ||| 2 ^ (31 - j)
  x.testBit j != (qrMix (p ^^^ qrMix (s ^^^ j))).testBit 31

/-- The scramble H(x, s) (R340). -/
def qrH (x s : Nat) : Nat := (List.range 32).foldl (fun y j => if qrHBit x s j then y + 2 ^ j else y) 0

/-- The point P(d, i) (R340). -/
def Grid.qrPoint (g : Grid) (d i : Nat) : Nat :=
  let r := g.seedRec d
  if r.testBit 32 then qrH (g.qrX d i) (r % 2 ^ 32) else g.qrX d i

/-- A table-reading QRU instruction: a dimension at or above QRDIMS in any active lane traps in every lane
(R341, R342). -/
def qruTable (s : State) (b a d : Nat) (f : Nat → Nat × Flags) : Out :=
  onRunRegs s [d, a, b] (fun r s =>
    let g := s.gridOf r.team
    let t := s.team r.team
    let beyond := r.lanes.any (fun n =>
      let x := ((t.lane n).reg r.trap a).val
      (List.range 2).any (fun i => decide (g.rcd.qrdims ≤ subElem x i 32)))
    if beyond then trapAll s r 0x0F 1
    else
      finishLanes s r 4 (fun _ l =>
        let x := l.reg r.trap a
        let y := l.reg r.trap b
        let o := elems2 32 (fun p q => f (g.qrPoint p q)) x.val y.val
        { regs := [(d, ⟨o.1, x.poison || y.poison⟩)] }))

/-- QRN (R341). -/
def execQrn (b a d : BitVec 6) (s : State) : Out := qruTable s b.toNat a.toNat d.toNat noFlag
/-- QRNF: the top 24 bits as an exact f32 fraction (R341). -/
def execQrnf (b a d : BitVec 6) (s : State) : Out :=
  qruTable s b.toNat a.toNat d.toNat (fun p => deliverExact fmtF32 0 (.fin false (p / 256) (2 ^ 24), 0))
/-- QRSEED: the scramble, without a table (R341). -/
def execQrseed (b a d : BitVec 6) (s : State) : Out :=
  binary s 4 d.toNat a.toNat b.toNat (fun x y => ((elems2 32 (fun p q => noFlag (qrH p q)) x y).1, 0))

end Sys2Proof.Machine
end

