-- ==== Sys2Proof/Machine/SeqInt.lean ====
section
/-! DEFINITION. Sequencer arithmetic (R86, R87, R147): 64-bit two's complement, no flag, no poison. -/

namespace Sys2Proof.Machine

/-- d := f s(a) s(b). -/
def seqBin (s : State) (b a d : BitVec 5) (f : Word → Word → Word) : Out :=
  seqOp s 4 (fun q => q.setReg d.toNat (f (q.reg a.toNat) (q.reg b.toNat)))

/-- d := f s(a) with an immediate sign-extended to 64 bits. -/
def seqImm (s : State) (i : BitVec 16) (a d : BitVec 5) (f : Word → Word → Word) : Out :=
  seqOp s 4 (fun q => q.setReg d.toNat (f (q.reg a.toNat) (i.signExtend 64)))

/-- d := f s(d) s(b), 16-bit encodings (R86). -/
def seqCompact (s : State) (b d : BitVec 5) (f : Word → Word → Word) : Out :=
  seqOp s 2 (fun q => q.setReg d.toNat (f (q.reg d.toNat) (q.reg b.toNat)))

/-- Shifts by a count modulo 64. -/
def shl64 (x n : Word) : Word := x <<< (n.toNat % 64)
def shr64 (x n : Word) : Word := x >>> (n.toNat % 64)
def shra64 (x n : Word) : Word := x.sshiftRight (n.toNat % 64)
/-- The smaller and the larger. -/
def minS (x y : Word) : Word := if x.toInt ≤ y.toInt then x else y
def maxS (x y : Word) : Word := if x.toInt ≤ y.toInt then y else x
def minU (x y : Word) : Word := if x.toNat ≤ y.toNat then x else y
def maxU (x y : Word) : Word := if x.toNat ≤ y.toNat then y else x
/-- 1 or 0. -/
def bitWord (b : Bool) : Word := if b then 1 else 0

/-- ADD (R147). -/
def execSaluAdd (b a d : BitVec 5) (s : State) : Out := seqBin s b a d (· + ·)
/-- SUB (R147). -/
def execSaluSub (b a d : BitVec 5) (s : State) : Out := seqBin s b a d (· - ·)
/-- AND (R147). -/
def execSaluAnd (b a d : BitVec 5) (s : State) : Out := seqBin s b a d (· &&& ·)
/-- OR (R147). -/
def execSaluOr (b a d : BitVec 5) (s : State) : Out := seqBin s b a d (· ||| ·)
/-- XOR (R147). -/
def execSaluXor (b a d : BitVec 5) (s : State) : Out := seqBin s b a d (· ^^^ ·)
/-- SHL by s(b) modulo 64 (R147). -/
def execSaluShl (b a d : BitVec 5) (s : State) : Out := seqBin s b a d shl64
/-- SHR: fills with zeros (R147). -/
def execSaluShr (b a d : BitVec 5) (s : State) : Out := seqBin s b a d shr64
/-- SHRA: fills with the sign (R147). -/
def execSaluShra (b a d : BitVec 5) (s : State) : Out := seqBin s b a d shra64
/-- MUL: the low 64 bits (R147). -/
def execSmulMul (b a d : BitVec 5) (s : State) : Out := seqBin s b a d (· * ·)
/-- MULHS: the high 64 bits of the signed product (R147). -/
def execSmulMulhs (b a d : BitVec 5) (s : State) : Out :=
  seqBin s b a d (fun x y => BitVec.ofInt 64 (x.toInt * y.toInt / 2 ^ 64))
/-- MULHU: the high 64 bits of the unsigned product (R147). -/
def execSmulMulhu (b a d : BitVec 5) (s : State) : Out :=
  seqBin s b a d (fun x y => BitVec.ofNat 64 (x.toNat * y.toNat / 2 ^ 64))
/-- DIV, signed (R147, R56). -/
def execSmulDiv (b a d : BitVec 5) (s : State) : Out :=
  seqBin s b a d (fun x y => BitVec.ofNat 64 (intDiv true 64 x.toNat y.toNat).1)
/-- DIVU (R147, R56). -/
def execSmulDivu (b a d : BitVec 5) (s : State) : Out :=
  seqBin s b a d (fun x y => BitVec.ofNat 64 (intDiv false 64 x.toNat y.toNat).1)
/-- REM, signed (R147, R56). -/
def execSmulRem (b a d : BitVec 5) (s : State) : Out :=
  seqBin s b a d (fun x y => BitVec.ofNat 64 (intRem true 64 x.toNat y.toNat).1)
/-- REMU (R147, R56). -/
def execSmulRemu (b a d : BitVec 5) (s : State) : Out :=
  seqBin s b a d (fun x y => BitVec.ofNat 64 (intRem false 64 x.toNat y.toNat).1)
/-- MIN, signed (R147). -/
def execScmpMin (b a d : BitVec 5) (s : State) : Out := seqBin s b a d minS
/-- MAX, signed (R147). -/
def execScmpMax (b a d : BitVec 5) (s : State) : Out := seqBin s b a d maxS
/-- MINU (R147). -/
def execScmpMinu (b a d : BitVec 5) (s : State) : Out := seqBin s b a d minU
/-- MAXU (R147). -/
def execScmpMaxu (b a d : BitVec 5) (s : State) : Out := seqBin s b a d maxU
/-- SLT (R147). -/
def execScmpSlt (b a d : BitVec 5) (s : State) : Out := seqBin s b a d (fun x y => bitWord (decide (x.toInt < y.toInt)))
/-- SLTU (R147). -/
def execScmpSltu (b a d : BitVec 5) (s : State) : Out := seqBin s b a d (fun x y => bitWord (decide (x.toNat < y.toNat)))
/-- SEQ (R147). -/
def execScmpSeq (b a d : BitVec 5) (s : State) : Out := seqBin s b a d (fun x y => bitWord (decide (x = y)))

/-- ADD immediate (R147). -/
def execSiAdd (i : BitVec 16) (a d : BitVec 5) (s : State) : Out := seqImm s i a d (· + ·)
/-- AND immediate (R147). -/
def execSiAnd (i : BitVec 16) (a d : BitVec 5) (s : State) : Out := seqImm s i a d (· &&& ·)
/-- OR immediate (R147). -/
def execSiOr (i : BitVec 16) (a d : BitVec 5) (s : State) : Out := seqImm s i a d (· ||| ·)
/-- XOR immediate (R147). -/
def execSiXor (i : BitVec 16) (a d : BitVec 5) (s : State) : Out := seqImm s i a d (· ^^^ ·)
/-- ADDHI (R147). -/
def execAddhi (i : BitVec 16) (a d : BitVec 5) (s : State) : Out := seqImm s i a d (fun x k => x + k * 65536)

/-- SHL by an immediate count (R87). -/
def execShiftShl (n : BitVec 6) (a d : BitVec 5) (s : State) : Out :=
  seqOp s 4 (fun q => q.setReg d.toNat (q.reg a.toNat <<< n.toNat))
/-- SHR by an immediate count (R87). -/
def execShiftShr (n : BitVec 6) (a d : BitVec 5) (s : State) : Out :=
  seqOp s 4 (fun q => q.setReg d.toNat (q.reg a.toNat >>> n.toNat))
/-- SHRA by an immediate count (R87). -/
def execShiftShra (n : BitVec 6) (a d : BitVec 5) (s : State) : Out :=
  seqOp s 4 (fun q => q.setReg d.toNat ((q.reg a.toNat).sshiftRight n.toNat))
/-- ROL by an immediate count (R87). -/
def execShiftRol (n : BitVec 6) (a d : BitVec 5) (s : State) : Out :=
  seqOp s 4 (fun q => q.setReg d.toNat ((q.reg a.toNat).rotateLeft n.toNat))

/-- MOV (R86). -/
def execScMov (b d : BitVec 5) (s : State) : Out := seqCompact s b d (fun _ y => y)
/-- ADD (R86). -/
def execScAdd (b d : BitVec 5) (s : State) : Out := seqCompact s b d (· + ·)
/-- SUB (R86). -/
def execScSub (b d : BitVec 5) (s : State) : Out := seqCompact s b d (· - ·)
/-- AND (R86). -/
def execScAnd (b d : BitVec 5) (s : State) : Out := seqCompact s b d (· &&& ·)
/-- OR (R86). -/
def execScOr (b d : BitVec 5) (s : State) : Out := seqCompact s b d (· ||| ·)
/-- XOR (R86). -/
def execScXor (b d : BitVec 5) (s : State) : Out := seqCompact s b d (· ^^^ ·)
/-- SHL (R86). -/
def execScShl (b d : BitVec 5) (s : State) : Out := seqCompact s b d shl64
/-- SHR (R86). -/
def execScShr (b d : BitVec 5) (s : State) : Out := seqCompact s b d shr64
/-- SHRA (R86). -/
def execScShra (b d : BitVec 5) (s : State) : Out := seqCompact s b d shra64
/-- MUL (R86). -/
def execScMul (b d : BitVec 5) (s : State) : Out := seqCompact s b d (· * ·)
/-- MIN (R86). -/
def execScMin (b d : BitVec 5) (s : State) : Out := seqCompact s b d minS
/-- MAX (R86). -/
def execScMax (b d : BitVec 5) (s : State) : Out := seqCompact s b d maxS
/-- MINU (R86). -/
def execScMinu (b d : BitVec 5) (s : State) : Out := seqCompact s b d minU
/-- MAXU (R86). -/
def execScMaxu (b d : BitVec 5) (s : State) : Out := seqCompact s b d maxU
/-- NEG: minus b (R86). -/
def execScNeg (b d : BitVec 5) (s : State) : Out := seqCompact s b d (fun _ y => -y)
/-- NOT: the complement of b (R86). -/
def execScNot (b d : BitVec 5) (s : State) : Out := seqCompact s b d (fun _ y => ~~~y)

end Sys2Proof.Machine
end

