-- ==== Sys2Proof/Machine/Dispatch.lean ====
section
/-! DEFINITION. The dispatch of every instruction and event to its meaning. -/

namespace Sys2Proof.Machine

def exec (i : Instr) (s : State) : Host.Outcome State Fault Refusal :=
  match i with
  | .add _ _ t b a d => Sys2Proof.Machine.execAdd t b a d s
  | .sub _ _ t b a d => Sys2Proof.Machine.execSub t b a d s
  | .mul _ _ t b a d => Sys2Proof.Machine.execMul t b a d s
  | .mulh _ _ t b a d => Sys2Proof.Machine.execMulh t b a d s
  | .min _ _ t b a d => Sys2Proof.Machine.execMin t b a d s
  | .max _ _ t b a d => Sys2Proof.Machine.execMax t b a d s
  | .adds _ _ t b a d => Sys2Proof.Machine.execAdds t b a d s
  | .subs _ _ t b a d => Sys2Proof.Machine.execSubs t b a d s
  | .and _ _ b a d => Sys2Proof.Machine.execAnd b a d s
  | .or _ _ b a d => Sys2Proof.Machine.execOr b a d s
  | .xor _ _ b a d => Sys2Proof.Machine.execXor b a d s
  | .andn _ _ b a d => Sys2Proof.Machine.execAndn b a d s
  | .shl _ _ t b a d => Sys2Proof.Machine.execShl t b a d s
  | .shr _ _ t b a d => Sys2Proof.Machine.execShr t b a d s
  | .shra _ _ t b a d => Sys2Proof.Machine.execShra t b a d s
  | .rol _ _ t b a d => Sys2Proof.Machine.execRol t b a d s
  | .sel _ _ p b a d => Sys2Proof.Machine.execSel p b a d s
  | .div _ _ t b a d => Sys2Proof.Machine.execDiv t b a d s
  | .rem _ _ t b a d => Sys2Proof.Machine.execRem t b a d s
  | .clz _ _ t a d => Sys2Proof.Machine.execClz t a d s
  | .popc _ _ t a d => Sys2Proof.Machine.execPopc t a d s
  | .brev _ _ t a d => Sys2Proof.Machine.execBrev t a d s
  | .abs _ _ t a d => Sys2Proof.Machine.execAbs t a d s
  | .absd _ _ t b a d => Sys2Proof.Machine.execAbsd t b a d s
  | .cmp _ _ t b a c p => Sys2Proof.Machine.execCmp t b a c p s
  | .addi w imm a d => Sys2Proof.Machine.execAddi w imm a d s
  | .logiAnd imm a d => Sys2Proof.Machine.execLogiAnd imm a d s
  | .logiOr imm a d => Sys2Proof.Machine.execLogiOr imm a d s
  | .logiXor imm a d => Sys2Proof.Machine.execLogiXor imm a d s
  | .logiAndn imm a d => Sys2Proof.Machine.execLogiAndn imm a d s
  | .shfiShl w n a d => Sys2Proof.Machine.execShfiShl w n a d s
  | .shfiShr w n a d => Sys2Proof.Machine.execShfiShr w n a d s
  | .shfiShra w n a d => Sys2Proof.Machine.execShfiShra w n a d s
  | .shfiRol w n a d => Sys2Proof.Machine.execShfiRol w n a d s
  | .cmpi w imm a c p => Sys2Proof.Machine.execCmpi w imm a c p s
  | .fahAdd _ _ x_s m b a d => Sys2Proof.Machine.execFahAdd x_s m b a d s
  | .fahSub _ _ x_s m b a d => Sys2Proof.Machine.execFahSub x_s m b a d s
  | .fahMul _ _ x_s m b a d => Sys2Proof.Machine.execFahMul x_s m b a d s
  | .fahDiv _ _ x_s m b a d => Sys2Proof.Machine.execFahDiv x_s m b a d s
  | .fahMin _ _ x_s b a d => Sys2Proof.Machine.execFahMin x_s b a d s
  | .fahMax _ _ x_s b a d => Sys2Proof.Machine.execFahMax x_s b a d s
  | .fahSqrt _ _ x_s m a d => Sys2Proof.Machine.execFahSqrt x_s m a d s
  | .fahCpsgn _ _ x_s b a d => Sys2Proof.Machine.execFahCpsgn x_s b a d s
  | .fawAdd _ _ x_s m b a d => Sys2Proof.Machine.execFawAdd x_s m b a d s
  | .fawSub _ _ x_s m b a d => Sys2Proof.Machine.execFawSub x_s m b a d s
  | .fawMul _ _ x_s m b a d => Sys2Proof.Machine.execFawMul x_s m b a d s
  | .fawDiv _ _ x_s m b a d => Sys2Proof.Machine.execFawDiv x_s m b a d s
  | .fawMin _ _ x_s b a d => Sys2Proof.Machine.execFawMin x_s b a d s
  | .fawMax _ _ x_s b a d => Sys2Proof.Machine.execFawMax x_s b a d s
  | .fawSqrt _ _ x_s m a d => Sys2Proof.Machine.execFawSqrt x_s m a d s
  | .fawCpsgn _ _ x_s b a d => Sys2Proof.Machine.execFawCpsgn x_s b a d s
  | .rcp _ _ t a d => Sys2Proof.Machine.execRcp t a d s
  | .rsq _ _ t a d => Sys2Proof.Machine.execRsq t a d s
  | .exp2 _ _ t a d => Sys2Proof.Machine.execExp2 t a d s
  | .log2 _ _ t a d => Sys2Proof.Machine.execLog2 t a d s
  | .sin _ _ t a d => Sys2Proof.Machine.execSin t a d s
  | .cos _ _ t a d => Sys2Proof.Machine.execCos t a d s
  | .tanh _ _ t a d => Sys2Proof.Machine.execTanh t a d s
  | .fspecCmp _ _ t b a c p => Sys2Proof.Machine.execFspecCmp t b a c p s
  | .fma m x_s c b a d => Sys2Proof.Machine.execFma m x_s c b a d s
  | .cvt _ _ t e m x_s a d => Sys2Proof.Machine.execCvt t e m x_s a d s
  | .cvts _ _ t x_s a d => Sys2Proof.Machine.execCvts t x_s a d s
  | .cvtw _ _ t x_s a d => Sys2Proof.Machine.execCvtw t x_s a d s
  | .npk _ _ x_s m f a d => Sys2Proof.Machine.execNpk x_s m f a d s
  | .nunp _ _ x_s f a d => Sys2Proof.Machine.execNunp x_s f a d s
  | .qnt _ _ x_s b a d => Sys2Proof.Machine.execQnt x_s b a d s
  | .dqnt _ _ x_s m b a d => Sys2Proof.Machine.execDqnt x_s m b a d s
  | .toe8 _ _ x_s a d => Sys2Proof.Machine.execToe8 x_s a d s
  | .fre8 _ _ x_s m a d => Sys2Proof.Machine.execFre8 x_s m a d s
  | .shfl _ _ w b a d => Sys2Proof.Machine.execShfl w b a d s
  | .shflx _ _ w b a d => Sys2Proof.Machine.execShflx w b a d s
  | .shflu _ _ w b a d => Sys2Proof.Machine.execShflu w b a d s
  | .shfld _ _ w b a d => Sys2Proof.Machine.execShfld w b a d s
  | .voteAny _ _ x_s p => Sys2Proof.Machine.execVoteAny x_s p s
  | .voteAll _ _ x_s p => Sys2Proof.Machine.execVoteAll x_s p s
  | .voteBallot _ _ x_s d => Sys2Proof.Machine.execVoteBallot x_s d s
  | .matchLanes _ _ w b a d => Sys2Proof.Machine.execMatchLanes w b a d s
  | .rdc _ _ o t a d => Sys2Proof.Machine.execRdc o t a d s
  | .scan _ _ o t a d => Sys2Proof.Machine.execScan o t a d s
  | .xiShfl w l x_s a d => Sys2Proof.Machine.execXiShfl w l x_s a d s
  | .xiShflx w l a d => Sys2Proof.Machine.execXiShflx w l a d s
  | .xiShflu w l a d => Sys2Proof.Machine.execXiShflu w l a d s
  | .xiShfld w l a d => Sys2Proof.Machine.execXiShfld w l a d s
  | .lu imm d => Sys2Proof.Machine.execLu imm d s
  | .atom _ _ t o b a d => Sys2Proof.Machine.execAtom t o b a d s
  | .redD _ _ t o b a => Sys2Proof.Machine.execRedD t o b a s
  | .ld8 _ o b d => Sys2Proof.Machine.execLd8 o b d s
  | .ld16 _ o b d => Sys2Proof.Machine.execLd16 o b d s
  | .ld32 _ o b d => Sys2Proof.Machine.execLd32 o b d s
  | .ld64 _ o b d => Sys2Proof.Machine.execLd64 o b d s
  | .ldv128 _ o b d => Sys2Proof.Machine.execLdv128 o b d s
  | .ldv256 _ o b d => Sys2Proof.Machine.execLdv256 o b d s
  | .ldv512 _ o b d => Sys2Proof.Machine.execLdv512 o b d s
  | .st8 _ o b d => Sys2Proof.Machine.execSt8 o b d s
  | .st16 _ o b d => Sys2Proof.Machine.execSt16 o b d s
  | .st32 _ o b d => Sys2Proof.Machine.execSt32 o b d s
  | .st64 _ o b d => Sys2Proof.Machine.execSt64 o b d s
  | .stv128 _ o b d => Sys2Proof.Machine.execStv128 o b d s
  | .stv256 _ o b d => Sys2Proof.Machine.execStv256 o b d s
  | .stv512 _ o b d => Sys2Proof.Machine.execStv512 o b d s
  | .movs x_s d => Sys2Proof.Machine.execMovs x_s d s
  | .setsStklim a => Sys2Proof.Machine.execSetsStklim a s
  | .setsLepc a => Sys2Proof.Machine.execSetsLepc a s
  | .setsLflags a => Sys2Proof.Machine.execSetsLflags a s
  | .setsBmode a => Sys2Proof.Machine.execSetsBmode a s
  | .trap n => Sys2Proof.Machine.execTrap n s
  | .jmpr a => Sys2Proof.Machine.execJmpr a s
  | .ret a => Sys2Proof.Machine.execRet a s
  | .enter n => Sys2Proof.Machine.execEnter n s
  | .leave n => Sys2Proof.Machine.execLeave n s
  | .ppack d => Sys2Proof.Machine.execPpack d s
  | .punpk a => Sys2Proof.Machine.execPunpk a s
  | .pfi o => Sys2Proof.Machine.execPfi o s
  | .prfL1 a => Sys2Proof.Machine.execPrfL1 a s
  | .prfMsc a => Sys2Proof.Machine.execPrfMsc a s
  | .stp f a d => Sys2Proof.Machine.execStp f a d s
  | .pushCe p d => Sys2Proof.Machine.execPushCe p d s
  | .pushXe p d => Sys2Proof.Machine.execPushXe p d s
  | .pushPg p d => Sys2Proof.Machine.execPushPg p d s
  | .bara b => Sys2Proof.Machine.execBara b s
  | .barw b => Sys2Proof.Machine.execBarw b s
  | .baraw b => Sys2Proof.Machine.execBaraw b s
  | .vget n d => Sys2Proof.Machine.execVget n d s
  | .vput n a => Sys2Proof.Machine.execVput n a s
  | .bra o => Sys2Proof.Machine.execBra o s
  | .brc o p => Sys2Proof.Machine.execBrc o p s
  | .brcF o p => Sys2Proof.Machine.execBrcF o p s
  | .call o => Sys2Proof.Machine.execCall o s
  | .qrn _ _ b a d => Sys2Proof.Machine.execQrn b a d s
  | .qrnf _ _ b a d => Sys2Proof.Machine.execQrnf b a d s
  | .qrseed _ _ b a d => Sys2Proof.Machine.execQrseed b a d s
  | .lcMov b d => Sys2Proof.Machine.execLcMov b d s
  | .lcAddI32 b d => Sys2Proof.Machine.execLcAddI32 b d s
  | .lcSubI32 b d => Sys2Proof.Machine.execLcSubI32 b d s
  | .lcAnd b d => Sys2Proof.Machine.execLcAnd b d s
  | .lcOr b d => Sys2Proof.Machine.execLcOr b d s
  | .lcXor b d => Sys2Proof.Machine.execLcXor b d s
  | .lcShlI32 b d => Sys2Proof.Machine.execLcShlI32 b d s
  | .lcShrN32 b d => Sys2Proof.Machine.execLcShrN32 b d s
  | .lcShraI32 b d => Sys2Proof.Machine.execLcShraI32 b d s
  | .lcAddF32 b d => Sys2Proof.Machine.execLcAddF32 b d s
  | .lcSubF32 b d => Sys2Proof.Machine.execLcSubF32 b d s
  | .lcMulF32 b d => Sys2Proof.Machine.execLcMulF32 b d s
  | .lcMinF32 b d => Sys2Proof.Machine.execLcMinF32 b d s
  | .lcMaxF32 b d => Sys2Proof.Machine.execLcMaxF32 b d s
  | .lcAddI64 b d => Sys2Proof.Machine.execLcAddI64 b d s
  | .lcNegF32 b d => Sys2Proof.Machine.execLcNegF32 b d s
  | .saluAdd b a d => Sys2Proof.Machine.execSaluAdd b a d s
  | .saluSub b a d => Sys2Proof.Machine.execSaluSub b a d s
  | .saluAnd b a d => Sys2Proof.Machine.execSaluAnd b a d s
  | .saluOr b a d => Sys2Proof.Machine.execSaluOr b a d s
  | .saluXor b a d => Sys2Proof.Machine.execSaluXor b a d s
  | .saluShl b a d => Sys2Proof.Machine.execSaluShl b a d s
  | .saluShr b a d => Sys2Proof.Machine.execSaluShr b a d s
  | .saluShra b a d => Sys2Proof.Machine.execSaluShra b a d s
  | .smulMul b a d => Sys2Proof.Machine.execSmulMul b a d s
  | .smulMulhs b a d => Sys2Proof.Machine.execSmulMulhs b a d s
  | .smulMulhu b a d => Sys2Proof.Machine.execSmulMulhu b a d s
  | .smulDiv b a d => Sys2Proof.Machine.execSmulDiv b a d s
  | .smulDivu b a d => Sys2Proof.Machine.execSmulDivu b a d s
  | .smulRem b a d => Sys2Proof.Machine.execSmulRem b a d s
  | .smulRemu b a d => Sys2Proof.Machine.execSmulRemu b a d s
  | .scmpMin b a d => Sys2Proof.Machine.execScmpMin b a d s
  | .scmpMax b a d => Sys2Proof.Machine.execScmpMax b a d s
  | .scmpMinu b a d => Sys2Proof.Machine.execScmpMinu b a d s
  | .scmpMaxu b a d => Sys2Proof.Machine.execScmpMaxu b a d s
  | .scmpSlt b a d => Sys2Proof.Machine.execScmpSlt b a d s
  | .scmpSltu b a d => Sys2Proof.Machine.execScmpSltu b a d s
  | .scmpSeq b a d => Sys2Proof.Machine.execScmpSeq b a d s
  | .sld imm f a d => Sys2Proof.Machine.execSld imm f a d s
  | .sst imm w b a => Sys2Proof.Machine.execSst imm w b a s
  | .siAdd imm a d => Sys2Proof.Machine.execSiAdd imm a d s
  | .siAnd imm a d => Sys2Proof.Machine.execSiAnd imm a d s
  | .siOr imm a d => Sys2Proof.Machine.execSiOr imm a d s
  | .siXor imm a d => Sys2Proof.Machine.execSiXor imm a d s
  | .shiftShl n a d => Sys2Proof.Machine.execShiftShl n a d s
  | .shiftShr n a d => Sys2Proof.Machine.execShiftShr n a d s
  | .shiftShra n a d => Sys2Proof.Machine.execShiftShra n a d s
  | .shiftRol n a d => Sys2Proof.Machine.execShiftRol n a d s
  | .addhi imm a d => Sys2Proof.Machine.execAddhi imm a d s
  | .bz imm a => Sys2Proof.Machine.execBz imm a s
  | .bnz imm a => Sys2Proof.Machine.execBnz imm a s
  | .bltz imm a => Sys2Proof.Machine.execBltz imm a s
  | .bgez imm a => Sys2Proof.Machine.execBgez imm a s
  | .bgtz imm a => Sys2Proof.Machine.execBgtz imm a s
  | .blez imm a => Sys2Proof.Machine.execBlez imm a s
  | .jmp o => Sys2Proof.Machine.execJmp o s
  | .jumpCall o => Sys2Proof.Machine.execJumpCall o s
  | .sctlJmpr a => Sys2Proof.Machine.execSctlJmpr a s
  | .sctlMovs x_s d => Sys2Proof.Machine.execSctlMovs x_s d s
  | .movsTflagsc d => Sys2Proof.Machine.execMovsTflagsc d s
  | .sctlTrap n => Sys2Proof.Machine.execSctlTrap n s
  | .sctlTret a => Sys2Proof.Machine.execSctlTret a s
  | .loop n b a => Sys2Proof.Machine.execLoop n b a s
  | .bari c b => Sys2Proof.Machine.execBari c b s
  | .barBara f b => Sys2Proof.Machine.execBarBara f b s
  | .barBarw f b => Sys2Proof.Machine.execBarBarw f b s
  | .barBaraw f b => Sys2Proof.Machine.execBarBaraw f b s
  | .sxPushCe f d => Sys2Proof.Machine.execSxPushCe f d s
  | .sxPushXe f d => Sys2Proof.Machine.execSxPushXe f d s
  | .sxPushPg f d => Sys2Proof.Machine.execSxPushPg f d s
  | .tmul c m b a d => Sys2Proof.Machine.execTmul c m b a d s
  | .tmac c m x b a d => Sys2Proof.Machine.execTmac c m x b a d s
  | .tcmul c m b a d => Sys2Proof.Machine.execTcmul c m b a d s
  | .tcmulAddend c m x b a d => Sys2Proof.Machine.execTcmulAddend c m x b a d s
  | .tbp c m b a d => Sys2Proof.Machine.execTbp c m b a d s
  | .tsca c m x b a d => Sys2Proof.Machine.execTsca c m x b a d s
  | .tadd c m b a d => Sys2Proof.Machine.execTadd c m b a d s
  | .tsub c m b a d => Sys2Proof.Machine.execTsub c m b a d s
  | .ttr c m a d => Sys2Proof.Machine.execTtr c m a d s
  | .thad c m b a d => Sys2Proof.Machine.execThad c m b a d s
  | .tcvt m a d => Sys2Proof.Machine.execTcvt m a d s
  | .tforce a => Sys2Proof.Machine.execTforce a s
  | .tdrop d => Sys2Proof.Machine.execTdrop d s
  | .tld m b a d => Sys2Proof.Machine.execTld m b a d s
  | .tst m b a d => Sys2Proof.Machine.execTst m b a d s
  | .acq n a => Sys2Proof.Machine.execAcq n a s
  | .rel a => Sys2Proof.Machine.execRel a s
  | .tstat a d => Sys2Proof.Machine.execTstat a d s
  | .tzero m b d => Sys2Proof.Machine.execTzero m b d s
  | .tfill m b a d => Sys2Proof.Machine.execTfill m b a d s
  | .view a d => Sys2Proof.Machine.execView a d s
  | .join a => Sys2Proof.Machine.execJoin a s
  | .vwait a => Sys2Proof.Machine.execVwait a s
  | .scMov b d => Sys2Proof.Machine.execScMov b d s
  | .scAdd b d => Sys2Proof.Machine.execScAdd b d s
  | .scSub b d => Sys2Proof.Machine.execScSub b d s
  | .scAnd b d => Sys2Proof.Machine.execScAnd b d s
  | .scOr b d => Sys2Proof.Machine.execScOr b d s
  | .scXor b d => Sys2Proof.Machine.execScXor b d s
  | .scShl b d => Sys2Proof.Machine.execScShl b d s
  | .scShr b d => Sys2Proof.Machine.execScShr b d s
  | .scShra b d => Sys2Proof.Machine.execScShra b d s
  | .scMul b d => Sys2Proof.Machine.execScMul b d s
  | .scMin b d => Sys2Proof.Machine.execScMin b d s
  | .scMax b d => Sys2Proof.Machine.execScMax b d s
  | .scMinu b d => Sys2Proof.Machine.execScMinu b d s
  | .scMaxu b d => Sys2Proof.Machine.execScMaxu b d s
  | .scNeg b d => Sys2Proof.Machine.execScNeg b d s
  | .scNot b d => Sys2Proof.Machine.execScNot b d s
  | .nop => Sys2Proof.Machine.execNop s
  | .yld => Sys2Proof.Machine.execYld s
  | .exit => Sys2Proof.Machine.execExit s
  | .fenceC => Sys2Proof.Machine.execFenceC s
  | .fenceD => Sys2Proof.Machine.execFenceD s
  | .fenceS => Sys2Proof.Machine.execFenceS s
  | .tret => Sys2Proof.Machine.execTret s
  | .sctlRet => Sys2Proof.Machine.execSctlRet s
  | .sctlExit => Sys2Proof.Machine.execSctlExit s
  | .sctlNop => Sys2Proof.Machine.execSctlNop s
  | .sctlFenceC => Sys2Proof.Machine.execSctlFenceC s
  | .sctlFenceD => Sys2Proof.Machine.execSctlFenceD s
  | .sctlFenceS => Sys2Proof.Machine.execSctlFenceS s
  | .cbar => Sys2Proof.Machine.execCbar s
  | .gbar => Sys2Proof.Machine.execGbar s
  | .breakpointMatch => Sys2Proof.Machine.execBreakpointMatch s
  | .releaseWaitEnd => Sys2Proof.Machine.execReleaseWaitEnd s
  | .launch => Sys2Proof.Machine.execLaunch s
  | .create => Sys2Proof.Machine.execCreate s
  | .update => Sys2Proof.Machine.execUpdate s
  | .move => Sys2Proof.Machine.execMove s
  | .resume => Sys2Proof.Machine.execResume s
  | .destroy => Sys2Proof.Machine.execDestroy s
  | .capstart => Sys2Proof.Machine.execCapstart s
  | .capstop => Sys2Proof.Machine.execCapstop s
  | .capstopComplete => Sys2Proof.Machine.execCapstopComplete s
  | .ethernetFrame => Sys2Proof.Machine.execEthernetFrame s
  | .qtailWrite => Sys2Proof.Machine.execQtailWrite s
  | .queueEnable => Sys2Proof.Machine.execQueueEnable s
  | .queueDisable => Sys2Proof.Machine.execQueueDisable s
  | .errClear => Sys2Proof.Machine.execErrClear s
  | .vectorUnmask => Sys2Proof.Machine.execVectorUnmask s
  | .tlbinv => Sys2Proof.Machine.execTlbinv s
  | .mbdoor => Sys2Proof.Machine.execMbdoor s
  | .registerWrite => Sys2Proof.Machine.execRegisterWrite s
  | .stopSlotFree => Sys2Proof.Machine.execStopSlotFree s
  | .stopSlotScan => Sys2Proof.Machine.execStopSlotScan s
  | .dependenceReread => Sys2Proof.Machine.execDependenceReread s
  | .teamPlacement => Sys2Proof.Machine.execTeamPlacement s
  | .loadingComplete => Sys2Proof.Machine.execLoadingComplete s
  | .quantumExpiry => Sys2Proof.Machine.execQuantumExpiry s
  | .swapOut => Sys2Proof.Machine.execSwapOut s
  | .exitActions => Sys2Proof.Machine.execExitActions s
  | .gridEnd => Sys2Proof.Machine.execGridEnd s
  | .contextLoaded => Sys2Proof.Machine.execContextLoaded s
  | .erasureComplete => Sys2Proof.Machine.execErasureComplete s
  | .forceEvaluation => Sys2Proof.Machine.execForceEvaluation s
  | .acqGrant => Sys2Proof.Machine.execAcqGrant s
  | .waitingAccessPerform => Sys2Proof.Machine.execWaitingAccessPerform s
  | .bankModeSwitch => Sys2Proof.Machine.execBankModeSwitch s
  | .copy => Sys2Proof.Machine.execCopy s
  | .copy2d => Sys2Proof.Machine.execCopy2d s
  | .gather => Sys2Proof.Machine.execGather s
  | .scatter => Sys2Proof.Machine.execScatter s
  | .fill => Sys2Proof.Machine.execFill s
  | .planes => Sys2Proof.Machine.execPlanes s
  | .pgMove => Sys2Proof.Machine.execPgMove s
  | .pgPin => Sys2Proof.Machine.execPgPin s
  | .pgClrcnt => Sys2Proof.Machine.execPgClrcnt s
  | .demotion => Sys2Proof.Machine.execDemotion s
  | .pageReadback => Sys2Proof.Machine.execPageReadback s
  | .forwardedAccess => Sys2Proof.Machine.execForwardedAccess s
  | .regenerationComplete => Sys2Proof.Machine.execRegenerationComplete s
  | .allred => Sys2Proof.Machine.execAllred s
  | .redscat => Sys2Proof.Machine.execRedscat s
  | .allgath => Sys2Proof.Machine.execAllgath s
  | .bcast => Sys2Proof.Machine.execBcast s
  | .send => Sys2Proof.Machine.execSend s
  | .recv => Sys2Proof.Machine.execRecv s
  | .collectiveBegin => Sys2Proof.Machine.execCollectiveBegin s
  | .collectiveComplete => Sys2Proof.Machine.execCollectiveComplete s
  | .tickBoundary => Sys2Proof.Machine.execTickBoundary s
  | .raiseSuspicion => Sys2Proof.Machine.execRaiseSuspicion s
  | .viewInstallation => Sys2Proof.Machine.execViewInstallation s
  | .joinNotice => Sys2Proof.Machine.execJoinNotice s
  | .viewrec => Sys2Proof.Machine.execViewrec s
  | .servoOffsetExceeded => Sys2Proof.Machine.execServoOffsetExceeded s
  | .portEnable => Sys2Proof.Machine.execPortEnable s
  | .portUp => Sys2Proof.Machine.execPortUp s
  | .trainingTimeout => Sys2Proof.Machine.execTrainingTimeout s
  | .lossOfSignal => Sys2Proof.Machine.execLossOfSignal s
  | .portDisable => Sys2Proof.Machine.execPortDisable s
  | .chipStop => Sys2Proof.Machine.execChipStop s
  | .moduleReset => Sys2Proof.Machine.execModuleReset s
  | .warmReset => Sys2Proof.Machine.execWarmReset s
  | .lifeCycleChange => Sys2Proof.Machine.execLifeCycleChange s
  | .hostAccess => Sys2Proof.Machine.execHostAccess s
  | .rollback => Sys2Proof.Machine.execRollback s
  | .auditReplay => Sys2Proof.Machine.execAuditReplay s
  | .softRepair => Sys2Proof.Machine.execSoftRepair s
  | .repairQuiesceEnd => Sys2Proof.Machine.execRepairQuiesceEnd s
  | .hardRepair => Sys2Proof.Machine.execHardRepair s
  | .ageingThreshold => Sys2Proof.Machine.execAgeingThreshold s
  | .loadRequest => Sys2Proof.Machine.execLoadRequest s
  | .translation => Sys2Proof.Machine.execTranslation s
  | .unloadRequest => Sys2Proof.Machine.execUnloadRequest s
  | .stageImage => Sys2Proof.Machine.execStageImage s
  | .handOver => Sys2Proof.Machine.execHandOver s
  | .heartbeat => Sys2Proof.Machine.execHeartbeat s
  | .heartbeatWindowEnd => Sys2Proof.Machine.execHeartbeatWindowEnd s
  | .undefinedInstruction => Sys2Proof.Machine.execUndefinedInstruction s
  | .hostBridgeError => Sys2Proof.Machine.execHostBridgeError s
  | .indirectionEntryWrite => Sys2Proof.Machine.execIndirectionEntryWrite s
  | .firmwareViewInstall => Sys2Proof.Machine.execFirmwareViewInstall s
  | .servoOffsetRestored => Sys2Proof.Machine.execServoOffsetRestored s

end Sys2Proof.Machine
end

