-- ==== Sys2Proof/Machine/Step.lean ====
section
/-! DEFINITION. One step of the chip: the next turn of the schedule acts (DESIGN CHOICE log 2). -/

namespace Sys2Proof.Machine

/-- Executes a decoded lane instruction, or the undefined instruction (R94, R95). -/
def execLane (w : Nat) (s : State) : Host.Outcome State Fault Refusal :=
  match decodeLane w with
  | .ok i => exec i s
  | .error _ => exec .undefinedInstruction s

/-- Executes a decoded sequencer instruction, or the undefined instruction. -/
def execSeq (w : Nat) (s : State) : Host.Outcome State Fault Refusal :=
  match decodeSeq w with
  | .ok i => exec i s
  | .error _ => exec .undefinedInstruction s

/-- Lets the present turn act. -/
def act (s : State) : Host.Outcome State Fault Refusal :=
  match s.turn with
  | .idle => .next s
  | .slot c p i =>
    match s.slotReady c p i with
    | .done s => .next s
    | .stop s => exec .breakpointMatch s
    | .word w s => execLane w s
  | .seq tk =>
    match s.seqReady tk with
    | .done s => .next s
    | .stop s => exec .breakpointMatch s
    | .word w s => execSeq w s
  | .event i _ => exec i s
  | .drain tk idx => .next (s.showStore tk idx)
  | .late => .next s.tryLate
  | .pace n => .next { s with pace := some n }
  | .evictTlb q i => .next (s.dropTlb q i)
  | .evictL1 l c => .next (s.dropL1 l c)
  | .strike k x => .next { s with bad := SMap.set false s.bad k true, sites := SMap.set .home s.sites k x }
  | .strikeLog k => .next (s.setGrid k (s.grid k).unprotect)

/-- Whether a turn is a reset, the only thing a stopped chip answers to (R370, R390). -/
def isReset (t : Turn) : Bool :=
  match t with
  | .event .moduleReset _ => true
  | .event .warmReset _ => true
  | _ => false

/-- A turn of a stopped chip, which does nothing: the domain's tick alone goes on (R345, R370). -/
def State.sleep (s : State) (t : Turn) : State :=
  match t with
  | .event .tickBoundary _ => { s with fab := { s.fab with tick := s.fab.tick + 1 } }
  | _ => s

/-- One step: the head of the schedule acts; an empty schedule is filled with the next clock's turns. -/
def step (s : State) : Host.Outcome State Fault Refusal :=
  match s.schedule with
  | [] => if s.chipStopped then .next s else .next s.refill
  | t :: rest =>
    if s.chipStopped && !isReset t then .next ({ s with schedule := rest, turn := t }.sleep t)
    else act { s with schedule := rest, turn := t }

/-- An identity-shaped page table for the one code page that withFetchWord lays out: five tables in frames 1 to
5 and the page in frame 6, every frame in HBM4E at its own number (R313 to R320). -/
def fetchTables : List (Nat × Nat) :=
  [(0x1000, 0x2001), (0x2000, 0x3001), (0x3000, 0x4001), (0x4000, 0x5001), (0x5000, 0x6017)]

/-- The state in which the very next step fetches and runs an instruction of nbits bits whose bits are w: it
stands for the load of a program (DESIGN CHOICE log 12). Grid 1 of context 1 has one team of eight lanes on core 0; the
instruction lies at virtual address 0, mapped executable; the stream that decodes it has the next turn (a
word that both streams decode goes to the lanes, as in decodeTableWord, DESIGN CHOICE log 11). -/
def State.withFetchWord (s : State) (nbits w : Nat) : State :=
  let frames := [1, 2, 3, 4, 5, 6].foldl (fun m f => SMap.set 0 m f (BitVec.ofNat 64 (2 ^ 61 + f * 2 ^ 12))) s.frames
  let s := { s with frames := frames }
  let s := fetchTables.foldl (fun s e => s.putBytes (hbmKey e.1) (leBytes 8 e.2)) s
  let s := s.putBytes (hbmKey 0x6000) (leBytes (nbits / 8) w)
  let r : CtxRecord := { version := 2, ptroot := 0x1000 }
  let s := s.setCtx 1 { st := .running, rcd := r }
  let launch : Launch := { width := 8, lanes := 8, codeEnd := 4096 }
  let g : Grid := { live := true, asid := 1, launch := launch, rcd := r, started := true, nextIx := 1, placed := [(0, 0)] }
  let s := s.setGrid 1 g
  let s := s.setTeam (teamKey 1 0) { st := .running, slots := [(0, 0)] }
  let s := { s with dsp := { s.dsp with nextGrid := 2, order := [1] } }
  { s with schedule := [match decodeLane w with
      | .ok _ => Turn.slot 0 0 0
      | .error _ => Turn.seq (teamKey 1 0)] }

end Sys2Proof.Machine
end

