-- ==== Sys2Proof/Safety.lean ====
section
/-! DEFINITION. The terms that statements use: the invariant of memory, what it means that an instruction of the
head run or of a sequencer issues, and the frames: all that an instruction leaves as it was. -/

namespace Sys2Proof.Machine

/-- Memory is in canonical form: rising addresses, no listed byte equal to zero, what an unlisted byte reads
as. -/
def State.memWf (s : State) : Bool := SMap.wf 0 s.mem

/-! ## Lanes -/

/-- The run r issues in the present turn from the state s1 (R161), and the register fields stand below the cap, or
name handler registers in trap mode (R69, R171). -/
def LaneIssues (s : State) (fields : List Nat) (r : Run) (s1 : State) : Prop :=
  s.issuing = some (r, s1) ∧ fields.any (s1.overCap r) = false

/-- Register k of a lane, whatever its mode: 0 to 63 are v0 to v63 and 64 to 71 are h0 to h7. -/
def Lane.absGet (l : Lane) (k : Nat) : VReg := if 64 ≤ k then SMap.get {} l.h (k - 64) else SMap.get {} l.v k

/-- A lane differs from what it was at most in its counter, in the registers `ds` (numbered as in absGet), in the
predicates `ps` and in flags raised. -/
def LaneKeeps (l l' : Lane) (ds ps : List Nat) : Prop :=
  (∀ k, k ∉ ds → l'.absGet k = l.absGet k) ∧
  (∀ p, p ∉ ps → l'.pred p = l.pred p ∧ l'.predPoison p = l.predPoison p) ∧
  l'.lflags &&& l.lflags = l.lflags ∧
  l' = { l with v := l'.v, h := l'.h, pv := l'.pv, pp := l'.pp, pc := l'.pc, lflags := l'.lflags }

/-- The state differs at most in the lanes of the run: all of memory, every other lane, sequencer, team, grid,
context, engine and device register is as it was. -/
def OnlyRunLanes (s t : State) (r : Run) : Prop :=
  t = { s with teams := t.teams } ∧ (∀ k, k ≠ r.team → t.team k = s.team k) ∧
  t.team r.team = { s.team r.team with lanes := (t.team r.team).lanes } ∧
  ∀ n, n ∉ r.lanes → (t.team r.team).lane n = (s.team r.team).lane n

/-- The frame of a lane instruction of `len` bytes that writes at most the register fields `ds` and the predicates
`ps` of the lanes of its run, and raises flags. -/
def LaneFrame (s t : State) (r : Run) (len : Nat) (ds ps : List Nat) : Prop :=
  OnlyRunLanes s t r ∧ ∀ n ∈ r.lanes,
    LaneKeeps ((s.team r.team).lane n) ((t.team r.team).lane n) (ds.map (absReg r.trap)) ps ∧
    ((t.team r.team).lane n).pc = ((s.team r.team).lane n).pc + BitVec.ofNat 64 len

/-- Lane n of the team of a run. -/
def laneAt (s : State) (r : Run) (n : Nat) : Lane := (s.team r.team).lane n

/-- Each lane of the run becomes a function of what it was, and nothing else changes. -/
def LanesBecome (s t : State) (r : Run) (f : Nat → Lane → Lane) : Prop :=
  OnlyRunLanes s t r ∧ ∀ n ∈ r.lanes, laneAt t r n = f n (laneAt s r n)

/-- A fault of the run is handled: it is not in trap mode and its context has a lane trap vector (R171). -/
def Handled (s : State) (r : Run) : Prop := r.trap = false ∧ (s.gridOf r.team).rcd.lvec ≠ 0

/-- The lane trap of R171 in every lane of the run: `epc` is the address recorded, `cause` and `addr` the values of
%lcause and %laddr in each lane; no page records. -/
def TrapEntered (s t : State) (r : Run) (epc : Word) (cause : Nat → Nat) (addr : Nat → Word) : Prop :=
  LanesBecome s t r (fun n l => { l with
    trap := true, h := [], pc := (s.gridOf r.team).rcd.lvec, lcause := BitVec.ofNat 64 (cause n), lepc := epc,
    laddr := addr n, lnrec := 0, lprec := [] })

/-- An unhandled fault of a team (R98, R174): its context is faulted, with the fault as the one to be recorded as the clock ends, and
no byte of memory changes before, but for the trace slots of a captured grid (R121). -/
def FaultUnhandled (s t : State) (tk : Nat) (is : FaultRec → Prop) : Prop :=
  ((∀ k, (s.grid k).asid = s.asidOf tk → (s.grid k).captured = false) → t.mem = s.mem) ∧ (t.ctx (s.asidOf tk)).st = .faulted ∧ ∃ f, (t.ctx (s.asidOf tk)).faultNow = some (tk, f) ∧ is f

/-! ## Sequencers -/

/-- The sequencer of team tk issues in the present turn (R146): s1 is the state in which its instruction executes,
its own wait, if the instruction waited inside itself, ended. -/
def SeqIssues (s : State) (tk : Nat) (s1 : State) : Prop :=
  s.turn = .seq tk ∧ s.seqIssues tk = true ∧ s1 = s.setSeq tk { (s.team tk).seq with wait := none }

/-- The state differs at most in the sequencer of team tk: memory, its lanes, its manifest and everything else is as
it was. -/
def OnlySeq (s t : State) (tk : Nat) : Prop :=
  t = { s with teams := t.teams } ∧ (∀ k, k ≠ tk → t.team k = s.team k) ∧
  t.team tk = { s.team tk with seq := (t.team tk).seq }

/-- The sequencer of a team becomes q, and nothing else changes. -/
def SeqBecomes (s t : State) (tk : Nat) (q : Sequencer) : Prop := OnlySeq s t tk ∧ (t.team tk).seq = q

/-- A fault of the sequencer is handled: it is not in trap mode and its context has a sequencer trap vector (R151). -/
def SeqHandled (s : State) (tk : Nat) : Prop := (s.team tk).seq.trap = false ∧ (s.gridOf tk).rcd.svec ≠ 0

/-- The sequencer trap of R151: `epc`, `cause` and `addr` are the values of %sepc, %scause and %saddr; the handler
registers hold zero, and s1 to s31 and the loop are held. -/
def SeqTrapEntered (s t : State) (tk : Nat) (epc : Word) (cause : Nat) (addr : Word) : Prop :=
  SeqBecomes s t tk { (s.team tk).seq with
    trap := true, hs := [], hloop := none, wait := none, pc := (s.gridOf tk).rcd.svec,
    scause := BitVec.ofNat 64 cause, sepc := epc, saddr := addr }

/-- The eight command words that a sequencer or lane names from a register on. -/
def wordsFrom (f : Nat → Word) (first : Nat) : List Word := (List.range 8).map (fun i => f (first + i))

/-- What identifies a queued command: its team, its lane, none for the sequencer, and its words. -/
def Cmd.summary (c : Cmd) : Nat × Option Nat × List Word := (c.team, c.lane, c.words)

end Sys2Proof.Machine
end

