-- ==== Sys2Proof/Safety/LaneForms.lean ====
section
/-! DEFINITION. What the lane instructions of a family compute, as tables for statements: an instruction of the
family, with its length, its register fields, and the result of one element or register, written out from the rule
that gives it. -/

namespace Sys2Proof.Machine

/-! ## Element by element -/

/-- An instruction that computes each w-bit element of d from the elements of a, b and c at the same place (R178):
its result and the flags it raises. -/
structure ElemForm where
  len : Nat
  w : Nat
  d : Nat
  a : Nat
  b : Nat
  c : Nat
  res : Nat → Nat → Nat → Nat
  flags : Nat → Nat → Nat → Flags

/-- The register fields that the form names. -/
def ElemForm.fields (f : ElemForm) : List Nat := [f.d, f.a, f.b, f.c]

/-- An integer clamped to a type's range, as a number of w bits (R55). -/
def clampTo (sg : Bool) (w : Nat) (z : Int) : Nat := (Max.max (intMin sg w) (Min.min (intMax sg w) z) % (2 ^ w : Nat)).toNat
/-- IV where an integer lies outside a type's range (R55). -/
def clampFlag (sg : Bool) (w : Nat) (z : Int) : Flags := if z < intMin sg w ∨ intMax sg w < z then flagIV else 0

/-- Quotient and remainder, truncated (R56): by zero all ones and x; of the least value by -1, x and zero. -/
def quotRes (sg : Bool) (w x y : Nat) : Nat :=
  if y = 0 then 2 ^ w - 1
  else if sg = true ∧ x = 2 ^ (w - 1) ∧ y = 2 ^ w - 1 then x
  else ((readInt sg w x).tdiv (readInt sg w y) % (2 ^ w : Nat)).toNat
def remRes (sg : Bool) (w x y : Nat) : Nat :=
  if y = 0 then x
  else if sg = true ∧ x = 2 ^ (w - 1) ∧ y = 2 ^ w - 1 then 0
  else ((readInt sg w x).tmod (readInt sg w y) % (2 ^ w : Nat)).toNat
def quotFlags (sg : Bool) (w x y : Nat) : Flags :=
  if y = 0 then flagDZ else if sg = true ∧ x = 2 ^ (w - 1) ∧ y = 2 ^ w - 1 then flagIV else 0

/-- A form over two integer registers without flags. -/
def intTwo (len w : Nat) (d a b : Nat) (res : Nat → Nat → Nat) : Option ElemForm :=
  some ⟨len, w, d, a, b, b, fun x y _ => res x y, fun _ _ _ => 0⟩
/-- A form over one integer register without flags. -/
def intOne (len w : Nat) (d a : Nat) (res : Nat → Nat) : Option ElemForm :=
  some ⟨len, w, d, a, a, a, fun x _ _ => res x, fun _ _ _ => 0⟩

/-- The integer instructions that work element by element (R182, R185, R186). -/
def intForm (i : Instr) : Option ElemForm :=
  match i with
  | .add _ _ t b a d => intTwo 4 (intWidth t) d.toNat a.toNat b.toNat (fun x y => (x + y) % 2 ^ intWidth t)
  | .sub _ _ t b a d =>
    intTwo 4 (intWidth t) d.toNat a.toNat b.toNat (fun x y => (x + (2 ^ intWidth t - y)) % 2 ^ intWidth t)
  | .mul _ _ t b a d => intTwo 4 (intWidth t) d.toNat a.toNat b.toNat (fun x y => x * y % 2 ^ intWidth t)
  | .mulh _ _ t b a d => intTwo 4 (intWidth t) d.toNat a.toNat b.toNat (fun x y =>
      (readInt (intSigned t) (intWidth t) x * readInt (intSigned t) (intWidth t) y / (2 ^ intWidth t : Nat) %
        (2 ^ intWidth t : Nat)).toNat)
  | .min _ _ t b a d => intTwo 4 (intWidth t) d.toNat a.toNat b.toNat (fun x y =>
      if readInt (intSigned t) (intWidth t) x ≤ readInt (intSigned t) (intWidth t) y then x else y)
  | .max _ _ t b a d => intTwo 4 (intWidth t) d.toNat a.toNat b.toNat (fun x y =>
      if readInt (intSigned t) (intWidth t) x ≤ readInt (intSigned t) (intWidth t) y then y else x)
  | .adds _ _ t b a d => some ⟨4, intWidth t, d.toNat, a.toNat, b.toNat, b.toNat,
      fun x y _ => clampTo (intSigned t) (intWidth t) (readInt (intSigned t) (intWidth t) x + readInt (intSigned t) (intWidth t) y),
      fun x y _ => clampFlag (intSigned t) (intWidth t) (readInt (intSigned t) (intWidth t) x + readInt (intSigned t) (intWidth t) y)⟩
  | .subs _ _ t b a d => some ⟨4, intWidth t, d.toNat, a.toNat, b.toNat, b.toNat,
      fun x y _ => clampTo (intSigned t) (intWidth t) (readInt (intSigned t) (intWidth t) x - readInt (intSigned t) (intWidth t) y),
      fun x y _ => clampFlag (intSigned t) (intWidth t) (readInt (intSigned t) (intWidth t) x - readInt (intSigned t) (intWidth t) y)⟩
  | .shl _ _ t b a d =>
    intTwo 4 (intWidth t) d.toNat a.toNat b.toNat (fun x y => x * 2 ^ (y % intWidth t) % 2 ^ intWidth t)
  | .shr _ _ t b a d => intTwo 4 (intWidth t) d.toNat a.toNat b.toNat (fun x y => x / 2 ^ (y % intWidth t))
  | .shra _ _ t b a d => intTwo 4 (intWidth t) d.toNat a.toNat b.toNat (fun x y =>
      (asSigned (intWidth t) x / (2 ^ (y % intWidth t) : Nat) % (2 ^ intWidth t : Nat)).toNat)
  | .rol _ _ t b a d => intTwo 4 (intWidth t) d.toNat a.toNat b.toNat (fun x y =>
      (x * 2 ^ (y % intWidth t) + x / 2 ^ (intWidth t - y % intWidth t)) % 2 ^ intWidth t)
  | .div _ _ t b a d => some ⟨4, intWidth t, d.toNat, a.toNat, b.toNat, b.toNat,
      fun x y _ => quotRes (intSigned t) (intWidth t) x y, fun x y _ => quotFlags (intSigned t) (intWidth t) x y⟩
  | .rem _ _ t b a d => some ⟨4, intWidth t, d.toNat, a.toNat, b.toNat, b.toNat,
      fun x y _ => remRes (intSigned t) (intWidth t) x y, fun x y _ => quotFlags (intSigned t) (intWidth t) x y⟩
  | .clz _ _ t a d => intOne 4 (intWidth t) d.toNat a.toNat (fun x =>
      ((List.range (intWidth t)).takeWhile (fun k => !x.testBit (intWidth t - 1 - k))).length)
  | .popc _ _ t a d => intOne 4 (intWidth t) d.toNat a.toNat (fun x => ((List.range (intWidth t)).filter x.testBit).length)
  | .brev _ _ t a d => intOne 4 (intWidth t) d.toNat a.toNat (fun x =>
      ((List.range (intWidth t)).map (fun k => if x.testBit k then 2 ^ (intWidth t - 1 - k) else 0)).sum)
  | .abs _ _ t a d => intOne 4 (widthOf t) d.toNat a.toNat (fun x => (asSigned (widthOf t) x).natAbs % 2 ^ widthOf t)
  | .absd _ _ t b a d => intTwo 4 (intWidth t) d.toNat a.toNat b.toNat (fun x y =>
      (readInt (intSigned t) (intWidth t) x - readInt (intSigned t) (intWidth t) y).natAbs)
  | .addi w k a d => intOne 4 (widthOf w) d.toNat a.toNat (fun x => (((x : Int) + k.toInt) % (2 ^ widthOf w : Nat)).toNat)
  | .shfiShl w n a d => intOne 4 (widthOf w) d.toNat a.toNat (fun x => x * 2 ^ (n.toNat % widthOf w) % 2 ^ widthOf w)
  | .shfiShr w n a d => intOne 4 (widthOf w) d.toNat a.toNat (fun x => x / 2 ^ (n.toNat % widthOf w))
  | .shfiShra w n a d => intOne 4 (widthOf w) d.toNat a.toNat (fun x =>
      (asSigned (widthOf w) x / (2 ^ (n.toNat % widthOf w) : Nat) % (2 ^ widthOf w : Nat)).toNat)
  | .shfiRol w n a d => intOne 4 (widthOf w) d.toNat a.toNat (fun x =>
      (x * 2 ^ (n.toNat % widthOf w) + x / 2 ^ (widthOf w - n.toNat % widthOf w)) % 2 ^ widthOf w)
  | .lcAddI32 b d => intTwo 2 32 d.toNat d.toNat b.toNat (fun x y => (x + y) % 2 ^ 32)
  | .lcSubI32 b d => intTwo 2 32 d.toNat d.toNat b.toNat (fun x y => (x + (2 ^ 32 - y)) % 2 ^ 32)
  | .lcShlI32 b d => intTwo 2 32 d.toNat d.toNat b.toNat (fun x y => x * 2 ^ (y % 32) % 2 ^ 32)
  | .lcShrN32 b d => intTwo 2 32 d.toNat d.toNat b.toNat (fun x y => x / 2 ^ (y % 32))
  | .lcShraI32 b d => intTwo 2 32 d.toNat d.toNat b.toNat (fun x y =>
      (asSigned 32 x / (2 ^ (y % 32) : Nat) % (2 ^ 32 : Nat)).toNat)
  | .lcAddI64 b d => intTwo 2 64 d.toNat d.toNat b.toNat (fun x y => (x + y) % 2 ^ 64)
  | _ => none

/-- A form over the elements of two floating-point registers. -/
def floatTwo (len : Nat) (f : FFmt) (d a b : Nat) (g : Nat → Nat → Nat × Flags) : Option ElemForm :=
  some ⟨len, f.bits, d, a, b, b, fun x y _ => (g x y).1 % 2 ^ f.bits, fun x y _ => (g x y).2⟩
/-- A form over the elements of one floating-point register. -/
def floatOne (len : Nat) (f : FFmt) (d a : Nat) (g : Nat → Nat × Flags) : Option ElemForm :=
  some ⟨len, f.bits, d, a, a, a, fun x _ _ => (g x).1 % 2 ^ f.bits, fun x _ _ => (g x).2⟩

/-- The floating-point instructions that work element by element (R186 to R189): the exact result of the elements'
values, rounded once to the format under the mode; the compact forms round to nearest even. -/
def floatForm (i : Instr) : Option ElemForm :=
  match i with
  | .fahAdd _ _ t m b a d => floatTwo 4 (fahFmt t) d.toNat a.toNat b.toNat (fun x y =>
      deliverExact (fahFmt t) m.toNat (addExact m.toNat ((fahFmt t).decode x) ((fahFmt t).decode y)))
  | .fahSub _ _ t m b a d => floatTwo 4 (fahFmt t) d.toNat a.toNat b.toNat (fun x y =>
      deliverExact (fahFmt t) m.toNat (addExact m.toNat ((fahFmt t).decode x) ((fahFmt t).decode y).negate))
  | .fahMul _ _ t m b a d => floatTwo 4 (fahFmt t) d.toNat a.toNat b.toNat (fun x y =>
      deliverExact (fahFmt t) m.toNat (mulExact ((fahFmt t).decode x) ((fahFmt t).decode y)))
  | .fahDiv _ _ t m b a d => floatTwo 4 (fahFmt t) d.toNat a.toNat b.toNat (fun x y =>
      deliverExact (fahFmt t) m.toNat (divExact ((fahFmt t).decode x) ((fahFmt t).decode y)))
  | .fahMin _ _ t b a d => floatTwo 4 (fahFmt t) d.toNat a.toNat b.toNat (fMinMax (fahFmt t) false)
  | .fahMax _ _ t b a d => floatTwo 4 (fahFmt t) d.toNat a.toNat b.toNat (fMinMax (fahFmt t) true)
  | .fahSqrt _ _ t m a d => floatOne 4 (fahFmt t) d.toNat a.toNat (fSqrt (fahFmt t) m.toNat)
  | .fahCpsgn _ _ t b a d => floatTwo 4 (fahFmt t) d.toNat a.toNat b.toNat (fCpsgn (fahFmt t))
  | .fawAdd _ _ t m b a d => floatTwo 4 (fawFmt t) d.toNat a.toNat b.toNat (fun x y =>
      deliverExact (fawFmt t) m.toNat (addExact m.toNat ((fawFmt t).decode x) ((fawFmt t).decode y)))
  | .fawSub _ _ t m b a d => floatTwo 4 (fawFmt t) d.toNat a.toNat b.toNat (fun x y =>
      deliverExact (fawFmt t) m.toNat (addExact m.toNat ((fawFmt t).decode x) ((fawFmt t).decode y).negate))
  | .fawMul _ _ t m b a d => floatTwo 4 (fawFmt t) d.toNat a.toNat b.toNat (fun x y =>
      deliverExact (fawFmt t) m.toNat (mulExact ((fawFmt t).decode x) ((fawFmt t).decode y)))
  | .fawDiv _ _ t m b a d => floatTwo 4 (fawFmt t) d.toNat a.toNat b.toNat (fun x y =>
      deliverExact (fawFmt t) m.toNat (divExact ((fawFmt t).decode x) ((fawFmt t).decode y)))
  | .fawMin _ _ t b a d => floatTwo 4 (fawFmt t) d.toNat a.toNat b.toNat (fMinMax (fawFmt t) false)
  | .fawMax _ _ t b a d => floatTwo 4 (fawFmt t) d.toNat a.toNat b.toNat (fMinMax (fawFmt t) true)
  | .fawSqrt _ _ t m a d => floatOne 4 (fawFmt t) d.toNat a.toNat (fSqrt (fawFmt t) m.toNat)
  | .fawCpsgn _ _ t b a d => floatTwo 4 (fawFmt t) d.toNat a.toNat b.toNat (fCpsgn (fawFmt t))
  | .rcp _ _ t a d => floatOne 4 (laneFloat t.toNat) d.toNat a.toNat (fRcp (laneFloat t.toNat))
  | .rsq _ _ t a d => floatOne 4 (laneFloat t.toNat) d.toNat a.toNat (fRsq (laneFloat t.toNat))
  | .exp2 _ _ t a d => floatOne 4 (laneFloat t.toNat) d.toNat a.toNat (fExp2 (laneFloat t.toNat))
  | .log2 _ _ t a d => floatOne 4 (laneFloat t.toNat) d.toNat a.toNat (fLog2 (laneFloat t.toNat))
  | .sin _ _ t a d => floatOne 4 (laneFloat t.toNat) d.toNat a.toNat (fSin (laneFloat t.toNat))
  | .cos _ _ t a d => floatOne 4 (laneFloat t.toNat) d.toNat a.toNat (fCos (laneFloat t.toNat))
  | .tanh _ _ t a d => floatOne 4 (laneFloat t.toNat) d.toNat a.toNat (fTanh (laneFloat t.toNat))
  | .fma m t c b a d => some ⟨4, (fawFmt t).bits, d.toNat, a.toNat, b.toNat, c.toNat,
      fun x y z => (fFma (fawFmt t) m.toNat x y z).1 % 2 ^ (fawFmt t).bits, fun x y z => (fFma (fawFmt t) m.toNat x y z).2⟩
  | .lcAddF32 b d => floatTwo 2 fmtF32 d.toNat d.toNat b.toNat (fun x y =>
      deliverExact fmtF32 0 (addExact 0 (fmtF32.decode x) (fmtF32.decode y)))
  | .lcSubF32 b d => floatTwo 2 fmtF32 d.toNat d.toNat b.toNat (fun x y =>
      deliverExact fmtF32 0 (addExact 0 (fmtF32.decode x) (fmtF32.decode y).negate))
  | .lcMulF32 b d => floatTwo 2 fmtF32 d.toNat d.toNat b.toNat (fun x y =>
      deliverExact fmtF32 0 (mulExact (fmtF32.decode x) (fmtF32.decode y)))
  | .lcMinF32 b d => floatTwo 2 fmtF32 d.toNat d.toNat b.toNat (fMinMax fmtF32 false)
  | .lcMaxF32 b d => floatTwo 2 fmtF32 d.toNat d.toNat b.toNat (fMinMax fmtF32 true)
  | .lcNegF32 b d => floatOne 2 fmtF32 d.toNat b.toNat (fNeg fmtF32)
  | _ => none

/-- The lane's registers after an element form: the result of every element, poisoned as a source is (R179), and the
flags of every element joined to the lane's (R180). -/
def ElemResult (f : ElemForm) (trap : Bool) (l l' : Lane) : Prop :=
  let x := l.reg trap f.a
  let y := l.reg trap f.b
  let z := l.reg trap f.c
  (l'.reg trap f.d).poison = (x.poison || y.poison || z.poison) ∧
  (∀ e, e < 64 / f.w → subElem (l'.reg trap f.d).val e f.w =
    f.res (subElem x.val e f.w) (subElem y.val e f.w) (subElem z.val e f.w)) ∧
  ∀ k, l'.lflags.getLsbD k = (l.lflags.getLsbD k ||
    (List.range (64 / f.w)).any (fun e =>
      (f.flags (subElem x.val e f.w) (subElem y.val e f.w) (subElem z.val e f.w)).getLsbD k))

/-! ## Conversions and packing -/

/-- An instruction that makes each of the first `count` elements of d, of width wd, from the element of a at the
same place, of width ws, and from register b (R191, R192); the rest of d is zero. -/
structure ConvForm where
  ws : Nat
  wd : Nat
  count : Nat
  d : Nat
  a : Nat
  b : Nat
  res : Word → Nat → Nat × Flags

/-- Elements of two widths, 64 bits of the wider (R191). -/
def convBetween (ws wd : Nat) (d a : BitVec 6) (res : Nat → Nat × Flags) : Option ConvForm :=
  some ⟨ws, wd, 64 / Nat.max ws wd, d.toNat, a.toNat, a.toNat, fun _ x => res x⟩

/-- The conversions between lane types and the packed narrow formats (R191, R192, R57, R58, R40). -/
def convForm (i : Instr) : Option ConvForm :=
  match i with
  | .cvt _ _ t e m q a d => convBetween (typeWidth q.toNat) (typeWidth (e ++ t).toNat) d a
      (convertNum (laneKind q.toNat) (laneKind (e ++ t).toNat) m.toNat)
  | .cvts _ _ t q a d => convBetween (typeWidth q.toNat) (typeWidth t.toNat) d a (fun x =>
      (clampTo (intSigned t) (intWidth t) (readInt (decide (q.toNat < 4)) (typeWidth q.toNat) x),
        clampFlag (intSigned t) (intWidth t) (readInt (decide (q.toNat < 4)) (typeWidth q.toNat) x)))
  | .cvtw _ _ t q a d => convBetween (typeWidth q.toNat) (typeWidth t.toNat) d a (fun x => (x % 2 ^ typeWidth t.toNat, 0))
  | .npk _ _ t m f a d => some ⟨(ncvtFmt t).bits, holderWidth f.toNat, 64 / (ncvtFmt t).bits, d.toNat, a.toNat, a.toNat,
      fun _ x => convertNum (.flt (ncvtFmt t)) (matrixKind f.toNat) m.toNat x⟩
  | .nunp _ _ t f a d => some ⟨holderWidth f.toNat, (ncvtFmt t).bits, 64 / (ncvtFmt t).bits, d.toNat, a.toNat, a.toNat,
      fun _ x => convertNum (matrixKind f.toNat) (.flt (ncvtFmt t)) 0 x⟩
  | .qnt _ _ t b a d => some ⟨(ncvtFmt t).bits, 4, 64 / (ncvtFmt t).bits, d.toNat, a.toNat, b.toNat,
      fun y x => q16Quantise ((ncvtFmt t).decode x) ((ncvtFmt t).decode (subElem y 0 (ncvtFmt t).bits))⟩
  | .dqnt _ _ t m b a d => some ⟨4, (ncvtFmt t).bits, 64 / (ncvtFmt t).bits, d.toNat, a.toNat, b.toNat,
      fun y x => q16Dequantise (ncvtFmt t) m.toNat x ((ncvtFmt t).decode (subElem y 0 (ncvtFmt t).bits))⟩
  | .toe8 _ _ t a d => some ⟨(ncvtFmt t).bits, 8, 64 / (ncvtFmt t).bits, d.toNat, a.toNat, a.toNat,
      fun _ x => toE8M0 ((ncvtFmt t).decode x)⟩
  | .fre8 _ _ t m a d => some ⟨8, (ncvtFmt t).bits, 64 / (ncvtFmt t).bits, d.toNat, a.toNat, a.toNat,
      fun _ x => (ncvtFmt t).deliver m.toNat (ofE8M0 x)⟩
  | _ => none

/-- The lane's registers after a conversion. -/
def ConvResult (f : ConvForm) (trap : Bool) (l l' : Lane) : Prop :=
  let x := l.reg trap f.a
  let y := l.reg trap f.b
  (l'.reg trap f.d).poison = (x.poison || y.poison) ∧
  (∀ e, e < f.count → subElem (l'.reg trap f.d).val e f.wd = (f.res y.val (subElem x.val e f.ws)).1 % 2 ^ f.wd) ∧
  (l'.reg trap f.d).val.toNat < 2 ^ (f.count * f.wd) ∧
  ∀ k, l'.lflags.getLsbD k =
    (l.lflags.getLsbD k || (List.range f.count).any (fun e => (f.res y.val (subElem x.val e f.ws)).2.getLsbD k))

/-! ## Comparisons -/

/-- A comparison of element 0 of a and b into predicate p: its outcome and flags (R184, R185, R190). -/
structure CmpForm where
  a : Nat
  b : Nat
  p : Nat
  res : Word → Word → Bool
  flags : Word → Word → Flags

/-- Condition c of two integers (R184): eq, ne, lt, le, gt, ge. -/
def conditionHolds (c : Nat) (x y : Int) : Bool :=
  match c with
  | 0 => x == y
  | 1 => x != y
  | 2 => decide (x < y)
  | 3 => decide (x < y ∨ x = y)
  | 4 => decide (y < x)
  | _ => decide (y < x ∨ x = y)

/-- The comparisons of lane code. -/
def cmpForm (i : Instr) : Option CmpForm :=
  match i with
  | .cmp _ _ t b a c p => some ⟨a.toNat, b.toNat, p.toNat,
      fun x y => conditionHolds c.toNat (readInt (intSigned t) (intWidth t) (x.toNat % 2 ^ intWidth t))
        (readInt (intSigned t) (intWidth t) (y.toNat % 2 ^ intWidth t)), fun _ _ => 0⟩
  | .cmpi w k a c p => some ⟨a.toNat, a.toNat, p.toNat,
      fun x _ =>
        if c.toNat = 6 then decide (x.toNat % 2 ^ widthOf w < (k.toInt % (2 ^ widthOf w : Nat)).toNat)
        else if c.toNat = 7 then decide ((k.toInt % (2 ^ widthOf w : Nat)).toNat < x.toNat % 2 ^ widthOf w)
        else conditionHolds c.toNat (asSigned (widthOf w) (x.toNat % 2 ^ widthOf w))
          (asSigned (widthOf w) (k.toInt % (2 ^ widthOf w : Nat)).toNat), fun _ _ => 0⟩
  | .fspecCmp _ _ t b a c p => some ⟨a.toNat, b.toNat, p.toNat,
      fun x y => (fCompare (laneFloat t.toNat) c.toNat (x.toNat % 2 ^ (laneFloat t.toNat).bits) (y.toNat % 2 ^ (laneFloat t.toNat).bits)).1,
      fun x y => (fCompare (laneFloat t.toNat) c.toNat (x.toNat % 2 ^ (laneFloat t.toNat).bits) (y.toNat % 2 ^ (laneFloat t.toNat).bits)).2⟩
  | _ => none

/-- The lane's predicates after a comparison (R166, R184): p0 stays true and never poisoned, and a poisoned predicate
reads false. -/
def CmpResult (f : CmpForm) (trap : Bool) (l l' : Lane) : Prop :=
  let x := l.reg trap f.a
  let y := l.reg trap f.b
  l'.pred f.p = (decide (f.p = 0) || (f.res x.val y.val && !(x.poison || y.poison))) ∧
  l'.predPoison f.p = (decide (f.p ≠ 0) && (x.poison || y.poison)) ∧
  l'.lflags = l.lflags ||| f.flags x.val y.val

/-! ## Whole registers and other lanes -/

/-- An instruction that writes register d of each lane of the run: the value for lane n, and the flags it raises, both
from the state before it. -/
structure RegForm where
  len : Nat
  fields : List Nat
  d : Nat
  val : State → Run → Nat → VReg
  flags : State → Run → Nat → Flags

/-- A function of two whole registers. -/
def wholeTwo (len d a b : Nat) (f : Word → Word → Word) : Option RegForm :=
  some ⟨len, [d, a, b], d, fun s r n =>
    let x := (laneAt s r n).reg r.trap a
    let y := (laneAt s r n).reg r.trap b
    ⟨f x.val y.val, x.poison || y.poison⟩, fun _ _ _ => 0⟩

/-- A function of one whole register. -/
def wholeOne (len d a : Nat) (f : Word → Word) : Option RegForm :=
  some ⟨len, [d, a], d, fun s r n =>
    let x := (laneAt s r n).reg r.trap a
    ⟨f x.val, x.poison⟩, fun _ _ _ => 0⟩

/-- Instructions that write one whole register of the lane (R79, R170, R183, R185, R186, R223, R341). -/
def wholeForm (i : Instr) : Option RegForm :=
  match i with
  | .and _ _ b a d => wholeTwo 4 d.toNat a.toNat b.toNat (fun x y => x &&& y)
  | .or _ _ b a d => wholeTwo 4 d.toNat a.toNat b.toNat (fun x y => x ||| y)
  | .xor _ _ b a d => wholeTwo 4 d.toNat a.toNat b.toNat (fun x y => x ^^^ y)
  | .andn _ _ b a d => wholeTwo 4 d.toNat a.toNat b.toNat (fun x y => x &&& ~~~y)
  | .logiAnd k a d => wholeOne 4 d.toNat a.toNat (fun x => x &&& k.signExtend 64)
  | .logiOr k a d => wholeOne 4 d.toNat a.toNat (fun x => x ||| k.signExtend 64)
  | .logiXor k a d => wholeOne 4 d.toNat a.toNat (fun x => x ^^^ k.signExtend 64)
  | .logiAndn k a d => wholeOne 4 d.toNat a.toNat (fun x => x &&& ~~~(k.signExtend 64))
  | .lcMov b d => wholeOne 2 d.toNat b.toNat (fun x => x)
  | .lcAnd b d => wholeTwo 2 d.toNat d.toNat b.toNat (fun x y => x &&& y)
  | .lcOr b d => wholeTwo 2 d.toNat d.toNat b.toNat (fun x y => x ||| y)
  | .lcXor b d => wholeTwo 2 d.toNat d.toNat b.toNat (fun x y => x ^^^ y)
  | .sel _ _ p b a d => some ⟨4, [d.toNat, a.toNat, b.toNat], d.toNat, fun s r n =>
      let l := laneAt s r n
      let x := l.reg r.trap (if l.pred p.toNat then a.toNat else b.toNat)
      ⟨x.val, x.poison || l.predPoison p.toNat⟩, fun _ _ _ => 0⟩
  | .lu k d => some ⟨4, [d.toNat], d.toNat, fun _ _ _ =>
      ⟨((k.setWidth 32 <<< 12 : BitVec 32)).signExtend 64, false⟩, fun _ _ _ => 0⟩
  | .ppack d => some ⟨4, [d.toNat], d.toNat, fun s r n =>
      ⟨BitVec.ofNat 64 (((List.range 8).map (fun p => if (laneAt s r n).pred p then 2 ^ p else 0)).sum),
        (List.range 8).any (laneAt s r n).predPoison⟩, fun _ _ _ => 0⟩
  | .movs q d => some ⟨4, [d.toNat], d.toNat, fun s r n => ⟨s.laneSpecial r.team n q.toNat, false⟩, fun _ _ _ => 0⟩
  | .qrseed _ _ b a d => wholeTwo 4 d.toNat a.toNat b.toNat (fun x y =>
      BitVec.ofNat 64 (qrH (subElem x 0 32) (subElem y 0 32) + 2 ^ 32 * qrH (subElem x 1 32) (subElem y 1 32)))
  | _ => none

/-- Lane k, taken modulo the group's width, of the group of lane n. -/
def groupLane (s : State) (r : Run) (n k : Nat) : Lane :=
  let w := (s.gridOf r.team).launch.width
  laneAt s r (n / w * w + k % w)

/-- A shuffle by sub-elements of width w: `src m e y` names, for lane m of its group, element e and register b, the
lane and the element of a (R194). -/
def shuffleForm (w : Nat) (d a b : Nat) (byReg : Bool) (src : Nat → Nat → Word → Nat × Nat) : Option RegForm :=
  let at_ (s : State) (r : Run) (n e : Nat) : Nat × Nat :=
    src (n % (s.gridOf r.team).launch.width) e ((laneAt s r n).reg r.trap b).val
  some ⟨4, [d, a, b], d, fun s r n =>
    ⟨BitVec.ofNat 64 (((List.range (64 / w)).map (fun e =>
        subElem ((groupLane s r n (at_ s r n e).1).reg r.trap a).val (at_ s r n e).2 w * 2 ^ (e * w))).sum),
      (byReg && ((laneAt s r n).reg r.trap b).poison) ||
        (List.range (64 / w)).any (fun e => ((groupLane s r n (at_ s r n e).1).reg r.trap a).poison)⟩, fun _ _ _ => 0⟩

/-- The shuffles, by register and by immediate (R194). -/
def shufflesForm (i : Instr) : Option RegForm :=
  match i with
  | .shfl _ _ w b a d => shuffleForm (widthOf w) d.toNat a.toNat b.toNat true (fun _ e y =>
      (subElem y e (widthOf w) / (64 / widthOf w), subElem y e (widthOf w) % (64 / widthOf w)))
  | .shflx _ _ w b a d => shuffleForm (widthOf w) d.toNat a.toNat b.toNat true (fun m e y => (m ^^^ subElem y e (widthOf w), e))
  | .shflu _ _ w b a d => shuffleForm (widthOf w) d.toNat a.toNat b.toNat true (fun m e y =>
      (m + 2 ^ 64 - subElem y e (widthOf w), e))
  | .shfld _ _ w b a d => shuffleForm (widthOf w) d.toNat a.toNat b.toNat true (fun m e y => (m + subElem y e (widthOf w), e))
  | .xiShfl w l q a d => shuffleForm (widthOf w) d.toNat a.toNat a.toNat false (fun _ e _ =>
      ((l.toNat * (64 / widthOf w) + q.toNat + e) / (64 / widthOf w), (l.toNat * (64 / widthOf w) + q.toNat + e) % (64 / widthOf w)))
  | .xiShflx w l a d => shuffleForm (widthOf w) d.toNat a.toNat a.toNat false (fun m e _ => (m ^^^ l.toNat, e))
  | .xiShflu w l a d => shuffleForm (widthOf w) d.toNat a.toNat a.toNat false (fun m e _ => (m + 2 ^ 64 - l.toNat, e))
  | .xiShfld w l a d => shuffleForm (widthOf w) d.toNat a.toNat a.toNat false (fun m e _ => (m + l.toNat, e))
  | _ => none

/-- The lanes of the run that belong to the group of lane n, in ascending order (R193). -/
def activePeers (s : State) (r : Run) (n : Nat) : List Nat :=
  r.lanes.filter (fun m => decide (m / (s.gridOf r.team).launch.width = n / (s.gridOf r.team).launch.width))

/-- The mask of the lanes of a list, by number in the group. -/
def laneMask (s : State) (r : Run) (ns : List Nat) : Word :=
  BitVec.ofNat 64 ((ns.map (fun m => 2 ^ (m % (s.gridOf r.team).launch.width))).sum)

/-- Ballot, match, reduction and scan (R195 to R197). -/
def gatherForm (i : Instr) : Option RegForm :=
  match i with
  | .voteBallot _ _ q d => some ⟨4, [d.toNat], d.toNat, fun s r n =>
      ⟨laneMask s r ((activePeers s r n).filter (fun m => (laneAt s r m).pred q.toNat)),
        (activePeers s r n).any (fun m => (laneAt s r m).predPoison q.toNat)⟩, fun _ _ _ => 0⟩
  | .matchLanes _ _ w b a d => some ⟨4, [d.toNat, a.toNat, b.toNat], d.toNat, fun s r n =>
      let y := (laneAt s r n).reg r.trap b.toNat
      ⟨laneMask s r ((activePeers s r n).filter (fun m => y.val.getLsbD (m % (s.gridOf r.team).launch.width) &&
          decide (subElem ((laneAt s r m).reg r.trap a.toNat).val 0 (widthOf w) =
            subElem ((laneAt s r n).reg r.trap a.toNat).val 0 (widthOf w)))),
        y.poison || (activePeers s r n).any (fun m => ((laneAt s r m).reg r.trap a.toNat).poison)⟩, fun _ _ _ => 0⟩
  | .rdc _ _ o t a d =>
    let v (s : State) (r : Run) (n : Nat) := foldLanes o.toNat (laneKind t.toNat) (typeWidth t.toNat)
      ((activePeers s r n).map (fun m => (laneAt s r m).reg r.trap a.toNat))
    some ⟨4, [d.toNat, a.toNat], d.toNat, fun s r n => (v s r n).1, fun s r n => (v s r n).2⟩
  | .scan _ _ o t a d =>
    let v (s : State) (r : Run) (n : Nat) := foldLanes o.toNat (laneKind t.toNat) (typeWidth t.toNat)
      (((activePeers s r n).filter (fun m => decide (m ≤ n))).map (fun m => (laneAt s r m).reg r.trap a.toNat))
    some ⟨4, [d.toNat, a.toNat], d.toNat, fun s r n => (v s r n).1, fun s r n => (v s r n).2⟩
  | _ => none

/-- What a register form leaves in lane n. -/
def RegResult (f : RegForm) (s : State) (r : Run) (n : Nat) (l' : Lane) : Prop :=
  l'.reg r.trap f.d = f.val s r n ∧ l'.lflags = (laneAt s r n).lflags ||| f.flags s r n

/-! ## Rounding -/

/-- The formats of R30. -/
def allFormats : List FFmt := [fmtF64, fmtF32, fmtF19, fmtF16, fmtB16, fmtE5M2, fmtE4M3, fmtE3M2, fmtE2M3, fmtE2M1]

/-- The magnitude with exponent and fraction fields `mag`, in units of 2^-(B + m), the exponent range unbounded above (R29, R44). -/
def gridUnit (f : FFmt) (mag : Nat) : Nat :=
  (mag % 2 ^ f.m + if mag / 2 ^ f.m = 0 then 0 else 2 ^ f.m) * 2 ^ Nat.max 1 (mag / 2 ^ f.m)

/-- Which of the two neighbours lo and lo + 1 a magnitude of N / d units between them rounds to (R44). -/
def roundedMag (f : FFmt) (mode : Nat) (neg : Bool) (N d lo : Nat) : Nat :=
  if N = gridUnit f lo * d then lo
  else
    match mode with
    | 0 =>
      if 2 * N < (gridUnit f lo + gridUnit f (lo + 1)) * d then lo
      else if (gridUnit f lo + gridUnit f (lo + 1)) * d < 2 * N then lo + 1
      else if lo % 2 = 0 then lo else lo + 1
    | 1 => lo
    | 2 => if neg then lo + 1 else lo
    | _ => if neg then lo else lo + 1

/-- What replaces an overflowing result (R45): the magnitude of infinity, the one behind the largest finite, or the largest
finite one. -/
def overflowed (f : FFmt) (mode : Nat) (neg : Bool) : Nat :=
  if f.cls = .classI ∧ (mode = 0 ∨ mode = 2 ∧ neg = true ∨ mode = 3 ∧ neg = false) then f.maxMag + 1 else f.maxMag

/-- Whether a magnitude of N / d units is tiny (R46): below 2^(1 - B), and not rounded up to it where the exponent range is
unbounded below too. -/
def tinyMag (f : FFmt) (mode : Nat) (neg : Bool) (N d : Nat) : Bool :=
  let up := match mode with
    | 0 => decide ((2 ^ (f.m + 2) - 1) * d ≤ 2 * N)
    | 1 => false
    | 2 => neg && decide ((2 ^ (f.m + 1) - 1) * d < N)
    | _ => !neg && decide ((2 ^ (f.m + 1) - 1) * d < N)
  decide (N < 2 ^ (f.m + 1) * d) && !up

end Sys2Proof.Machine
end

