-- ==== Sys2Proof/Safety/MemForms.lean ====
section
/-! DEFINITION. What the lane memory instructions ask for and do, as a table for statements (R169, R206, R208), and
what one access reads and writes. -/

namespace Sys2Proof.Machine

/-- A lane memory instruction: the kind of its access, the register fields it names, each lane's request, what happens
to a lane at once when all checks pass, and what the access does. -/
structure MemForm where
  kind : AccKind
  fields : List Nat
  req : Lane → Bool → Nat → LaneReq
  fin : Bool → Lane → Lane
  op : Lane → Bool → MemOp

/-- The address of LD and ST: base plus the sign-extended offset times the size (R206). -/
def lmAddr (l : Lane) (trap : Bool) (o : BitVec 12) (b size : Nat) : Word :=
  (l.reg trap b).val + BitVec.ofInt 64 (o.toInt * size)

/-- The registers of a transfer: `first` on, eight bytes each. -/
def transferRegs (first size : Nat) : List Nat := (List.range (Nat.max 1 (size / 8))).map (first + ·)

/-- LD of `size` bytes into registers from `first` on. -/
def loadForm (o : BitVec 12) (b first size : Nat) : Option MemForm :=
  some ⟨.load, b :: transferRegs first size,
    fun l trap n => { lane := n, va := lmAddr l trap o b size, size := size, az := (l.reg trap b).poison },
    fun _ l => l, fun _ trap => .load (absReg trap first) size false⟩

/-- ST of the low `size` bytes of registers from `first` on: little-endian, poisoned when one of them is. -/
def storeForm (o : BitVec 12) (b first size : Nat) : Option MemForm :=
  some ⟨.store, b :: transferRegs first size,
    fun l trap n => { lane := n, va := lmAddr l trap o b size, size := size, az := (l.reg trap b).poison },
    fun _ l => l, fun l trap => .store size
      (((List.range (Nat.max 1 (size / 8))).map (fun i => (l.reg trap (first + i)).val.toNat * 2 ^ (64 * i))).sum % 2 ^ (8 * size))
      ((transferRegs first size).any (fun k => (l.reg trap k).poison))⟩

/-- The lane instructions that read or write memory at once. -/
def memForm (i : Instr) : Option MemForm :=
  match i with
  | .ld8 _ o b d => loadForm o b.toNat d.toNat 1
  | .ld16 _ o b d => loadForm o b.toNat d.toNat 2
  | .ld32 _ o b d => loadForm o b.toNat d.toNat 4
  | .ld64 _ o b d => loadForm o b.toNat d.toNat 8
  | .ldv128 _ o b d => loadForm o b.toNat (d.toNat * 2) 16
  | .ldv256 _ o b d => loadForm o b.toNat (d.toNat * 4) 32
  | .ldv512 _ o b d => loadForm o b.toNat (d.toNat * 8) 64
  | .st8 _ o b d => storeForm o b.toNat d.toNat 1
  | .st16 _ o b d => storeForm o b.toNat d.toNat 2
  | .st32 _ o b d => storeForm o b.toNat d.toNat 4
  | .st64 _ o b d => storeForm o b.toNat d.toNat 8
  | .stv128 _ o b d => storeForm o b.toNat (d.toNat * 2) 16
  | .stv256 _ o b d => storeForm o b.toNat (d.toNat * 4) 32
  | .stv512 _ o b d => storeForm o b.toNat (d.toNat * 8) 64
  | .atom _ _ t o b a d =>
    some ⟨.atom, [a.toNat, b.toNat, d.toNat],
      fun l trap n => { lane := n, va := (l.reg trap a.toNat).val, size := atomWidth t.toNat / 8,
                        aligned := decide ((l.reg trap a.toNat).val.toNat % (atomWidth t.toNat / 8) = 0),
                        hostOk := decide (t.toNat < 4 ∧ (o = 0 ∨ o = 6 ∨ o = 7)), az := (l.reg trap a.toNat).poison },
      fun _ l => l, fun l trap => .atom o.toNat t.toNat (l.reg trap b.toNat).val (l.reg trap d.toNat).val
        ((l.reg trap b.toNat).poison || (l.reg trap d.toNat).poison) (absReg trap d.toNat)⟩
  | .enter n =>
    some ⟨.store, [6, 7], fun l trap k =>
        let nsp : Int := ((l.reg trap 6).val.toNat : Int) - 16 * n.toNat
        { lane := k, va := BitVec.ofInt 64 nsp, size := if n = 0 then 0 else 8 } |> fun q =>
        if (l.reg trap 6).poison = true ∨ n ≠ 0 ∧ (l.reg trap 7).poison = true then
          { q with size := 0, pre := some (6, 2, BitVec.ofInt 64 nsp) }
        else if (l.reg trap 6).val.toNat % 16 ≠ 0 then { q with size := 0, pre := some (0x0B, 2, 0) }
        else if nsp < 0 ∨ nsp < l.stklim.toNat then { q with size := 0, pre := some (0x0B, 1, BitVec.ofInt 64 nsp) }
        else q,
      fun trap l => l.setReg trap 6 ⟨(l.reg trap 6).val - BitVec.ofNat 64 (16 * n.toNat), false⟩,
      fun l trap => .store 8 (l.reg trap 7).val.toNat false⟩
  | .leave n =>
    some ⟨.load, [6, 7], fun l trap k =>
        if (l.reg trap 6).poison = true then { lane := k, va := (l.reg trap 6).val, size := 0, pre := some (6, 2, (l.reg trap 6).val) }
        else if (l.reg trap 6).val.toNat % 16 ≠ 0 then { lane := k, va := (l.reg trap 6).val, size := 0, pre := some (0x0B, 2, 0) }
        else { lane := k, va := (l.reg trap 6).val, size := if n = 0 then 0 else 8 },
      fun _ l => l, fun _ _ => .leave n.toNat⟩
  | _ => none

/-- The accesses of checked requests, in order, each over its single-copy atomic pieces; a request of no bytes makes
none. -/
def accessesOf (f : MemForm) (s : State) (r : Run) (xs : List (LaneReq × Checked)) : List Access :=
  xs.filterMap (fun y => match y.2 with
    | .ok (x :: rest) =>
      some { agent := .lane r.team y.1.lane, va := y.1.va, runs := pieces (x :: rest), op := f.op (laneAt s r y.1.lane) r.trap }
    | _ => none)

/-- Every request passed its checks. -/
def AllPass (xs : List (LaneReq × Checked)) : Prop :=
  ∀ y ∈ xs, y.1.pre = none ∧ y.1.az = false ∧ ∃ runs, y.2 = .ok runs

/-- The little-endian number of n bytes from a location key on. -/
def numberAt (s : State) (k n : Nat) : Nat := ((List.range n).map (fun j => (s.byte (k + j)).toNat * 2 ^ (8 * j))).sum

/-- Whether a line of n bytes from a location key on is poisoned. -/
def poisonAt (s : State) (k n : Nat) : Bool := (List.range n).any (fun j => (s.line ((k + j) / 64)).poison)

/-- n bytes at a place are reached here, from a location key on, in plain memory: in one page, with no stored error and
no bridge failure under way, and no FIFO port. -/
def PlainPlace (s : State) (l : Loc) (n k : Nat) : Prop :=
  s.reach l = .here k ∧ 1 ≤ n ∧ n ≤ 64 ∧ l.offset % 4096 + n ≤ 4096 ∧ s.dsp.hostFail = none ∧ s.fifoPort [(l, n)] = none ∧
    ∀ j, j < n → SMap.get false s.bad ((k + j) / 64) = false

/-- What a load sees of n bytes at a place, from a location key on: the bytes of memory, or those of a sequencer's buffered stores
that are seen now (R148, R238). -/
def seenBytes (s : State) (l : Loc) (k n : Nat) : List Byte := (List.range n).map (fun j => s.sight (l.plus j) (s.byte (k + j)))

/-- Where the bytes of a request that has passed its checks begin. -/
def placeOf (c : Checked) : Loc :=
  match c with
  | .ok ((l, _) :: _) => l
  | _ => .pa 0

/-- Every byte of memory outside n bytes from a location key on is as it was. -/
def OnlyBytes (s t : State) (k n : Nat) : Prop := ∀ a, a < k ∨ k + n ≤ a → t.byte a = s.byte a

/-- The new value of an integer atomic step of w bits (R208): add, min, max, and, or, xor, swap, compare and swap. -/
def atomNew (op : Nat) (sg : Bool) (w old y c : Nat) : Nat :=
  match op with
  | 0 => (old + y) % 2 ^ w
  | 1 => if readInt sg w y < readInt sg w old then y else old
  | 2 => if readInt sg w old < readInt sg w y then y else old
  | 3 => old &&& y
  | 4 => old ||| y
  | 5 => old ^^^ y
  | 6 => y
  | _ => if old = c then y else old

end Sys2Proof.Machine
end

