-- ==== Sys2Proof/Safety/EventForms.lean ====
section
/-! DEFINITION. The terms that statements about the events use: what a queue's event leaves, when a packet is taken and
acted on, and the bytes that an engine's plan writes. -/

namespace Sys2Proof.Machine

/-! ## Queues and packets -/

/-- Host queue q becomes x, and nothing else changes. -/
def OnlyQueue (s t : State) (q : Nat) (x : HostQueue) : Prop :=
  t = { s with dsp := { s.dsp with queues := t.dsp.queues } } ∧ t.queue q = x ∧ ∀ n, n ≠ q → t.queue n = s.queue n

/-- What reads of the dispatcher waited for is forgotten (R110). -/
def State.giveUpReads (s : State) : State := { s with dsp := { s.dsp with pageWaits := [] } }

/-- The state differs at most in the dispatcher's own registers. -/
def OnlyDispatcher (s t : State) : Prop := t = { s with dsp := t.dsp }

/-- The event i has the turn for queue q, which is active (or blocked, for a reread); its head is packet p, whose read
leaves s1. -/
def HeadTaken (s : State) (i : Instr) (q : Nat) (blocked : Bool) (r : QueueRights) (p : Packet) (s1 : State) : Prop :=
  s.turn = .event i (.nat q) ∧ s.queueActive q blocked = true ∧ s.headPacket q = (some (r, p), s1)

/-- The packet names a context that exists, where it must, and is well formed (R111, R114). -/
def WellFormedPacket (s : State) (r : QueueRights) (p : Packet) : Prop :=
  (virtualKind p.kind = true → s.noContext p.asid = false) ∧ p.malformed r = false

/-- Packet p of queue q is acted on in state s2: it is well formed and its dependence is met (R113). -/
def Accepted (s : State) (i : Instr) (q : Nat) (blocked : Bool) (r : QueueRights) (p : Packet) (s2 : State) : Prop :=
  ∃ s1, HeadTaken s i q blocked r p s1 ∧ WellFormedPacket s1 r p ∧ s1.dependence p = (.met, s2)

/-- A wait of the dispatcher: no queue has moved, and no completion word is written or held. -/
def StaysQueued (s t : State) : Prop :=
  t.mem = s.mem ∧ (∀ n, t.queue n = s.queue n) ∧ (∀ c, t.port c = s.port c) ∧ t.dsp.late = s.dsp.late

/-- The event by which a packet of a kind is taken. -/
def packetEventOf (kind : Nat) : Instr :=
  match kind with
  | 2 => .create
  | 3 => .update
  | 4 => .move
  | 5 => .resume
  | 6 => .destroy
  | 7 => .capstart
  | 8 => .capstop
  | _ => .launch

/-! ## Engines -/

/-- The bytes that a plan writes, in order: address, mask and value; a count or an error writes none. -/
def planBytes (xs : List PlanItem) : List (Nat × Nat × Nat) :=
  xs.flatMap (fun i => match i with
    | .write va bs _ _ => bs.zipIdx.map (fun b => (va + b.2, b.1))
    | _ => [])

/-- The bytes that a plan counts into its arrival word. -/
def planCount (xs : List PlanItem) : Nat :=
  (xs.map (fun i => match i with
    | .count n => n
    | _ => 0)).sum

/-- The errors among a plan's items. -/
def planFails (xs : List PlanItem) : Bool :=
  xs.any (fun i => match i with
    | .fail _ _ _ => true
    | _ => false)

/-! ## Pages and flits -/

/-- The flits of a payload for chip `dst` have been queued, in order: in a tick with room, or until there is one (R347, R348). -/
def Sent (s t : State) (dst : Nat) (b : FlitBody) : Prop :=
  let flits := fun (f : Fabric) => f.outbox.map (fun y => (y.2.dst, y.2.body))
  let new := b.flits.map (fun x => (dst, x))
  ∃ n, flits t.fab = flits s.fab ++ new.take n ∧ t.fab.unsent = s.fab.unsent ++ new.drop n

/-- Frame f's entry has these fields, and no other entry has changed (R320). -/
def FrameBecomes (s t : State) (f loc location acc : Nat) (pin mig : Bool) : Prop :=
  entryLoc (t.frame f) = loc ∧ entryLocation (t.frame f) = location ∧ entryAcc (t.frame f) = acc ∧
    entryPin (t.frame f) = pin ∧ entryMig (t.frame f) = mig ∧ ∀ g, g ≠ f → t.frame g = s.frame g

/-- The 4,096 bytes from a location key on stand at another, and none elsewhere has changed. -/
def PageMoved (s t : State) (src dst : Nat) : Prop :=
  (∀ j, j < 4096 → t.byte (dst + j) = s.byte (src + j)) ∧ OnlyBytes s t dst 4096

/-- No line of a frame stands where an engine has claimed it or has still to read it, nor carries a stored error. -/
def FrameFree (s : State) (f : Nat) : Prop :=
  s.frameBusy f = false ∧ ∀ k ∈ s.frameLines f, SMap.get false s.bad k = false

end Sys2Proof.Machine
end

