-- ==== Sys2Proof/Safety/SeqForms.lean ====
section
/-! DEFINITION. What the arithmetic of the sequencer computes, as a table for statements written from R86, R87 and
R147, and the conditions of its branches (R149). -/

namespace Sys2Proof.Machine

/-- A sequencer instruction of `len` bytes that writes one value, computed from its registers, into register d. -/
structure SeqForm where
  len : Nat
  d : Nat
  val : Sequencer → Word

/-- d := f of registers a and b, in a 32-bit encoding. -/
def seqTwo (d a b : BitVec 5) (f : Word → Word → Word) : Option SeqForm :=
  some ⟨4, d.toNat, fun q => f (q.reg a.toNat) (q.reg b.toNat)⟩
/-- d := f of register a, in a 32-bit encoding. -/
def seqOne (d a : BitVec 5) (f : Word → Word) : Option SeqForm := some ⟨4, d.toNat, fun q => f (q.reg a.toNat)⟩
/-- d := f of registers d and b, in a 16-bit encoding (R86). -/
def seqHalf (d b : BitVec 5) (f : Word → Word → Word) : Option SeqForm :=
  some ⟨2, d.toNat, fun q => f (q.reg d.toNat) (q.reg b.toNat)⟩

/-- Signed quotient and remainder under R56. -/
def quotS (x y : Word) : Word :=
  if y = 0 then BitVec.allOnes 64 else if x = 1 <<< 63 ∧ y = BitVec.allOnes 64 then x else BitVec.ofInt 64 (x.toInt.tdiv y.toInt)
def remS (x y : Word) : Word :=
  if y = 0 then x else if x = 1 <<< 63 ∧ y = BitVec.allOnes 64 then 0 else BitVec.ofInt 64 (x.toInt.tmod y.toInt)
/-- Unsigned quotient and remainder under R56. -/
def quotU (x y : Word) : Word := if y = 0 then BitVec.allOnes 64 else x / y
def remU (x y : Word) : Word := if y = 0 then x else x % y

/-- The arithmetic of the sequencer (R147). -/
def seqForm (i : Instr) : Option SeqForm :=
  match i with
  | .saluAdd b a d => seqTwo d a b (fun x y => x + y)
  | .saluSub b a d => seqTwo d a b (fun x y => x - y)
  | .saluAnd b a d => seqTwo d a b (fun x y => x &&& y)
  | .saluOr b a d => seqTwo d a b (fun x y => x ||| y)
  | .saluXor b a d => seqTwo d a b (fun x y => x ^^^ y)
  | .saluShl b a d => seqTwo d a b (fun x y => x <<< (y % 64))
  | .saluShr b a d => seqTwo d a b (fun x y => x >>> (y % 64))
  | .saluShra b a d => seqTwo d a b (fun x y => x.sshiftRight' (y % 64))
  | .smulMul b a d => seqTwo d a b (fun x y => x * y)
  | .smulMulhs b a d => seqTwo d a b (fun x y => ((x.signExtend 128 * y.signExtend 128) >>> 64).setWidth 64)
  | .smulMulhu b a d => seqTwo d a b (fun x y => ((x.setWidth 128 * y.setWidth 128) >>> 64).setWidth 64)
  | .smulDiv b a d => seqTwo d a b quotS
  | .smulDivu b a d => seqTwo d a b quotU
  | .smulRem b a d => seqTwo d a b remS
  | .smulRemu b a d => seqTwo d a b remU
  | .scmpMin b a d => seqTwo d a b (fun x y => if x.slt y then x else y)
  | .scmpMax b a d => seqTwo d a b (fun x y => if x.slt y then y else x)
  | .scmpMinu b a d => seqTwo d a b (fun x y => if x < y then x else y)
  | .scmpMaxu b a d => seqTwo d a b (fun x y => if x < y then y else x)
  | .scmpSlt b a d => seqTwo d a b (fun x y => if x.slt y then 1 else 0)
  | .scmpSltu b a d => seqTwo d a b (fun x y => if x < y then 1 else 0)
  | .scmpSeq b a d => seqTwo d a b (fun x y => if x = y then 1 else 0)
  | .siAdd k a d => seqOne d a (fun x => x + k.signExtend 64)
  | .siAnd k a d => seqOne d a (fun x => x &&& k.signExtend 64)
  | .siOr k a d => seqOne d a (fun x => x ||| k.signExtend 64)
  | .siXor k a d => seqOne d a (fun x => x ^^^ k.signExtend 64)
  | .addhi k a d => seqOne d a (fun x => x + (k.signExtend 64 <<< 16))
  | .shiftShl n a d => seqOne d a (fun x => x <<< n.toNat)
  | .shiftShr n a d => seqOne d a (fun x => x >>> n.toNat)
  | .shiftShra n a d => seqOne d a (fun x => x.sshiftRight n.toNat)
  | .shiftRol n a d => seqOne d a (fun x => (x <<< n.toNat) ||| (x >>> (64 - n.toNat)))
  | .scMov b d => seqHalf d b (fun _ y => y)
  | .scAdd b d => seqHalf d b (fun x y => x + y)
  | .scSub b d => seqHalf d b (fun x y => x - y)
  | .scAnd b d => seqHalf d b (fun x y => x &&& y)
  | .scOr b d => seqHalf d b (fun x y => x ||| y)
  | .scXor b d => seqHalf d b (fun x y => x ^^^ y)
  | .scShl b d => seqHalf d b (fun x y => x <<< (y % 64))
  | .scShr b d => seqHalf d b (fun x y => x >>> (y % 64))
  | .scShra b d => seqHalf d b (fun x y => x.sshiftRight' (y % 64))
  | .scMul b d => seqHalf d b (fun x y => x * y)
  | .scMin b d => seqHalf d b (fun x y => if x.slt y then x else y)
  | .scMax b d => seqHalf d b (fun x y => if x.slt y then y else x)
  | .scMinu b d => seqHalf d b (fun x y => if x < y then x else y)
  | .scMaxu b d => seqHalf d b (fun x y => if x < y then y else x)
  | .scNeg b d => seqHalf d b (fun _ y => 0 - y)
  | .scNot b d => seqHalf d b (fun _ y => y ^^^ BitVec.allOnes 64)
  | _ => none

/-- A conditional branch of the sequencer: offset, register tested, and when it is taken, by the register's sign bit
and whether it is zero (R149). -/
def branchForm (i : Instr) : Option (BitVec 16 × BitVec 5 × (Bool → Bool → Bool)) :=
  match i with
  | .bz o a => some (o, a, fun _ zero => zero)
  | .bnz o a => some (o, a, fun _ zero => !zero)
  | .bltz o a => some (o, a, fun neg _ => neg)
  | .bgez o a => some (o, a, fun neg _ => !neg)
  | .bgtz o a => some (o, a, fun neg zero => !neg && !zero)
  | .blez o a => some (o, a, fun neg zero => neg || zero)
  | _ => none

/-- The addition of one pair of a step word at the end of a pass: register `addr` rises by register `inc`, as they
stand; `addr` 0 names no register (R92, R153). -/
def passAdd (f : Nat → Word) (addr inc : Nat) : Nat → Word := fun n => if n = addr ∧ addr ≠ 0 then f addr + f inc else f n

/-- The registers after a pass: pair 1 in bits 21 to 12 and pair 2 in bits 31 to 22 of the step word (R92, R153). -/
def passEnd (w : Word) (f : Nat → Word) : Nat → Word :=
  passAdd (passAdd f (w.extractLsb' 17 5).toNat (w.extractLsb' 12 5).toNat) (w.extractLsb' 27 5).toNat (w.extractLsb' 22 5).toNat

/-- Byte j of what the sequencer reads at a place: its own latest buffered byte there, else what any load sees there now, of
memory and of other buffered stores (R148, R238). -/
def seqSees (s : State) (buf : List BufByte) (l : Loc) (k j : Nat) : Byte :=
  match buf.reverse.find? (fun b => decide (b.loc = l.plus j)) with
  | some b => b.val
  | none => s.sight (l.plus j) (s.byte (k + j))

/-- The special registers that the sequencer alone reads (R151, R281). -/
def seqOwnSpecial (t : Team) (sel : Nat) : Option Word :=
  match sel with
  | 0x10 => some t.seq.scause
  | 0x11 => some t.seq.sepc
  | 0x12 => some t.seq.saddr
  | 0x1B => some t.mf.tcreat
  | 0x1C => some t.mf.tforcr
  | 0x1D => some t.mf.tflags
  | 0x1F => some t.mf.tfcre
  | 0x20 => some t.mf.tffor
  | 0x21 => some t.mf.toerr
  | 0x22 => some t.mf.tocre
  | _ => none

/-- The special registers that both streams read and that name the team, its grid and its context (R105, R138, R224). -/
def teamSpecial (s : State) (tk sel : Nat) : Option Word :=
  let g := s.gridOf tk
  let ix := keyIx tk
  let q := g.launch.cx * g.launch.cy
  let three (a b c : Nat) : Word := BitVec.ofNat 64 a + (BitVec.ofNat 64 b <<< 16) + (BitVec.ofNat 64 c <<< 32)
  match sel with
  | 0x04 => some (three (ix % g.launch.gx) (ix / g.launch.gx % g.launch.gy) (ix / (g.launch.gx * g.launch.gy)))
  | 0x06 => some (three g.launch.gx g.launch.gy g.launch.gz)
  | 0x07 => some (BitVec.ofNat 64 s.fab.tick)
  | 0x09 => some (BitVec.ofNat 64 g.asid)
  | 0x0A => some (BitVec.ofNat 64 g.rcd.mclass)
  | 0x0C => some (BitVec.ofNat 64 (if g.rcd.quantum = 0 then 2000 else g.rcd.quantum))
  | 0x0D => some (BitVec.ofNat 64 ix)
  | 0x05 => some (BitVec.ofNat 64 (ix / q % 2 ^ 48) + (BitVec.ofNat 64 (ix % q % g.launch.cx) <<< 48) +
      (BitVec.ofNat 64 (ix % q / g.launch.cx) <<< 52))
  | 0x08 => some (s.fab.vnum.setWidth 64 + (BitVec.ofNat 64 (s.fab.members.length % 8192) <<< 32) +
      (if s.fab.chip ∈ s.fab.members then 1 <<< 48 else 0) + (if s.fab.isol then 1 <<< 49 else 0) +
      (BitVec.ofNat 64 (s.fab.chip % 4096) <<< 50))
  | 0x19 => some 0x05030506
  | 0x1A => some ((s.team tk).bmode.setWidth 64)
  | 0x23 => some (s.fw.fwCount.setWidth 64 + (s.fw.fwLast.setWidth 64 <<< 32))
  | _ => none

end Sys2Proof.Machine
end

