-- ==== Sys2Proof/Safety/TileForms.lean ====
section
/-! DEFINITION. What the tile instructions that create interior and constant nodes accept and create, as a table for
statements written from R283 to R296, and the terms for what a tile instruction leaves. -/

namespace Sys2Proof.Machine

/-- A tile field as it reads in a LOOP body: its step lies in the step word from bit `pos` on, signed (R92). -/
def steppedField (q : Sequencer) (pos : Nat) (f : BitVec 4) : Nat :=
  match (if q.trap then q.hloop else q.loop) with
  | none => f.toNat
  | some l => (f + l.pass.setWidth 4 * l.step.extractLsb' pos 4).toNat

/-- The accumulator value format of a product's format code, and whether it is the INT32 pair (R43, R261). -/
def accFormat (c : Nat) : Nat × Nat :=
  ([(0, 0)] ++ List.replicate 9 (1, 0) ++ List.replicate 9 (0x0A, 0) ++ [(0x13, 0), (0x14, 0), (0x14, 0), (0x14, 0), (0x17, 1)]).getD
    c (0x14, 0)

/-- A tile instruction that creates a node: the field of td; its operand fields, each with the place of its step;
whether the node that td names is a further operand; the check of its shape word; the check of its operands; and the
node, its operands aside. -/
structure TileForm where
  td : BitVec 4
  srcs : List (Nat × BitVec 4)
  addend : Bool := false
  shape : Sequencer → Bool := fun _ => true
  ok : List Node → Bool
  node : Sequencer → List Node → NewNode

/-- A product of A and B, M × K and K × N, with an addend of the accumulator format or none (R291). -/
def productForm (op : Nat) (c : BitVec 2) (m : BitVec 5) (add : Option (BitVec 4)) (b a d : BitVec 4) : TileForm where
  td := d
  srcs := [(4, a), (8, b)] ++ (add.map (fun z => (32, z))).toList
  ok ns := match ns with
    | [x, y] => decide ((x.vfmt = m.toNat ∧ x.vkind = 0) ∧ (y.vfmt = m.toNat ∧ y.vkind = 0) ∧ x.cols = y.rows ∧ x.rows ≤ 64 ∧ y.cols ≤ 64)
    | [x, y, z] => decide ((x.vfmt = m.toNat ∧ x.vkind = 0) ∧ (y.vfmt = m.toNat ∧ y.vkind = 0) ∧ x.cols = y.rows ∧ x.rows ≤ 64 ∧
        y.cols ≤ 64 ∧ z.vfmt = (accFormat m.toNat).1 ∧ z.vkind = (accFormat m.toNat).2 ∧ z.rows = x.rows ∧ z.cols = y.cols)
    | _ => false
  node _ ns := match ns with
    | x :: y :: _ => { op := op, fmt := m.toNat, contract := c.toNat, rows := x.rows, cols := y.cols, kdim := x.cols,
                       vfmt := (accFormat m.toNat).1, vkind := (accFormat m.toNat).2 }
    | _ => { op := op, fmt := 0, rows := 0, cols := 0, vfmt := 0 }

/-- An element-wise instruction (R294). -/
def elementForm (op : Nat) (c : BitVec 2) (m : BitVec 5) (b a d : BitVec 4) : TileForm where
  td := d
  srcs := [(4, a), (8, b)]
  ok ns := match ns with
    | [x, y] => decide ((x.vfmt = m.toNat ∧ x.vkind = 0) ∧ (y.vfmt = m.toNat ∧ y.vkind = 0) ∧ x.rows = y.rows ∧ x.cols = y.cols)
    | _ => false
  node _ ns := match ns with
    | x :: _ => { op := op, fmt := m.toNat, contract := c.toNat, rows := x.rows, cols := x.cols, vfmt := m.toNat }
    | _ => { op := op, fmt := 0, rows := 0, cols := 0, vfmt := 0 }

/-- The tile instructions that create interior and constant nodes. -/
def tileForm (i : Instr) : Option TileForm :=
  match i with
  | .tmul c m b a d => some (productForm 0 c m none b a d)
  | .tmac c m z b a d => some (productForm 1 c m (some z) b a d)
  | .tcmul c m b a d => some (productForm 2 c m none b a d)
  | .tcmulAddend c m z b a d => some (productForm 3 c m (some z) b a d)
  | .tbp c m b a d => some {
      td := d, srcs := [(4, a), (8, b)]
      ok := fun ns => match ns with
        | [x, y] => decide ((x.vfmt = m.toNat ∧ x.vkind = 0) ∧ (y.vfmt = m.toNat ∧ y.vkind = 0) ∧ x.cols = y.rows ∧ x.rows ≤ 64 ∧
            y.cols ≤ 64 ∧ x.cols % 32 = 0)
        | _ => false
      node := fun _ ns => match ns with
        | x :: y :: _ => { op := 4, fmt := m.toNat, contract := c.toNat, rows := x.rows, cols := y.cols, kdim := x.cols,
                           vfmt := m.toNat, vkind := 2 }
        | _ => { op := 4, fmt := 0, rows := 0, cols := 0, vfmt := 0 } }
  | .tsca c m z b a d => some {
      td := d, srcs := [(4, a), (8, b), (32, z)], addend := true
      ok := fun ns =>
        let ka (p : Node) : Nat := p.kdim / 32 + if m = 0x12 then 4 else 0
        let scales (p x y : Node) : Bool := decide (p.vkind = 2 ∧ p.vfmt = m.toNat ∧ x.vfmt = 0x0D ∧ x.vkind = 0 ∧ y.vfmt = 0x0D ∧
          y.vkind = 0 ∧ x.rows = p.rows ∧ x.cols = ka p ∧ y.rows = ka p ∧ y.cols = p.cols)
        match ns with
        | [p, x, y] => scales p x y
        | [p, x, y, w] => scales p x y && decide (w.vfmt = 0x01 ∧ w.vkind = 0 ∧ w.rows = p.rows ∧ w.cols = p.cols)
        | _ => false
      node := fun _ ns => match ns with
        | p :: _ => { op := 5, fmt := m.toNat, contract := c.toNat, rows := p.rows, cols := p.cols, vfmt := 0x01 }
        | _ => { op := 5, fmt := 0, rows := 0, cols := 0, vfmt := 0 } }
  | .tadd c m b a d => some (elementForm 6 c m b a d)
  | .tsub c m b a d => some (elementForm 7 c m b a d)
  | .thad c m b a d => some (elementForm 9 c m b a d)
  | .ttr c m a d => some {
      td := d, srcs := [(4, a)]
      ok := fun ns => match ns with
        | [x] => decide (x.vfmt = m.toNat)
        | _ => false
      node := fun _ ns => match ns with
        | x :: _ => { op := 8, fmt := m.toNat, contract := c.toNat, rows := x.cols, cols := x.rows,
                      kdim := if x.vkind = 2 then x.kdim else 0, vfmt := x.vfmt, vkind := x.vkind }
        | _ => { op := 8, fmt := 0, rows := 0, cols := 0, vfmt := 0 } }
  | .tcvt m a d => some {
      td := d, srcs := [(4, a)]
      ok := fun ns => match ns with
        | [x] => decide (x.vkind ≠ 2 ∧ (0x13 ≤ x.vfmt ↔ 0x13 ≤ m.toNat))
        | _ => false
      node := fun _ ns => match ns with
        | x :: _ => { op := 10, fmt := m.toNat, rows := x.rows, cols := x.cols, vfmt := m.toNat }
        | _ => { op := 10, fmt := 0, rows := 0, cols := 0, vfmt := 0 } }
  | .tzero m b d => some {
      td := d, srcs := [], ok := fun ns => ns.isEmpty
      shape := fun q => shapeOk m.toNat true (q.reg b.toNat).toNat && decide (m ≠ 0x11 ∧ m ≠ 0x12)
      node := fun q _ =>
        let w := q.reg b.toNat
        { op := 21, scal := [w], fmt := m.toNat, rows := (w.extractLsb' 0 9).toNat, cols := (w.extractLsb' 9 9).toNat, vfmt := m.toNat } }
  | .tfill m b a d => some {
      td := d, srcs := [], ok := fun ns => ns.isEmpty
      shape := fun q => shapeOk m.toNat true (q.reg b.toNat).toNat
      node := fun q _ =>
        let w := q.reg b.toNat
        { op := 22, scal := [q.reg a.toNat &&& BitVec.ofNat 64 (fillMask m.toNat), w], fmt := m.toNat,
          rows := (w.extractLsb' 0 9).toNat, cols := (w.extractLsb' 9 9).toNat, vfmt := m.toNat } }
  | _ => none

/-- The operands that a form's fields name, td's among them where it is an addend and names a node; none where a field
names no node. -/
def operandsOf (f : TileForm) (q : Sequencer) (m : Manifest) : Option (List (Nat × Node)) :=
  let xs := f.srcs.map (fun p => m.operand (steppedField q p.1 p.2))
  if xs.all (·.isSome) then
    some (xs.filterMap id ++ (if f.addend then (m.operand (steppedField q 0 f.td)).toList else []))
  else none

/-- The node that a form creates from its operands. -/
def createdBy (f : TileForm) (q : Sequencer) (os : List (Nat × Node)) : NewNode :=
  { f.node q (os.map (·.2)) with opnds := os.map (·.1) }

/-- The entry that a node gets when it is created at an address (R264, R283). -/
def newEntry (x : NewNode) (pc : Word) (leaf : Bool) (region : List (Loc × Nat)) (val : List Nat) (cap : Nat) : Node where
  op := x.op
  opnds := x.opnds
  refs := x.opnds
  scal := x.scal
  fmt := x.fmt
  contract := x.contract
  rows := x.rows
  cols := x.cols
  kdim := x.kdim
  vfmt := x.vfmt
  vkind := x.vkind
  creator := pc &&& (2 ^ 56 - 1)
  ncre := 1
  st := if leaf then .captured else .built
  fcode := 0
  flags := 0
  val := val
  gran := 0
  ngran := 0
  region := region
  capNum := cap
  unnamed := 0

/-- The manifest with a new node that td names. -/
def inserted (m : Manifest) (td : Nat) (n : Node) : Manifest :=
  { m with nodes := m.nodes ++ [(m.create, n)], create := m.create + 1 }.setName td (some m.create)

/-- A creator is added to a node that td then names (R264, R265). -/
def sharedAs (m : Manifest) (td k : Nat) : Manifest := (m.modNode k (Node.share m.serial)).setName td (some k)

/-- R266 lets a node with these operands in: none has depth 16, and the budget has room. -/
def roomFor (s : State) (tk : Nat) (m : Manifest) (opnds : List Nat) : Prop :=
  (∀ k ∈ opnds, m.depth 17 k < 16) ∧ m.counted.length < (s.gridOf tk).launch.graph

/-- A tile instruction has completed: the manifest is m, the sequencer is q, and nothing else has changed. -/
def TileDone (s t : State) (tk : Nat) (m : Manifest) (q : Sequencer) : Prop :=
  t = { s with teams := t.teams } ∧ (∀ k, k ≠ tk → t.team k = s.team k) ∧ t.team tk = { s.team tk with mf := m, seq := q }

/-- A precise fault of class 0x08 (R280, R286): %tcreat and %tforcr hold the instruction's own address. -/
def TileTrapped (s t : State) (tk : Nat) (m : Manifest) (code : Nat) : Prop :=
  let pc := (s.team tk).seq.pc &&& (2 ^ 56 - 1)
  SeqTrapEntered (s.setTeam tk { s.team tk with mf := { m with tcreat := pc, tforcr := pc } }) t tk (s.team tk).seq.pc (0x0800 + code) 0

/-- A force as an instruction issues it: root, kind, forcer, the bytes it writes and its place among the pushes. -/
def Force.summary (f : Force) : Nat × ForceKind × Word × List (Loc × Nat) × Nat := (f.root, f.kind, f.faddr, f.target, f.num)

/-- The value of element (i, j) of a tile, its p numbers. -/
def Tile.at_ (t : Tile) (p i j : Nat) : List Nat := (List.range p).map (fun c => t.val.getD ((i * t.cols + j) * p + c) 0)

/-- A tile holds p numbers for each of its elements. -/
def Tile.full (t : Tile) (p : Nat) : Prop := t.val.length = t.rows * t.cols * p

/-- One step of a real product's chain (R59, R60): the accumulator plus the product of two elements, rounded once, or
wrapped with IV. -/
def productStep (fmt : Nat) (acc : Nat × Flags) (x y : Nat) : Nat × Flags :=
  let k := matrixKind fmt
  if k.isFloat then
    let f := accFloat k
    let o := deliverExact f 0 (fmaExact 0 (numValue k x) (numValue k y) (f.decode acc.1))
    (o.1, acc.2 ||| o.2)
  else
    let e := asSigned 32 acc.1 + intFactor k x * intFactor k y
    ((e % 2 ^ 32).toNat, acc.2 ||| flagIf (decide (e < -2147483648 ∨ 2147483648 ≤ e)) flagIV)

/-- One step of a part of a complex product (R61): the accumulator plus, or minus, the product of two parts, rounded once in the
component accumulator format, or wrapped with IV. -/
def componentStep (fmt : Nat) (minus : Bool) (acc : Nat × Flags) (x y : Nat) : Nat × Flags :=
  let k := matrixKind fmt
  if fmt = 0x17 then
    let e := asSigned 32 acc.1 + (if minus then -1 else 1) * (intFactor k x * intFactor k y)
    ((e % 2 ^ 32).toNat, acc.2 ||| flagIf (decide (e < -2147483648 ∨ 2147483648 ≤ e)) flagIV)
  else
    let f := if fmt = 0x13 then fmtF64 else fmtF32
    let o := deliverExact f 0 (fmaExact 0 (if minus then (numValue k x).negate else numValue k x) (numValue k y) (f.decode acc.1))
    (o.1, acc.2 ||| o.2)

/-- One step of a block partial (R62): in FP32 for the formats scaled by E8M0, over decoded levels in INT32 for Q16. -/
def partialStep (fmt : Nat) (acc : Nat × Flags) (x y : Nat) : Nat × Flags :=
  if fmt = 0x12 then (((asSigned 32 acc.1 + q16Level x * q16Level y) % 2 ^ 32).toNat, acc.2)
  else
    let o := deliverExact fmtF32 0 (fmaExact 0 (numValue (matrixKind fmt) x) (numValue (matrixKind fmt) y) (fmtF32.decode acc.1))
    (o.1, acc.2 ||| o.2)

/-- The value of a block partial (R62). -/
def partialValue (fmt p : Nat) : FVal := if fmt = 0x12 then .ofInt (asSigned 32 p) else fmtF32.decode p

/-- An FP32 super-scale from its four bytes, lowest first (R293). -/
def superOf (b : Nat → Nat) : FVal := fmtF32.decode (b 0 + 2 ^ 8 * b 1 + 2 ^ 16 * b 2 + 2 ^ 24 * b 3)

/-- The factor g of a block (R63): the product of two powers of two, or of Q16 scales and super-scales over 16129. -/
def blockScale (fmt a c : Nat) (sa sb : FVal) : FVal :=
  if fmt = 0x12 then (mulExact (.fin false ((a + 1) * (c + 1)) (256 * 256 * 16129)) (mulExact sa sb).1).1
  else (mulExact (ofE8M0 a) (ofE8M0 c)).1

end Sys2Proof.Machine
end

