-- ==== Sys2Proof/Certificates/Slice0/Obligations.lean ====
section
/-! DEFINITION. The statements for the provers. The tables and frames they use stand in Sys2Proof/Safety.lean and the
files of Sys2Proof/Safety. -/

open Sys2Proof Sys2Proof.Machine

/-! ## The machine -/

/-- Module reset (R98, R228, R243, R244, R245, R320, R390): every context is free, no team or grid lives, memory and
the indirection table read zero with no poison, timestamps are zero, translations and caches are empty, every queue is
disabled, the attestation log's chain and count are zero, and the chip runs. That host memory and storage, which a reset does not
wipe, read zero in the state after reset is the model's choice (log 6).

Memory is in its canonical form right after reset: the base of the invariant that every step keeps. -/
def Obligations.ResetIsWiped : Prop :=
  (let s := State.reset
   (∀ a, (s.ctx a).st = .free) ∧ (∀ k, s.team k = {} ∧ (s.grid k).live = false) ∧ (∀ k, s.byte k = 0) ∧
     (∀ k, (s.line k).poison = false ∧ (s.line k).wts = 0 ∧ (s.line k).rts = 0 ∧ (s.line k).copies = []) ∧
     (∀ f, s.frame f = 0) ∧ (∀ quad, s.tlbOf quad = []) ∧ (∀ c, (s.coreAt c).pts = 0 ∧ (s.coreAt c).icache = [] ∧ (s.coreAt c).ce = []) ∧
     (∀ q, (s.queue q).st = .disabled ∧ (s.queue q).en = false ∧ (s.queue q).held = []) ∧ s.fw.chain = 0 ∧ s.fw.fwCount = 0 ∧
     s.chipStopped = false) ∧
  (State.reset.memWf = true)

/-- Rounding (R44 to R46, R49) and the special inputs of the special functions (R54). An exact value with sign neg and magnitude
n / d, between the neighbours lo and lo + 1 of its format, takes the neighbour that the mode names, one that the format holds being
returned unchanged; beyond the largest finite value it is replaced as R45 says, with OF and NX; NX tells that it is inexact, and UF
that it is tiny as well. A NaN, and an infinity where the format has none, are delivered as R34 and R45 say. Reciprocal, reciprocal
square root, exp2, log2, sin, cos and tanh of f32, f16 and b16 give the results and flags of R54's table; the reciprocal of a nonzero
finite value is the rounded quotient. -/
def Obligations.RoundingAndSpecialInputs : Prop :=
  (∀ (f : FFmt) (mode : Nat) (neg : Bool) (n d lo : Nat), f ∈ allFormats → mode < 4 → 0 < n → 0 < d →
    let N := n * 2 ^ (f.bias + f.m)
    gridUnit f lo * d ≤ N → N < gridUnit f (lo + 1) * d →
    let mag := roundedMag f mode neg N d lo
    let inexact := decide (N ≠ gridUnit f lo * d)
    (mag ≤ f.maxMag → f.deliver mode (.fin neg n d) =
      (f.pack neg mag, flagIf inexact flagNX ||| flagIf (inexact && tinyMag f mode neg N d) flagUF)) ∧
    (f.maxMag < mag → f.deliver mode (.fin neg n d) = (f.pack neg (overflowed f mode neg), flagOF ||| flagNX))) ∧
  (∀ (f : FFmt) (mode : Nat) (neg sig : Bool) (d : Nat), f ∈ allFormats →
    f.deliver mode (.fin neg 0 d) = (f.pack neg 0, 0) ∧
    f.deliver mode (.inf neg) = (if f.cls = .classI then (f.pack neg (f.maxMag + 1), 0) else (f.pack neg f.maxMag, flagOF ||| flagNX)) ∧
    f.deliver mode (.nan sig) = (f.canonicalNaN, if f.cls = .classN then flagNV else 0)) ∧
  (∀ (f : FFmt) (x : Nat), f = fmtF32 ∨ f = fmtF16 ∨ f = fmtB16 →
    let inf := fun neg => f.pack neg (f.maxMag + 1)
    let one := fun neg => f.pack neg (f.bias * 2 ^ f.m)
    (∀ sig, f.decode x = .nan sig → ∀ g ∈ [fRcp, fRsq, fExp2, fLog2, fSin, fCos, fTanh],
      g f x = (f.canonicalNaN, if sig then flagNV else 0)) ∧
    (∀ neg d, f.decode x = .fin neg 0 d → fRcp f x = (inf neg, flagDZ) ∧ fRsq f x = (inf neg, flagDZ) ∧ fLog2 f x = (inf true, flagDZ) ∧
      fSin f x = (f.pack neg 0, 0) ∧ fTanh f x = (f.pack neg 0, 0) ∧ fCos f x = (one false, 0)) ∧
    (∀ neg, f.decode x = .inf neg → fRcp f x = (f.pack neg 0, 0) ∧
      fRsq f x = (if neg then (f.canonicalNaN, flagNV) else (f.pack false 0, 0)) ∧
      fExp2 f x = (if neg then f.pack false 0 else inf false, 0) ∧
      fLog2 f x = (if neg then (f.canonicalNaN, flagNV) else (inf false, 0)) ∧
      fSin f x = (f.canonicalNaN, flagNV) ∧ fCos f x = (f.canonicalNaN, flagNV) ∧ fTanh f x = (one neg, 0)) ∧
    (∀ n d, 0 < n → f.decode x = .fin true n d → fRsq f x = (f.canonicalNaN, flagNV) ∧ fLog2 f x = (f.canonicalNaN, flagNV)) ∧
    (∀ n, 0 < n → f.decode x = .fin false n n → fLog2 f x = (f.pack false 0, 0)) ∧
    (∀ neg n d, 0 < n → f.decode x = .fin neg n d → fRcp f x = f.deliver 0 (.fin neg d n)))

/-- The words that the spec prints as encodings (R73, R76, R79, R81, R83, R86, R88 to R90, R150, R288, R368, R92) decode to
the instructions that stand beside them. -/
def Obligations.PrintedEncodingsDecode : Prop :=
  decodeLane 0x180C2103 = .ok (.add 0 0 3 3 2 4) ∧
  decodeLane 0x800810CD = .ok (.shfiShl 2 2 1 3) ∧ decodeLane 0xFFFFEC7D = .ok (.brc 0x3FFFFB 1) ∧
  decodeLane 0x0100B271 = .ok (.st8 0 64 11 9) ∧ decodeLane 0x38C2 = .ok (.lcAddI32 7 6) ∧
  decodeLane 0x0B289217 = .ok (.fma 0 0 11 10 9 8) ∧ decodeLane 0x8200003B = .ok .exit ∧
  decodeSeq 0xFF00008D = .ok (.siAdd 0xFF00 0 2) ∧ decodeSeq 0x00000861 = .ok (.barBarw 0 1) ∧
  decodeSeq 0x12401149 = .ok (.sld 18 2 2 5) ∧ decodeSeq 0x00030223 = .ok (.sxPushCe 3 8) ∧
  decodeSeq 0x29904165 = .ok (.tmac 1 6 4 1 0 5) ∧ decodeSeq 0x0020302B = .ok (.join 6)

/-- A step runs the instruction that stands at the counter of the stream whose turn it is (R65, R94, R128, R131, R146, R161): the
schedule's head takes the turn. In a slot's turn the head run r, where none of its streams stands at a breakpoint, fetches at r's
counter; in a sequencer's turn the sequencer, where it may issue, no trap is due and it stands at no breakpoint, fetches at its own
counter. A word that decodes to i executes i in the state after the fetch; a word that decodes to nothing is the undefined
instruction; at a breakpoint the match is executed; an event is executed by name. A stopped chip answers to resets alone (R370).
That the turns stand in a schedule is the model's choice (log 2). -/
def Obligations.StepsRunTheDecodedInstruction : Prop :=
  ∀ (s : State) (a : Turn) (rest : List Turn), s.schedule = a :: rest →
    let u := { s with schedule := rest, turn := a }
    (s.chipStopped = false →
      (∀ c p j r, a = .slot c p j → u.headRun c p j = some r →
        (u.runHit r ≠ none → step s = exec .breakpointMatch u) ∧
        ∀ w s2, u.runHit r = none →
          (u.passBreak r.team (u.runStreams r)).fetchInstr r.team r.pc.toNat = (.ok w, s2) →
          (∀ i, decodeLane w = .ok i → step s = exec i s2) ∧
          (∀ e, decodeLane w = .error e → step s = exec .undefinedInstruction s2)) ∧
      (∀ tk, a = .seq tk → u.asyncOf tk = none → u.seqIssues tk = true →
        (u.seqHit tk ≠ none → step s = exec .breakpointMatch u) ∧
        ∀ w s2, u.seqHit tk = none → (u.passBreak tk [0]).fetchInstr tk (u.team tk).seq.pc.toNat = (.ok w, s2) →
          (∀ i, decodeSeq w = .ok i → step s = exec i s2) ∧
          (∀ e, decodeSeq w = .error e → step s = exec .undefinedInstruction s2))) ∧
    (∀ i x, a = .event i x → s.chipStopped = false ∨ i = .moduleReset ∨ i = .warmReset → step s = exec i u) ∧
    (s.chipStopped = true → (∀ x, a ≠ .event .moduleReset x ∧ a ≠ .event .warmReset x) →
      ((∃ x, a = .event .tickBoundary x) → step s = .next { u with fab := { u.fab with tick := u.fab.tick + 1 } }) ∧
      ((∀ x, a ≠ .event .tickBoundary x) → step s = .next u))

/-- Decoding gives back every well-formed instruction (R65 to R92): the word that the encoder gives decodes, in the map of
the instruction's stream, to the instruction itself, with every operand. -/
def Obligations.DecodingInvertsEncoding : Prop :=
  ∀ (i : Instr) (w : Nat), i.wf = true → encode i = some w →
    (i.stream = .lane → decodeLane w = .ok i) ∧ (i.stream = .seq → decodeSeq w = .ok i)

/-- Every step keeps memory in its canonical form: whatever acts, from every state whose memory is canonical.
The form of memory, and that an unlisted byte reads 0, are the model's (logs 6 and 66). -/
def Obligations.StepsKeepMemoryCanonical : Prop :=
  ∀ s t : State, s.memWf = true → step s = .next t → t.memWf = true

/-- No instruction and no event is refused or ends in a fault, in any state (the model's scope, R1 to R5).
An event that is not enabled leaves the state as it is, by the model's choice (log 67). -/
def Obligations.EveryInstructionAnswers : Prop :=
  ∀ (i : Instr) (s : State), ∃ t, exec i s = .next t

/-! ## Lane instructions: registers and predicates -/

/-- Integer instructions that work element by element (R182, R185, R186, R55, R56): in every lane of the run each
element of d is the rule's result of the source elements, d is poisoned as a source is (R179), the flags raised are
joined to %lflags (R180), the counter moves on by the instruction's length, and nothing else changes: no other
register or predicate, no byte of memory, nothing outside the run's lanes. -/
def Obligations.IntegerElementsCompute : Prop :=
  ∀ (i : Instr) (f : ElemForm) (s s1 : State) (r : Run), intForm i = some f → LaneIssues s f.fields r s1 →
    ∃ t, exec i s = .next t ∧ LaneFrame s1 t r f.len [f.d] [] ∧
      ∀ n ∈ r.lanes, ElemResult f r.trap (laneAt s1 r n) (laneAt t r n)

/-- Floating-point instructions that work element by element (R187 to R189, R79): each element of d is the exact
result of the elements' values, rounded once under the instruction's mode; poison, flags, counter and frame as for
the integer ones.

Conversions and packings (R191, R192): each of the first `count` elements of d is the conversion of the element
of a at the same place, and the rest of d is zero; poison, flags, counter and frame as above.
Conversions that R57 has no row for follow the model's choice (log 74). -/
def Obligations.FloatElementsAndConversionsCompute : Prop :=
  (∀ (i : Instr) (f : ElemForm) (s s1 : State) (r : Run), floatForm i = some f → LaneIssues s f.fields r s1 →
     ∃ t, exec i s = .next t ∧ LaneFrame s1 t r f.len [f.d] [] ∧
       ∀ n ∈ r.lanes, ElemResult f r.trap (laneAt s1 r n) (laneAt t r n)) ∧
  (∀ (i : Instr) (f : ConvForm) (s s1 : State) (r : Run), convForm i = some f → LaneIssues s [f.d, f.a, f.b] r s1 →
     ∃ t, exec i s = .next t ∧ LaneFrame s1 t r 4 [f.d] [] ∧
       ∀ n ∈ r.lanes, ConvResult f r.trap (laneAt s1 r n) (laneAt t r n))

/-- Comparisons (R166, R184, R190): the outcome of element 0 of a and b goes to predicate p, poisoned with value 0
when a source is poisoned; a write to p0 is ignored; no register changes.

VOTE.any and VOTE.all (R195) and PUNPK (R170): the predicates they write in every lane of the run; a poisoned
predicate counts as false and poisons the vote; no register changes. -/
def Obligations.PredicatesAreSet : Prop :=
  (∀ (i : Instr) (f : CmpForm) (s s1 : State) (r : Run), cmpForm i = some f → LaneIssues s [f.a, f.b] r s1 →
     ∃ t, exec i s = .next t ∧ LaneFrame s1 t r 4 [] [f.p] ∧
       ∀ n ∈ r.lanes, CmpResult f r.trap (laneAt s1 r n) (laneAt t r n)) ∧
  (∀ (u v : BitVec 1) (q p : BitVec 3) (all : Bool) (s s1 : State) (r : Run), LaneIssues s [] r s1 →
    ∃ t, exec (if all then .voteAll u v q p else .voteAny u v q p) s = .next t ∧
      LaneFrame s1 t r 4 [] [p.toNat] ∧ ∀ n ∈ r.lanes,
        (laneAt t r n).pred p.toNat = (decide (p = 0) ||
          ((if all then (activePeers s1 r n).all (fun m => (laneAt s1 r m).pred q.toNat)
            else (activePeers s1 r n).any (fun m => (laneAt s1 r m).pred q.toNat)) &&
            !(activePeers s1 r n).any (fun m => (laneAt s1 r m).predPoison q.toNat))) ∧
        (laneAt t r n).predPoison p.toNat =
          (decide (p ≠ 0) && (activePeers s1 r n).any (fun m => (laneAt s1 r m).predPoison q.toNat)) ∧
        (laneAt t r n).lflags = (laneAt s1 r n).lflags) ∧
  (∀ (a : BitVec 6) (s s1 : State) (r : Run), LaneIssues s [a.toNat] r s1 →
    ∃ t, exec (.punpk a) s = .next t ∧ LaneFrame s1 t r 4 [] [1, 2, 3, 4, 5, 6, 7] ∧ ∀ n ∈ r.lanes,
      (∀ k, 1 ≤ k → k ≤ 7 →
        (laneAt t r n).pred k =
          (((laneAt s1 r n).reg r.trap a.toNat).val.getLsbD k && !((laneAt s1 r n).reg r.trap a.toNat).poison) ∧
        (laneAt t r n).predPoison k = ((laneAt s1 r n).reg r.trap a.toNat).poison) ∧
      (laneAt t r n).lflags = (laneAt s1 r n).lflags)

/-- Instructions that write one whole register (R185, R186, R170, R223, R79, R341): logic, moves, selection, LUI,
PPACK, MOVS of every special register, and the scramble of QRSEED; frame as above. -/
def Obligations.WholeRegisterOperations : Prop :=
  ∀ (i : Instr) (f : RegForm) (s s1 : State) (r : Run), wholeForm i = some f → LaneIssues s f.fields r s1 →
    ∃ t, exec i s = .next t ∧ LaneFrame s1 t r f.len [f.d] [] ∧ ∀ n ∈ r.lanes, RegResult f s1 r n (laneAt t r n)

/-- The shuffles (R194): every element of d comes from the named element of a in the named lane of the group, as all
lanes stood before the instruction, exited and inactive ones included (R193).

VOTE.ballot, MATCH, RDC and SCAN (R195 to R197): each active lane of a group receives the mask, the match mask or
the fold over the active lanes of its group. -/
def Obligations.LanesReadEachOther : Prop :=
  (∀ (i : Instr) (f : RegForm) (s s1 : State) (r : Run), shufflesForm i = some f → LaneIssues s f.fields r s1 →
     ∃ t, exec i s = .next t ∧ LaneFrame s1 t r f.len [f.d] [] ∧ ∀ n ∈ r.lanes, RegResult f s1 r n (laneAt t r n)) ∧
  (∀ (i : Instr) (f : RegForm) (s s1 : State) (r : Run), gatherForm i = some f → LaneIssues s f.fields r s1 →
     ∃ t, exec i s = .next t ∧ LaneFrame s1 t r f.len [f.d] [] ∧ ∀ n ∈ r.lanes, RegResult f s1 r n (laneAt t r n))

/-- QRN and QRNF (R340 to R342): with every dimension of every active lane below QRDIMS, each half of d is the point
of the halves of a and b, or its top 24 bits as an f32 fraction; a dimension at or above QRDIMS in any active lane
raises the lane trap of class 0x0F with code 0x01 in every lane of the run, with %laddr zero and nothing written. QRSEED
never raises it. -/
def Obligations.QuasiRandomPoints : Prop :=
  ∀ (u v : BitVec 1) (b a d : BitVec 6) (s s1 : State) (r : Run) (frac : Bool),
    LaneIssues s [d.toNat, a.toNat, b.toNat] r s1 →
    let g := s1.gridOf r.team
    let beyond := ∃ n ∈ r.lanes, ∃ e, e < 2 ∧ g.rcd.qrdims ≤ subElem ((laneAt s1 r n).reg r.trap a.toNat).val e 32
    (¬ beyond → ∃ t, exec (if frac then .qrnf u v b a d else .qrn u v b a d) s = .next t ∧
      LaneFrame s1 t r 4 [d.toNat] [] ∧ ∀ n ∈ r.lanes,
        let x := (laneAt s1 r n).reg r.trap a.toNat
        let y := (laneAt s1 r n).reg r.trap b.toNat
        ((laneAt t r n).reg r.trap d.toNat).poison = (x.poison || y.poison) ∧
        (laneAt t r n).lflags = (laneAt s1 r n).lflags ∧
        ∀ e, e < 2 →
          let p := g.qrPoint (subElem x.val e 32) (subElem y.val e 32)
          subElem ((laneAt t r n).reg r.trap d.toNat).val e 32 =
            (if frac then (deliverExact fmtF32 0 (.fin false (p / 2 ^ 8) (2 ^ 24), 0)).1 else p) % 2 ^ 32) ∧
    (beyond → Handled s1 r → ∃ t, exec (if frac then .qrnf u v b a d else .qrn u v b a d) s = .next t ∧
      TrapEntered s1 t r r.pc (fun _ => 0x0F01) (fun _ => 0)) ∧
    (∃ t, exec (.qrseed u v b a d) s = .next t ∧ LaneFrame s1 t r 4 [d.toNat] [] ∧
      ∀ n ∈ r.lanes, (laneAt t r n).lflags = (laneAt s1 r n).lflags)

/-! ## Lane instructions: control -/

/-- Lane instructions that only advance (R170, R219, R221): NOP, FENCE.C, the fences of lanes whose forwarded accesses have
all performed, and PRF.msc leave every register, predicate, flag and byte of memory, and everything outside the run's
lanes, as it was; the counter moves on. FENCE.D and FENCE.S of lanes with a forwarded access under way wait (R219). PRF.l1
and PFI may bring a line into a cache: no register and no byte of memory changes. A poisoned PRF address raises the
containment trap with code 0x02 (R221).
That a prefetch of a FIFO bank is dropped is the model's reading (log 83). -/
def Obligations.AdvancingLaneInstructions : Prop :=
  (∀ (i : Instr) (s s1 : State) (r : Run), i = .nop ∨ i = .fenceC ∨
      ((i = .fenceD ∨ i = .fenceS) ∧ ∀ x ∈ s1.fab.fwd, ∀ n ∈ r.lanes, x.owner ≠ .agent (.lane r.team n)) →
    s.issuing = some (r, s1) → ∃ t, exec i s = .next t ∧ LanesBecome s1 t r (fun _ l => { l with pc := l.pc + 4 })) ∧
  (∀ (i : Instr) (s s1 : State) (r : Run), i = .fenceD ∨ i = .fenceS → s.issuing = some (r, s1) →
    (∃ x ∈ s1.fab.fwd, ∃ n ∈ r.lanes, x.owner = .agent (.lane r.team n)) →
    ∃ t, exec i s = .next t ∧ LanesBecome s1 t r (fun _ l => { l with block := .fence r.team r.lanes })) ∧
  (∀ (a : BitVec 6) (s s1 : State) (r : Run), LaneIssues s [a.toNat] r s1 →
    (∀ n ∈ r.lanes, ((laneAt s1 r n).reg r.trap a.toNat).poison = false) →
    (∃ t, exec (.prfMsc a) s = .next t ∧ LanesBecome s1 t r (fun _ l => { l with pc := l.pc + 4 })) ∧
    (∃ t, exec (.prfL1 a) s = .next t ∧ t.mem = s1.mem ∧ (∀ k, k ≠ r.team → t.team k = s1.team k) ∧
      ∀ n, laneAt t r n = if n ∈ r.lanes then { laneAt s1 r n with pc := (laneAt s1 r n).pc + 4 } else laneAt s1 r n)) ∧
  (∀ (a : BitVec 6) (i : Instr) (s s1 : State) (r : Run), i = .prfMsc a ∨ i = .prfL1 a → LaneIssues s [a.toNat] r s1 →
    (∃ n ∈ r.lanes, ((laneAt s1 r n).reg r.trap a.toNat).poison = true) → Handled s1 r →
    ∃ t, exec i s = .next t ∧ TrapEntered s1 t r r.pc
      (fun n => if ((laneAt s1 r n).reg r.trap a.toNat).poison then 0x0602 else 0)
      (fun n => if ((laneAt s1 r n).reg r.trap a.toNat).poison then ((laneAt s1 r n).reg r.trap a.toNat).val else 0)) ∧
  (∀ (o : BitVec 6) (s s1 : State) (r : Run), s.issuing = some (r, s1) →
    ∃ t, exec (.pfi o) s = .next t ∧ t.mem = s1.mem ∧ (∀ k, k ≠ r.team → t.team k = s1.team k) ∧
      ∀ n, laneAt t r n = if n ∈ r.lanes then { laneAt s1 r n with pc := (laneAt s1 r n).pc + 4 } else laneAt s1 r n)

/-- BRA, CALL and BRC (R66, R167): the counters they write, the link in v7, and the containment trap with code 0x03 for
a poisoned predicate.

JMPR and RET (R168): each lane of the run goes to its own v(a) with bit 0 cleared; a poisoned one raises the
containment trap with code 0x02 and no counter is written. -/
def Obligations.LaneBranchesAndJumps : Prop :=
  (∀ (o : BitVec 22) (s s1 : State) (r : Run), s.issuing = some (r, s1) →
    (∃ t, exec (.bra o) s = .next t ∧ LanesBecome s1 t r (fun _ l => { l with pc := r.pc + 2 * o.signExtend 64 })) ∧
    (∃ t, exec (.call o) s = .next t ∧ LanesBecome s1 t r (fun _ l =>
      { l with v := SMap.set {} l.v 7 ⟨r.pc + 4, false⟩, pc := r.pc + 2 * o.signExtend 64 }))) ∧
  (∀ (o : BitVec 22) (p : BitVec 3) (i : Instr) (sense : Bool) (s s1 : State) (r : Run),
    (i = .brc o p ∧ sense = true) ∨ (i = .brcF o p ∧ sense = false) → s.issuing = some (r, s1) →
    ((∀ n ∈ r.lanes, (laneAt s1 r n).predPoison p.toNat = false) →
      ∃ t, exec i s = .next t ∧ LanesBecome s1 t r (fun _ l =>
        { l with pc := if l.pred p.toNat = sense then r.pc + 2 * o.signExtend 64 else r.pc + 4 })) ∧
    ((∃ n ∈ r.lanes, (laneAt s1 r n).predPoison p.toNat = true) → Handled s1 r →
      ∃ t, exec i s = .next t ∧ TrapEntered s1 t r r.pc
        (fun n => if (laneAt s1 r n).predPoison p.toNat then 0x0603 else 0) (fun _ => 0))) ∧
  (∀ (a : BitVec 6) (i : Instr) (s s1 : State) (r : Run), i = .jmpr a ∨ i = .ret a → LaneIssues s [a.toNat] r s1 →
     ((∀ n ∈ r.lanes, ((laneAt s1 r n).reg r.trap a.toNat).poison = false) →
       ∃ t, exec i s = .next t ∧ LanesBecome s1 t r (fun _ l =>
         { l with pc := BitVec.ofNat 64 ((l.reg r.trap a.toNat).val.toNat / 2 * 2) })) ∧
     ((∃ n ∈ r.lanes, ((laneAt s1 r n).reg r.trap a.toNat).poison = true) → Handled s1 r →
       ∃ t, exec i s = .next t ∧ TrapEntered s1 t r r.pc
         (fun n => if ((laneAt s1 r n).reg r.trap a.toNat).poison then 0x0602 else 0) (fun _ => 0)))

/-- YLD, EXIT and the trap-mode operations (R155, R162, R170, R173). EXIT is stated where no barrier of the team is met by
it; with the last stream of the team it brings the team into exiting. VGET, VPUT and TRET outside trap mode raise the
undefined-instruction fault; VGET and VPUT of a register at or above the cap raise it in trap mode, where it is unhandled (R171):
the context is faulted, and no register and no byte of memory changes.

SETS (R169, R172, R180, R223): what each of the three writes, %lepc in trap mode only; a poisoned source raises the
containment trap with code 0x05 and writes nothing. -/
def Obligations.LaneControlForms : Prop :=
  (∀ (s s1 : State) (r : Run), s.issuing = some (r, s1) →
    ∃ t, exec .yld s = .next t ∧ LanesBecome s1 t r (fun _ l => { l with pc := r.pc + 4, deferred := true })) ∧
  (∀ (s s1 : State) (r : Run), s.issuing = some (r, s1) →
    let u := s1.setTeam r.team ((s1.team r.team).updateLanes r.lanes
      (fun _ l => { l with pc := r.pc + 4, exited := true, trap := false }))
    (∀ b, b < 16 → u.autoMet r.team b = false) →
    let last := (s1.team r.team).seq.exited = true ∧
      ∀ n, n < (s1.gridOf r.team).launch.lanes → n ∉ r.lanes → (laneAt s1 r n).exited = true
    (¬ last → exec .exit s = .next u) ∧
    (last → exec .exit s = .next (u.setTeam r.team { u.team r.team with st := .exiting }))) ∧
  (∀ (n : BitVec 3) (d : BitVec 6) (s s1 : State) (r : Run), LaneIssues s [d.toNat] r s1 → r.trap = true →
    56 + n.toNat < (s1.gridOf r.team).launch.cap →
    (∃ t, exec (.vget n d) s = .next t ∧ LaneFrame s1 t r 4 [d.toNat] [] ∧
      ∀ k ∈ r.lanes, (laneAt t r k).reg true d.toNat = SMap.get {} (laneAt s1 r k).v (56 + n.toNat)) ∧
    (∃ t, exec (.vput n d) s = .next t ∧ LanesBecome s1 t r (fun _ l =>
      { l with v := SMap.set {} l.v (56 + n.toNat) (l.reg true d.toNat), pc := r.pc + 4 }))) ∧
  (∀ (n : BitVec 3) (d : BitVec 6) (i : Instr) (s s1 : State) (r : Run), i = .vget n d ∨ i = .vput n d →
    LaneIssues s [d.toNat] r s1 → r.lanes ≠ [] → r.trap = true → (s1.gridOf r.team).launch.cap ≤ 56 + n.toNat →
    (s1.ctx (s1.asidOf r.team)).st = .running →
    ∃ t, exec i s = .next t ∧ FaultUnhandled s1 t r.team (fun f => f.cls = 1 ∧ f.code = 1 ∧ f.iaddr = r.pc) ∧
      ∀ k m, (laneAt t r k).absGet m = (laneAt s1 r k).absGet m ∧ (laneAt t r k).pred m = (laneAt s1 r k).pred m) ∧
  (∀ (s s1 : State) (r : Run), s.issuing = some (r, s1) → r.trap = true →
    ∃ t, exec .tret s = .next t ∧ LanesBecome s1 t r (fun _ l =>
      { l with pc := BitVec.ofNat 64 (l.lepc.toNat / 2 * 2), trap := false })) ∧
  (∀ (n : BitVec 3) (d : BitVec 6) (i : Instr) (s s1 : State) (r : Run),
    (i = .vget n d ∨ i = .vput n d) ∧ LaneIssues s [d.toNat] r s1 ∨ i = .tret ∧ s.issuing = some (r, s1) → Handled s1 r →
    ∃ t, exec i s = .next t ∧ TrapEntered s1 t r r.pc (fun _ => 0x0101) (fun _ => 0)) ∧
  (∀ (a : BitVec 6) (s s1 : State) (r : Run), LaneIssues s [a.toNat] r s1 →
    (∀ n ∈ r.lanes, ((laneAt s1 r n).reg r.trap a.toNat).poison = false) →
    (∃ t, exec (.setsStklim a) s = .next t ∧
      LanesBecome s1 t r (fun _ l => { l with stklim := (l.reg r.trap a.toNat).val, pc := r.pc + 4 })) ∧
    (∃ t, exec (.setsLflags a) s = .next t ∧
      LanesBecome s1 t r (fun _ l => { l with lflags := (l.reg r.trap a.toNat).val.setWidth 6, pc := r.pc + 4 })) ∧
    (r.trap = true → ∃ t, exec (.setsLepc a) s = .next t ∧
      LanesBecome s1 t r (fun _ l => { l with lepc := (l.reg r.trap a.toNat).val, pc := r.pc + 4 }))) ∧
  (∀ (a : BitVec 6) (s s1 : State) (r : Run), s.issuing = some (r, s1) → Handled s1 r →
    ∃ t, exec (.setsLepc a) s = .next t ∧ TrapEntered s1 t r r.pc (fun _ => 0x0101) (fun _ => 0)) ∧
  (∀ (a : BitVec 6) (i : Instr) (s s1 : State) (r : Run),
    i = .setsStklim a ∨ i = .setsLflags a ∨ i = .setsBmode a → LaneIssues s [a.toNat] r s1 →
    (∃ n ∈ r.lanes, ((laneAt s1 r n).reg r.trap a.toNat).poison = true) → Handled s1 r →
    ∃ t, exec i s = .next t ∧ TrapEntered s1 t r r.pc
      (fun n => if ((laneAt s1 r n).reg r.trap a.toNat).poison then 0x0605 else 0) (fun _ => 0))

/-- Taking a lane trap (R171, R172): TRAP n enters the handler in every lane of the run with class 0x07 and code n, and
%lepc names the next address; a word that decodes to nothing enters it with class 0x01 and the code of R94 or R95,
and %lepc names the word's own address.

The register cap (R69): an instruction of any of the tables above that names a vector register at or above the
launch's cap, and not a handler register in trap mode, raises the undefined-instruction fault with code 0x01 in every
lane of the run and writes nothing. -/
def Obligations.LaneTrapEntry : Prop :=
  (∀ (n : BitVec 6) (s s1 : State) (r : Run), s.issuing = some (r, s1) → Handled s1 r →
    ∃ t, exec (.trap n) s = .next t ∧ TrapEntered s1 t r (r.pc + 4) (fun _ => 0x0700 + n.toNat) (fun _ => 0)) ∧
  (∀ (s s1 s2 : State) (r : Run) (w : Nat) (u : Undecoded), s.issuing = some (r, s1) → Handled s1 r →
    s1.fetchInstr r.team r.pc.toNat = (.ok w, s2) → decodeLane w = .error u →
    ∃ t, exec .undefinedInstruction s = .next t ∧
      TrapEntered s2 t r r.pc (fun _ => 0x0100 + u.code.toNat) (fun _ => 0)) ∧
  (∀ (i : Instr) (fields : List Nat) (s s1 : State) (r : Run), s.issuing = some (r, s1) →
     ((∃ f, (intForm i = some f ∨ floatForm i = some f) ∧ fields = f.fields) ∨
       (∃ f, convForm i = some f ∧ fields = [f.d, f.a, f.b]) ∨ (∃ f, cmpForm i = some f ∧ fields = [f.a, f.b]) ∨
       (∃ f, (wholeForm i = some f ∨ shufflesForm i = some f ∨ gatherForm i = some f) ∧ fields = f.fields)) →
     (∃ k ∈ fields, (s1.gridOf r.team).launch.cap ≤ k ∧ ¬ (r.trap = true ∧ 56 ≤ k)) → Handled s1 r →
     ∃ t, exec i s = .next t ∧ TrapEntered s1 t r r.pc (fun _ => 0x0101) (fun _ => 0))

/-! ## Lane instructions: memory, barriers and pushes -/

/-- LD, ST, ATOM, ENTER and LEAVE (R169, R202, R203, R206, R208): when every check of every active lane passes and no
FIFO bank makes the run wait, the accesses perform in ascending lane order, each over its single-copy atomic pieces, at
the address and with the data that the table gives; what must wait is parked. In a DET grid the checks are not complete, and the
lanes wait, while a command of the grid may access a line of theirs through indices that are not known yet (log 85).
How many pieces perform in one step, and that the rest of a run waits with the piece that must, are the model's (logs
4, 29 and 85). -/
def Obligations.MemoryInstructionsAccess : Prop :=
  ∀ (i : Instr) (f : MemForm) (s s1 s2 : State) (r : Run) (xs : List (LaneReq × Checked)),
    memForm i = some f → LaneIssues s f.fields r s1 →
    let qs := r.lanes.map (fun n => f.req (laneAt s1 r n) r.trap n)
    s1.checkReqs r f.kind qs = (xs, s2) → AllPass xs → s2.fifoWait f.kind xs = none →
    let as := accessesOf f s1 r xs
    (s2.detHold (keyGrid r.team) as = none →
      let s3 := s2.sample r qs
      let s4 := s3.setTeam r.team ((s3.team r.team).updateLanes r.lanes (fun _ l => f.fin r.trap l))
      exec i s = .next (s4.performOrPark r.team r.lanes r.pc as)) ∧
    ∀ w ps, s2.detHold (keyGrid r.team) as = some (w, ps) →
      exec i s = .next (s2.blockLanes r (.access (keyGrid r.team) w ps))

/-- Checks come before every access (R171, R203, R204): when a check fails in any lane, no byte of memory and no
register, predicate or flag changes in any lane; every lane of the run takes the trap, with the cause of its own fault
of the lowest class (R172), or none, and the page records of its group (R205).
Which bytes fault where an access leaves its region is the model's reading (logs 27 and 60). -/
def Obligations.MemoryFaultsPrecedeAccesses : Prop :=
  ∀ (i : Instr) (f : MemForm) (s s1 s2 : State) (r : Run) (xs : List (LaneReq × Checked)),
    memForm i = some f → LaneIssues s f.fields r s1 →
    s1.checkReqs r f.kind (r.lanes.map (fun n => f.req (laneAt s1 r n) r.trap n)) = (xs, s2) →
    (∃ y ∈ xs, y.1.pre ≠ none ∨ y.1.az = true ∨ ∃ e, y.2 = .fail e) → Handled s1 r →
    let fs := xs.flatMap (reqFaults f.kind)
    ∃ t, exec i s = .next t ∧ t.mem = s1.mem ∧ (∀ k, k ≠ r.team → t.team k = s1.team k) ∧
      ∀ n, (laneAt t r n).v = (laneAt s1 r n).v ∧ (laneAt t r n).pv = (laneAt s1 r n).pv ∧
        (laneAt t r n).pp = (laneAt s1 r n).pp ∧ (laneAt t r n).lflags = (laneAt s1 r n).lflags ∧
        (n ∈ r.lanes →
          (laneAt t r n).trap = true ∧ (laneAt t r n).pc = (s1.gridOf r.team).rcd.lvec ∧ (laneAt t r n).lepc = r.pc ∧
          (match lowestFault fs n with
            | some g => (laneAt t r n).lcause = BitVec.ofNat 64 (g.cls * 256 + g.code) ∧ (laneAt t r n).laddr = g.addr
            | none => (laneAt t r n).lcause = 0 ∧ (laneAt t r n).laddr = 0) ∧
          (laneAt t r n).lnrec.toNat =
            Nat.min (pageRecords (s1.gridOf r.team).launch.width (n / (s1.gridOf r.team).launch.width) fs).length 128)

/-- What one piece of a lane's load reads (R202, R206, R222): the bytes at its place, or of a sequencer's buffered stores that
are seen now (R148), join those read before, with the poison of its lines; with the last piece the destination registers hold the bytes, little-endian and zero-extended,
poisoned when a byte lies in a poisoned line. No byte of memory and no other register of any lane changes.

LEAVE's load (R169): v7 takes the doubleword, v6 is raised by 16 n, and memory stays. -/
def Obligations.LaneLoadsRead : Prop :=
  (∀ (s : State) (iaddr : Word) (idx tk n : Nat) (va : Word) (l : Loc) (size total first k done : Nat) (got : List Byte)
     (bad : Bool) (rest : List (Loc × Nat)), PlainPlace s l size k → (∀ m, s.forwarded (.agent (.lane tk n)) l m = none) →
     let a : Access := { agent := .lane tk n, va := va, runs := (l, size) :: rest, op := .load first total false, done := done,
                         got := got, poison := bad }
     s.pieceWaits idx a (l, size) = false →
     let bs := seenBytes s l k size
     (rest ≠ [] → ∃ t, s.stepPiece idx iaddr a =
         .more { a with runs := rest, done := done + size, got := got ++ bs, poison := bad || poisonAt s k size } t ∧
       t.mem = s.mem ∧ t.teams = s.teams) ∧
     (rest = [] → ∃ t, s.stepPiece idx iaddr a = .done t ∧ t.mem = s.mem ∧ (∀ j, j ≠ tk → t.team j = s.team j) ∧
       (∀ m, m ≠ n → (t.team tk).lane m = (s.team tk).lane m) ∧
       ∀ g, ((t.team tk).lane n).absGet g =
         if first ≤ g ∧ g < first + Nat.max 1 (total / 8) then
           ⟨BitVec.ofNat 64 (leNat (got ++ bs) / 2 ^ (64 * (g - first))), bad || poisonAt s k size⟩
         else ((s.team tk).lane n).absGet g)) ∧
  (∀ (s : State) (iaddr : Word) (idx tk n : Nat) (va : Word) (l : Loc) (k m : Nat), PlainPlace s l 8 k →
     s.forwarded (.agent (.lane tk n)) l 8 = none →
     let a : Access := { agent := .lane tk n, va := va, runs := [(l, 8)], op := .leave m }
     s.pieceWaits idx a (l, 8) = false →
     ∃ t, s.stepPiece idx iaddr a = .done t ∧ t.mem = s.mem ∧ ∀ g, ((t.team tk).lane n).absGet g =
       if g = 7 then ⟨BitVec.ofNat 64 (leNat (seenBytes s l k 8)), poisonAt s k 8⟩
       else if g = 6 then ⟨(((s.team tk).lane n).absGet 6).val + BitVec.ofNat 64 (16 * m), (((s.team tk).lane n).absGet 6).poison⟩
       else ((s.team tk).lane n).absGet g)

/-- What one piece of a lane's store writes (R202, R206, R222, R243): its bytes, little-endian, and no other byte of
memory; poisoned data for device memory or scratchpad poisons every line it writes; an unpoisoned store that ends a line
which it covers whole clears the line's poison. No lane's registers change.

One integer atomic step (R208, R222): memory takes the new value, register d the old one, zero-extended; d and the
line are poisoned when an operand or the line is; no other byte and no other register changes. -/
def Obligations.LaneStoresAndAtomicsWrite : Prop :=
  (∀ (s : State) (iaddr : Word) (idx tk n : Nat) (va : Word) (l : Loc) (size total data k done : Nat) (p : Bool)
     (rest : List (Loc × Nat)), PlainPlace s l size k → (∀ m, s.forwarded (.agent (.lane tk n)) l m = none) → done + size ≤ total → (p = true → s.inHost l = false) →
     let a : Access := { agent := .lane tk n, va := va, runs := (l, size) :: rest, op := .store total data p, done := done }
     s.pieceWaits idx a (l, size) = false →
     ∃ t, s.stepPiece idx iaddr a = (if rest = [] then .done t else .more { a with runs := rest, done := done + size } t) ∧
       (∀ j, j < size → t.byte (k + j) = BitVec.ofNat 8 (data / 2 ^ (8 * (done + j)))) ∧ OnlyBytes s t k size ∧
       (t.team tk).lanes = (s.team tk).lanes ∧ (∀ j, j ≠ tk → t.team j = s.team j) ∧
       (p = true → ∀ j, j < size → (t.line ((k + j) / 64)).poison = true) ∧
       (p = false → (l.offset + size) % 64 = 0 → 64 ≤ done + size → l.cached = true → (t.line ((k + size - 1) / 64)).poison = false)) ∧
  (∀ (s : State) (iaddr : Word) (idx tk n : Nat) (va : Word) (l : Loc) (op ty k d : Nat) (y c : Word) (p : Bool), ty < 4 →
     PlainPlace s l (atomWidth ty / 8) k → k % (atomWidth ty / 8) = 0 → s.inHost l = false →
     s.forwarded (.agent (.lane tk n)) l (atomWidth ty / 8) = none →
     let w := atomWidth ty
     let a : Access := { agent := .lane tk n, va := va, runs := [(l, w / 8)], op := .atom op ty y c p d }
     s.pieceWaits idx a (l, w / 8) = false →
     let old := numberAt s k (w / 8)
     ∃ t, s.stepPiece idx iaddr a = .done t ∧
       numberAt t k (w / 8) = atomNew op (decide (ty = 0 ∨ ty = 2)) w old (y.toNat % 2 ^ w) (c.toNat % 2 ^ w) ∧
       OnlyBytes s t k (w / 8) ∧ (∀ m, m ≠ n → (t.team tk).lane m = (s.team tk).lane m) ∧
       ((t.team tk).lane n).lflags = ((s.team tk).lane n).lflags ∧
       (∀ g, ((t.team tk).lane n).absGet g = if g = d then ⟨BitVec.ofNat 64 old, p || poisonAt s k (w / 8)⟩
         else ((s.team tk).lane n).absGet g) ∧
       (t.line (k / 64)).poison = (p || poisonAt s k (w / 8)))

/-- RED.D (R210): when every check passes and the team's buffer takes the run's entries, one entry per active lane
joins the buffer, in lane order, with its team, group and lane, the program-order number, the address and its place, the operation,
the type, the operand and its poison; no memory and no register changes but the counters of the run (and a trace slot where memory
instructions are sampled), and no other team. With the buffer's limit exceeded every lane takes class 0x04 with code 0x08 and no
entry is placed. -/
def Obligations.DeferredReductionsAreBuffered : Prop :=
  ∀ (u v : BitVec 1) (ty o : BitVec 3) (b a : BitVec 6) (s s1 s2 : State) (r : Run) (xs : List (LaneReq × Checked)),
    LaneIssues s [a.toNat, b.toNat] r s1 →
    let qs : List LaneReq := r.lanes.map (fun n =>
      { lane := n, va := ((laneAt s1 r n).reg r.trap a.toNat).val, size := atomWidth ty.toNat / 8,
        aligned := decide (((laneAt s1 r n).reg r.trap a.toNat).val.toNat % (atomWidth ty.toNat / 8) = 0), hostOk := false,
        az := ((laneAt s1 r n).reg r.trap a.toNat).poison })
    s1.checkReqs r .red qs = (xs, s2) →
    (∀ y ∈ xs, y.1.az = false ∧ ∃ l m rest, y.2 = .ok ((l, m) :: rest)) →
    let held := (s2.team r.team).red.length + (if (s2.gridOf r.team).rcd.det then
      ((s2.gridOf r.team).deferred.filter (fun e => decide (e.ix = keyIx r.team))).length else 0)
    (held + r.lanes.length ≤ 65536 → ∃ t, exec (.redD u v ty o b a) s = .next t ∧
      let w := (s1.gridOf r.team).launch.width
      let s3 := s2.sample r qs
      t.mem = s3.mem ∧ (∀ k, k ≠ r.team → t.team k = s1.team k) ∧
      (t.team r.team).red = (s1.team r.team).red ++ (r.lanes.zip xs).map (fun z =>
        { ix := keyIx r.team, group := z.1 / w, lane := z.1 % w, order := (s1.team r.team).order, loc := placeOf z.2.2
          va := ((laneAt s1 r z.1).reg r.trap a.toNat).val, iaddr := r.pc, op := o.toNat, t := ty.toNat
          y := BitVec.ofNat 64 (((laneAt s1 r z.1).reg r.trap b.toNat).val.toNat % 2 ^ atomWidth ty.toNat)
          poison := ((laneAt s1 r z.1).reg r.trap b.toNat).poison }) ∧
      (t.team r.team).order = (s1.team r.team).order + 1 ∧
      ∀ n, laneAt t r n = if n ∈ r.lanes then { laneAt s1 r n with pc := (laneAt s1 r n).pc + 4 } else laneAt s1 r n) ∧
    (65536 < held + r.lanes.length → Handled s1 r → ∃ t, exec (.redD u v ty o b a) s = .next t ∧ t.mem = s2.mem ∧
      (t.team r.team).red = (s1.team r.team).red ∧ (∀ k, k ≠ r.team → t.team k = s1.team k) ∧
      ∀ n ∈ r.lanes, (laneAt t r n).lcause = 0x0408 ∧ (laneAt t r n).trap = true ∧ (laneAt t r n).lepc = r.pc)

/-- STP (R214 to R216): each group's elements go to the plane words of the blocks they reach, in ascending address: the
bits of elements that active lanes hold are replaced, every other bit of a word keeps its value, and no byte outside
the word changes.
That one poisoned lane poisons every word of its group is the model's reading (log 21). -/
def Obligations.PlaneStores : Prop :=
  (∀ (f : BitVec 5) (a d : BitVec 6) (s s1 s2 : State) (r : Run) (xs : List (LaneReq × Checked)),
    LaneIssues s [a.toNat, d.toNat] r s1 →
    let t := s1.team r.team
    let w := (s1.gridOf r.team).launch.width
    let qs := (r.lanes.map (· / w)).eraseDups.map (fun g =>
      stpReq t r w f.toNat a.toNat d.toNat (r.lanes.filter (fun n => decide (n / w = g))))
    s1.checkReqs r .stp qs = (xs, s2) → AllPass xs →
    (∀ y ∈ xs, stpPast ((laneAt s1 r y.1.lane).reg r.trap a.toNat).val.toNat y.1 = none) →
    let as := xs.flatMap (fun y => match y.2 with
      | .ok runs =>
        let lanes := r.lanes.filter (fun n => decide (n / w = y.1.lane / w))
        let es := stpElems t r w f.toNat d.toNat lanes
        let b := (planeShape f.toNat).1
        let lo := es.foldl (fun m e => Nat.min m (e.1 / 64)) 1
        (wordsOf runs).zipIdx.map (fun l =>
          let m := planeWord es b (lo + l.2 / b) (l.2 % b)
          ({ agent := .lane r.team y.1.lane, va := y.1.va + BitVec.ofNat 64 (8 * l.2), runs := [(l.1, 8)]
             op := .plane m.1 m.2 (lanes.any (fun n => ((laneAt s1 r n).reg r.trap d.toNat).poison)) } : Access))
      | _ => [])
    s2.detHold (keyGrid r.team) as = none →
    let s3 := s2.sample r qs
    let s4 := s3.setTeam r.team ((s3.team r.team).updateLanes r.lanes (fun _ l => l))
    exec (.stp f a d) s = .next (s4.performOrPark r.team r.lanes r.pc as)) ∧
  (∀ (s : State) (iaddr : Word) (idx tk n : Nat) (va : Word) (l : Loc) (k mask data : Nat) (p : Bool), PlainPlace s l 8 k →
    k % 8 = 0 → mask < 2 ^ 64 →
    let a : Access := { agent := .lane tk n, va := va, runs := [(l, 8)], op := .plane mask data p }
    s.pieceWaits idx a (l, 8) = false →
    ∃ t, s.stepPiece idx iaddr a = .done t ∧ OnlyBytes s t k 8 ∧ (t.team tk).lanes = (s.team tk).lanes ∧
      ∀ e, e < 64 → (numberAt t k 8).testBit e = if mask.testBit e then data.testBit e else (numberAt s k 8).testBit e)

/-- SETS %bmode where nothing holds the banks (R245, R246): the highest lane's value stands, bits at or above SBANKS
ignored; every byte of a switched bank reads zero, unpoisoned and with an empty queue, and every other byte of memory
is as it was.
That a bank switched there and back is zeroed is the model's reading (log 63). -/
def Obligations.BankModeSwitches : Prop :=
  ∀ (a : BitVec 6) (s s1 : State) (r : Run), LaneIssues s [a.toNat] r s1 →
    (∀ n ∈ r.lanes, ((laneAt s1 r n).reg r.trap a.toNat).poison = false) →
    (s1.team r.team).bmodeNext = [] → (∀ k, (s1.team k).seq.sbuf = []) →
    let vs := r.lanes.map (fun n => ((laneAt s1 r n).reg r.trap a.toNat).val.setWidth 16 &&&
      BitVec.ofNat 16 (2 ^ (s1.gridOf r.team).launch.sbanks - 1))
    let switched := switchedBanks (s1.team r.team).bmode vs
    (∀ b ∈ switched, s1.bankBusy r.team b = false) →
    ∃ t, exec (.setsBmode a) s = .next t ∧ (t.team r.team).bmode = vs.getLastD (s1.team r.team).bmode ∧
      (∀ k, t.byte k = if ∃ b ∈ switched, spadKey r.team b 0 ≤ k ∧ k < spadKey r.team (b + 1) 0 then 0 else s1.byte k) ∧
      (∀ b ∈ switched, SMap.get [] (t.team r.team).fifos b = [] ∧
        ∀ k, spadKey r.team b 0 ≤ k → k < spadKey r.team (b + 1) 0 → (t.line (k / 64)).poison = false) ∧
      (∀ k, k ≠ r.team → t.team k = s1.team k) ∧
      ∀ n, laneAt t r n =
        if n ∈ r.lanes then { laneAt s1 r n with pc := (laneAt s1 r n).pc + 4, block := .none } else laneAt s1 r n

/-- Arrivals and waits of lanes that release nothing, in counted mode (R303, R306 to R308): BARA and BARAW count one
arrival per lane of the run, BARW and BARAW record the phase in force; nothing else changes.

The arrival that meets the count releases the phase (R304 to R306): the phase number advances, the arrivals and
the lanes' arrival bits are cleared, and every lane that waits for the phase goes on. Stated for a team with no
buffered reduction, in a grid that is not captured. -/
def Obligations.LanesAtBarriers : Prop :=
  (∀ (b : BitVec 4) (s s1 : State) (r : Run), s.issuing = some (r, s1) →
     let x := (s1.team r.team).bar b.toNat
     x.expected ≠ 0 →
     (x.arr + r.lanes.length < x.expected → r.lanes ≠ [] → ∀ waits : Bool,
       ∃ t, exec (if waits then .baraw b else .bara b) s = .next t ∧ t.mem = s1.mem ∧
         (∀ k, k ≠ r.team → t.team k = s1.team k) ∧ (t.team r.team).red = (s1.team r.team).red ∧
         (∀ c, (t.team r.team).bar c = if c = b.toNat then { x with
           arr := x.arr + r.lanes.length, st := if x.st = .idle then .arriving else x.st } else (s1.team r.team).bar c) ∧
         ∀ n, laneAt t r n = if n ∈ r.lanes then { laneAt s1 r n with
             pc := (laneAt s1 r n).pc + 4, arrived := (laneAt s1 r n).arrived ||| BitVec.ofNat 16 (2 ^ b.toNat),
             wait := if waits then some (b.toNat, x.phase) else (laneAt s1 r n).wait }
           else laneAt s1 r n) ∧
     ∃ t, exec (.barw b) s = .next t ∧
       LanesBecome s1 t r (fun _ l => { l with pc := l.pc + 4, wait := some (b.toNat, x.phase) })) ∧
  (∀ (b : BitVec 4) (waits : Bool) (s s1 : State) (r : Run), s.issuing = some (r, s1) → r.lanes ≠ [] →
     let x := (s1.team r.team).bar b.toNat
     x.expected ≠ 0 → x.arr + r.lanes.length = x.expected → (s1.team r.team).red = [] →
     (s1.gridOf r.team).captured = false → (∀ y ∈ s1.releases, y.kind ≠ .bar r.team b.toNat) →
     ∃ t, exec (if waits then .baraw b else .bara b) s = .next t ∧ t.mem = s1.mem ∧ t.releases = s1.releases ∧
       ((t.team r.team).bar b.toNat).phase = (x.phase + 1) % 2 ^ 24 ∧ ((t.team r.team).bar b.toNat).arr = 0 ∧
       ((t.team r.team).bar b.toNat).st = .idle ∧
       ((t.team r.team).bar b.toNat).expected = (if x.st = .arming then x.pend else x.expected) ∧
       (t.team r.team).phases = (s1.team r.team).phases + 1 ∧
       ∀ n, (laneAt t r n).arrived.getLsbD b.toNat = false ∧ (laneAt t r n).v = (laneAt s1 r n).v ∧
         (laneAt t r n).wait = (if (laneAt s1 r n).wait = some (b.toNat, x.phase) then none
           else if waits ∧ n ∈ r.lanes then none else (laneAt s1 r n).wait) ∧
         (laneAt t r n).pc = if n ∈ r.lanes then (laneAt s1 r n).pc + 4 else (laneAt s1 r n).pc)

/-- PUSH of lanes (R106, R217), where no page-table walk for the regions of a command, and in a DET grid no earlier access to
them, is waited for (log 85): the commands of the run's lanes join the engine's queue in ascending lane order, as many as it has
room for; predicate p is false in the lanes whose command joined it and true in the others. (The page engine's queue takes as many
as its capacity, which is open, log 15.) A poisoned register of the eight raises the containment trap with code 0x04; a push to
the page engine outside a privileged context raises class 0x02 with code 0x01. No byte of memory, no register and no other team
changes. -/
def Obligations.LanePushes : Prop :=
  ∀ (p : BitVec 3) (d : BitVec 6) (s s1 : State) (r : Run), LaneIssues s ((List.range 8).map (d.toNat + ·)) r s1 →
    let poisoned := fun n => (List.range 8).any (fun i => ((laneAt s1 r n).reg r.trap (d.toNat + i)).poison)
    let cmd := fun (c : Cmd) => (c.team, c.lane, c.words)
    let mine := r.lanes.map (fun n => (r.team, some n, wordsFrom (fun k => ((laneAt s1 r n).reg r.trap k).val) d.toNat))
    let priv := (s1.gridOf r.team).rcd.priv
    let core := s1.coreOf r.team
    let free (q : Nat) : Nat := if q = 0 then 32 - (s1.coreAt core).ce.length else 256 - (s1.fab.xeq.length + s1.fab.xe.length)
    let holds (q n : Nat) : Option PageWait := s1.pushHold q r.team (some n) (wordsFrom (fun k => ((laneAt s1 r n).reg r.trap k).val) d.toNat)
    let took (t : State) (k : Nat) : Prop := t.mem = s1.mem ∧ (∀ j, j ≠ r.team → t.team j = s1.team j) ∧
      (∀ n, n ∉ r.lanes → laneAt t r n = laneAt s1 r n) ∧
      ∀ n ∈ r.lanes, LaneKeeps (laneAt s1 r n) (laneAt t r n) [] [p.toNat] ∧ (laneAt t r n).pc = (laneAt s1 r n).pc + 4 ∧
        (laneAt t r n).pred p.toNat = (decide (p = 0) || !(r.lanes.take k).contains n)
    (∀ i : Instr, i = .pushCe p d ∨ i = .pushXe p d ∨ (i = .pushPg p d ∧ priv = true) → Handled s1 r →
      (∃ n ∈ r.lanes, poisoned n = true) → ∃ t, exec i s = .next t ∧
        TrapEntered s1 t r r.pc (fun n => if poisoned n then 0x0604 else 0) (fun _ => 0)) ∧
    (priv = false → Handled s1 r →
      ∃ t, exec (.pushPg p d) s = .next t ∧ TrapEntered s1 t r r.pc (fun _ => 0x0201) (fun _ => 0)) ∧
    ((∀ n ∈ r.lanes, poisoned n = false) →
      ((∀ n ∈ r.lanes, free 0 ≠ 0 → holds 0 n = none) → ∃ t, exec (.pushCe p d) s = .next t ∧ took t (free 0) ∧
        (t.coreAt core).ce.map cmd = (s1.coreAt core).ce.map cmd ++ mine.take (free 0)) ∧
      ((∀ n ∈ r.lanes, free 1 ≠ 0 → holds 1 n = none) → ∃ t, exec (.pushXe p d) s = .next t ∧ took t (free 1) ∧
        t.fab.xeq.map cmd = s1.fab.xeq.map cmd ++ mine.take (free 1)) ∧
      (∀ x, free 0 ≠ 0 → r.lanes.findSome? (holds 0) = some x → exec (.pushCe p d) s = .next (s1.holdLanes r x)) ∧
      (∀ x, free 1 ≠ 0 → r.lanes.findSome? (holds 1) = some x → exec (.pushXe p d) s = .next (s1.holdLanes r x)) ∧
      (priv = true → ∃ t k, exec (.pushPg p d) s = .next t ∧ took t k ∧
        t.dsp.pg.map cmd = s1.dsp.pg.map cmd ++ mine.take k ∧
        ∀ n, r.lanes[k]? = some n → Config.pgCapacity ≤
          (t.dsp.pg.filter (fun c => decide (c.tier = s1.pgTier (wordsFrom (fun k => ((laneAt s1 r n).reg r.trap k).val) d.toNat)))).length))

/-! ## The sequencer -/

/-- The arithmetic of the sequencer (R147, R56, R86, R87): register d takes the value the table gives, in 64 bits; the
sequencer goes on to the next instruction, and nothing but the sequencer changes. -/
def Obligations.SequencerArithmetic : Prop :=
  ∀ (i : Instr) (f : SeqForm) (s s1 : State) (tk : Nat), seqForm i = some f → SeqIssues s tk s1 →
    ∃ t, exec i s = .next t ∧
      SeqBecomes s1 t tk ((((s1.team tk).seq).setReg f.d (f.val (s1.team tk).seq)).advance f.len)

/-- The registers of both streams (R15, R146, R151, R171): a register reads what was last written to it and every
other as before; s0 reads zero and discards writes; in trap mode s24 to s31 and v56 to v63 are the handler registers
and the main ones stay as they were. -/
def Obligations.RegistersReadBack : Prop :=
  (∀ (q : Sequencer) (k n : Nat) (x : Word), k < 32 → n < 32 →
    (q.setReg k x).reg n = (if n = k ∧ k ≠ 0 then x else q.reg n) ∧ q.reg 0 = 0 ∧ q.setReg 0 x = q ∧
      (q.trap = true → 24 ≤ k → (q.setReg k x).s = q.s) ∧ (q.trap = false → (q.setReg k x).hs = q.hs)) ∧
  (∀ (l : Lane) (trap : Bool) (k n : Nat) (x : VReg), k < 64 → n < 64 →
    (l.setReg trap k x).reg trap n = (if n = k then x else l.reg trap n) ∧
      (trap = true → 56 ≤ k → (l.setReg trap k x).v = l.v) ∧ (trap = false → (l.setReg trap k x).h = l.h))

/-- NOP, and what the end of an instruction does in a LOOP (R92, R150, R153): an instruction that does not reach the
end of the held body only moves the counter; at the end the step word's pairs are added, the pass is counted, and the
body starts again, or after the last pass execution goes on behind it.

LOOP (R92, R153): a step word with a bit above 35 set is undefined; the body is fetched whatever the count; a fetch
fault is raised at its address, a forbidden instruction gives class 0x0A with code 0x01; a count of 0 runs no pass;
else the loop is held and its body starts.

The step-word check of LOOP (R92): a nonzero value in bits 63 to 36 raises class 0x01 with code 0x01, and nothing
else happens.
A loop of trap mode has a state of its own, and a body past the code's end faults with code 0x01, by the model's
reading (logs 20 and 22). -/
def Obligations.LoopsRunTheirPasses : Prop :=
  (∀ (s s1 : State) (tk : Nat), SeqIssues s tk s1 →
     let q := (s1.team tk).seq
     ((∀ l, (if q.trap then q.hloop else q.loop) = some l → q.pc + 4 ≠ l.hi) →
       ∃ t, exec .sctlNop s = .next t ∧ SeqBecomes s1 t tk { q with pc := q.pc + 4 }) ∧
     (∀ l, (if q.trap then q.hloop else q.loop) = some l → q.pc + 4 = l.hi →
       ∃ t, exec .sctlNop s = .next t ∧ OnlySeq s1 t tk ∧
         (∀ n, n < 32 → (t.team tk).seq.reg n = passEnd l.step q.reg n) ∧
         (t.team tk).seq.pc = (if l.pass + 1 = l.count then l.hi else l.lo) ∧
         (if q.trap then (t.team tk).seq.hloop else (t.team tk).seq.loop) =
           (if l.pass + 1 = l.count then none else some { l with pass := l.pass + 1 }))) ∧
  (∀ (n b a : BitVec 5) (s s1 s2 : State) (tk : Nat) (x : Body), SeqIssues s tk s1 →
     let q := (s1.team tk).seq
     (q.reg b.toNat).toNat < 2 ^ 36 →
     s1.fetchBody tk q.pc.toNat (n.toNat + 1) (q.pc.toNat + 4) true = (x, s2) →
     let q2 := (s2.team tk).seq
     (∀ hi, x = .ok hi true → q.reg a.toNat = 0 →
       ∃ t, exec (.loop n b a) s = .next t ∧ SeqBecomes s2 t tk { q2 with pc := BitVec.ofNat 64 hi }) ∧
     (∀ hi, x = .ok hi true → q.reg a.toNat ≠ 0 → ∃ t, exec (.loop n b a) s = .next t ∧
       let l : LoopState := ⟨q.reg a.toNat, 0, q2.pc + 4, BitVec.ofNat 64 hi, q.reg b.toNat⟩
       SeqBecomes s2 t tk (if q2.trap then { q2 with hloop := some l, pc := q2.pc + 4 } else { q2 with loop := some l, pc := q2.pc + 4 })) ∧
     (SeqHandled s2 tk →
       (∀ hi, x = .ok hi false → ∃ t, exec (.loop n b a) s = .next t ∧ SeqTrapEntered s2 t tk q2.pc 0x0A01 0) ∧
       (∀ va code, x = .fault va code → ∃ t, exec (.loop n b a) s = .next t ∧
         SeqTrapEntered s2 t tk (BitVec.ofNat 64 va) (0x0300 + code) 0))) ∧
  (∀ (n b a : BitVec 5) (s s1 : State) (tk : Nat), SeqIssues s tk s1 → SeqHandled s1 tk →
     2 ^ 36 ≤ (((s1.team tk).seq).reg b.toNat).toNat →
     ∃ t, exec (.loop n b a) s = .next t ∧ SeqTrapEntered s1 t tk (s1.team tk).seq.pc 0x0101 0)

/-- The branches of the sequencer (R66, R149): where they go, the link of CALL in s31, and the registers that JMPR and
RET jump to with bit 0 cleared. -/
def Obligations.SequencerBranches : Prop :=
  (∀ (i : Instr) (o : BitVec 16) (a : BitVec 5) (c : Bool → Bool → Bool) (s s1 : State) (tk : Nat),
    branchForm i = some (o, a, c) → SeqIssues s tk s1 →
    let q := (s1.team tk).seq
    let x := q.reg a.toNat
    ∃ t, exec i s = .next t ∧ SeqBecomes s1 t tk
      (if c x.msb (decide (x = 0)) then { q with pc := q.pc + 2 * o.signExtend 64 } else q.advance 4)) ∧
  (∀ (o : BitVec 22) (a : BitVec 5) (s s1 : State) (tk : Nat), SeqIssues s tk s1 →
    let q := (s1.team tk).seq
    let clear := fun (x : Word) => BitVec.ofNat 64 (x.toNat / 2 * 2)
    (∃ t, exec (.jmp o) s = .next t ∧ SeqBecomes s1 t tk { q with pc := q.pc + 2 * o.signExtend 64 }) ∧
    (∃ t, exec (.jumpCall o) s = .next t ∧
      SeqBecomes s1 t tk { q.setReg 31 (q.pc + 4) with pc := q.pc + 2 * o.signExtend 64 }) ∧
    (∃ t, exec (.sctlJmpr a) s = .next t ∧ SeqBecomes s1 t tk { q with pc := clear (q.reg a.toNat) }) ∧
    (∃ t, exec .sctlRet s = .next t ∧ SeqBecomes s1 t tk { q with pc := clear (q.reg 31) }))

/-- Taking a sequencer trap (R94, R106, R150, R151, R259): TRAP n with class 0x07, its code and the next address; a
word that decodes to nothing with class 0x01 and the code of R94 or R95; TRET outside trap mode; a privileged form in
a context whose PRIV is 0 with class 0x02 and code 0x01, nothing pushed and no register written; and an ACQ that can
never be granted with class 0x0D and code 0x01. -/
def Obligations.SequencerTrapEntry : Prop :=
  ∀ (s s1 : State) (tk : Nat), SeqIssues s tk s1 → SeqHandled s1 tk →
    let q := (s1.team tk).seq
    (∀ n : BitVec 8, ∃ t, exec (.sctlTrap n) s = .next t ∧ SeqTrapEntered s1 t tk (q.pc + 4) (0x0700 + n.toNat) 0) ∧
    (∀ (w : Nat) (u : Undecoded) (s2 : State), s1.fetchInstr tk q.pc.toNat = (.ok w, s2) → decodeSeq w = .error u →
      ∃ t, exec .undefinedInstruction s = .next t ∧
        SeqTrapEntered s2 t tk (s2.team tk).seq.pc (0x0100 + u.code.toNat) 0) ∧
    (∀ a : BitVec 5, ∃ t, exec (.sctlTret a) s = .next t ∧ SeqTrapEntered s1 t tk q.pc 0x0101 0) ∧
    (∀ (f : BitVec 3) (a d : BitVec 5), (s1.gridOf tk).rcd.priv = false →
      (∃ t, exec (.sxPushPg f d) s = .next t ∧ SeqTrapEntered s1 t tk q.pc 0x0201 0) ∧
      (∃ t, exec (.join a) s = .next t ∧ SeqTrapEntered s1 t tk q.pc 0x0201 0)) ∧
    (∀ n a : BitVec 4, 16 < (s1.team tk).held + n.toNat + 1 →
      ∃ t, exec (.acq n a) s = .next t ∧ SeqTrapEntered s1 t tk q.pc 0x0D01 0)

/-- TRET in trap mode (R151, R154, R280, R396): the sequencer leaves trap mode for its register with bit 0 cleared;
the main registers and the trap registers stay; the held loop stays where the target lies in its body, a held wait
where the target is its instruction, and no force stays suspended.

EXIT of the sequencer (R150, R155): it stops, its counter at the EXIT; the team exits when every lane has exited
too. Stated where it meets no barrier.
That a loop of trap mode ends with it is the model's reading (log 20). -/
def Obligations.SequencerReturnsAndExits : Prop :=
  (∀ (a : BitVec 5) (s s1 : State) (tk : Nat), SeqIssues s tk s1 → (s1.team tk).seq.trap = true →
     let q := (s1.team tk).seq
     let target : Word := BitVec.ofNat 64 ((q.reg a.toNat).toNat / 2 * 2)
     ∃ t, exec (.sctlTret a) s = .next t ∧ t = { s1 with teams := t.teams } ∧ (∀ k, k ≠ tk → t.team k = s1.team k) ∧
       t.team tk = { s1.team tk with seq := (t.team tk).seq, mf := (t.team tk).mf } ∧
       (t.team tk).seq = { q with
         trap := false, hs := [], hloop := none, pc := target,
         loop := q.loop.filter (fun l => decide (l.lo ≤ target) && decide (target < l.hi)),
         held := q.held.filter (fun h => decide (h.2 = target)) } ∧
       (∀ f ∈ (t.team tk).mf.forces, f.suspended = false) ∧
       (t.team tk).mf.forces.map (·.root) = (s1.team tk).mf.forces.map (·.root) ∧
       (t.team tk).mf.tregs = (s1.team tk).mf.tregs) ∧
  (∀ (s s1 : State) (tk : Nat), SeqIssues s tk s1 →
     let u := s1.setSeq tk { (s1.team tk).seq with exited := true }
     let g := s1.grid (keyGrid tk)
     (∀ b, b < 16 → u.autoMet tk b = false) → (SMap.get (0, []) g.cbar (g.clusterOf (keyIx tk))).2 = [] → g.gbarArr = [] →
     let last := ∀ n, n < g.launch.lanes → ((s1.team tk).lane n).exited = true
     (¬ last → exec .sctlExit s = .next u) ∧
     (last → exec .sctlExit s = .next (u.setTeam tk { u.team tk with st := .exiting })))

/-- MOVS of the sequencer (R105, R138, R150, R151, R224, R281): the value of each special register, zero-extended;
%sloop counts the passes still to run of the loop that is held, in trap mode where the handler runs no loop of its own the
interrupted one (log 20), and is 0 with none; MOVS %tflagsc reads %tflags and clears it with its records. -/
def Obligations.SequencerSpecialRegisters : Prop :=
  ∀ (s s1 : State) (tk : Nat) (d : BitVec 5), SeqIssues s tk s1 →
    let q := (s1.team tk).seq
    (∀ (sel : BitVec 8) (x : Word), (seqOwnSpecial (s1.team tk) sel.toNat <|> teamSpecial s1 tk sel.toNat) = some x →
      ∃ t, exec (.sctlMovs sel d) s = .next t ∧ SeqBecomes s1 t tk ((q.setReg d.toNat x).advance 4)) ∧
    (∃ t, exec (.sctlMovs 0x13 d) s = .next t ∧
      SeqBecomes s1 t tk ((q.setReg d.toNat (match q.hloop, q.loop with
        | some l, _ => l.count - l.pass
        | none, some l => l.count - l.pass
        | none, none => 0)).advance 4)) ∧
    (∃ t x, exec (.sctlMovs 0x0B d) s = .next t ∧ SeqBecomes s1 t tk ((q.setReg d.toNat x).advance 4) ∧
      x.getLsbD 0 = (s1.gridOf tk).rcd.det ∧ x.getLsbD 1 = (s1.gridOf tk).rcd.priv ∧
      x.toNat / 4 = (s1.gridOf tk).rcd.prio % 2 ^ 62) ∧
    (∃ t, exec (.movsTflagsc d) s = .next t ∧
      let m : Manifest := { (s1.team tk).mf with tflags := 0, tfcre := 0, tffor := 0, toerr := 0, tocre := 0 }
      SeqBecomes (s1.setTeam tk { s1.team tk with mf := m }) t tk ((q.setReg d.toNat (s1.team tk).mf.tflags).advance 4))

/-- SLD and SST (R140, R148, R203, R238, R248): a checked access that no FIFO bank makes wait performs over its single-copy
atomic pieces, or is parked; a store to the scratchpad window goes into the store buffer, behind the stores there, and no
byte of memory changes yet; a failed check raises its trap at the instruction.

The fences of the sequencer (R150, R238): with nothing buffered, and for FENCE.D and FENCE.S nothing on its way to
another chip, they only advance; else every buffered store, where none must wait, joins memory in program order before
the fence completes, and no other byte changes; from the first one on that must wait at its lines they stay buffered, and the
fence waits, as it does while a forwarded access is not performed.
When other agents see a buffered store is the model's reading (log 5). -/
def Obligations.SequencerMemoryInstructions : Prop :=
  (∀ (off : BitVec 8) (ty : BitVec 3) (a d : BitVec 5) (s s1 s2 : State) (tk : Nat) (x : Checked), SeqIssues s tk s1 →
    let q := (s1.team tk).seq
    let size := [1, 2, 4, 8].getD (ty.toNat % 4) 1
    let va := q.reg a.toNat + BitVec.ofNat 64 (off.toNat * size)
    s1.checkAccess (s1.whoOf tk) (s1.coreOf tk) .load true true false va.toNat size = (x, s2) →
    (∀ runs, x = .ok runs → s2.seqFifoWait .load runs = false →
      let acc : Access := { agent := .seq tk, va := va, runs := pieces runs, op := .load d.toNat size (decide (4 ≤ ty.toNat)) }
      s2.detHold (keyGrid tk) [acc] = none → exec (.sld off ty a d) s = .next (s2.performOrPark tk [] q.pc [acc])) ∧
    (∀ e, x = .fail e → SeqHandled s2 tk → ∃ t, exec (.sld off ty a d) s = .next t ∧
      SeqTrapEntered s2 t tk (s2.team tk).seq.pc (e.cls * 256 + e.code) (BitVec.ofNat 64 e.addr))) ∧
  (∀ (off : BitVec 8) (ty : BitVec 2) (b a : BitVec 5) (s s1 s2 : State) (tk : Nat) (runs : List (Loc × Nat)),
    SeqIssues s tk s1 →
    let q := (s1.team tk).seq
    let size := [1, 2, 4, 8].getD ty.toNat 1
    let va := q.reg a.toNat + BitVec.ofNat 64 (off.toNat * size)
    let data := (q.reg b.toNat).toNat % 2 ^ (8 * size)
    s1.checkAccess (s1.whoOf tk) (s1.coreOf tk) .store true true false va.toNat size = (.ok runs, s2) →
    s2.seqFifoWait .store runs = false →
    let acc : Access := { agent := .seq tk, va := va, runs := pieces runs, op := .store size data false }
    ((∃ l n rest, runs = (.pa l, n) :: rest) → s2.detHold (keyGrid tk) [acc] = none →
      exec (.sst off ty b a) s = .next (s2.performOrPark tk [] q.pc [acc])) ∧
    (∀ t0 bank o, runs = [(.spad t0 bank o, size)] → (s2.team tk).ownCapture runs = false → s2.fifoPort runs = none →
      (s2.gridOf tk).rcd.det = false →
      ∃ (t : State) (n : Nat), exec (.sst off ty b a) s = .next t ∧ (∀ y ∈ (s2.team tk).seq.sbuf.getLast?, n = y.store + 1) ∧
        SeqBecomes s2 t tk ({ (s2.team tk).seq with
          sbuf := (s2.team tk).seq.sbuf ++ (List.range size).map (fun j =>
            ({ loc := .spad t0 bank (o + j), val := BitVec.ofNat 8 (data / 2 ^ (8 * j)), store := n } : BufByte)) }.advance 4))) ∧
  (∀ (i : Instr) (s s1 : State) (tk : Nat), i = .sctlFenceC ∨ i = .sctlFenceD ∨ i = .sctlFenceS → SeqIssues s tk s1 →
     let q := (s1.team tk).seq
     let far := i ≠ .sctlFenceC ∧ ∃ x ∈ s1.fab.fwd, x.owner = .agent (.seq tk)
     let inOrder := (bufStores q.sbuf).flatMap (fun n => q.sbuf.filter (fun b => decide (b.store = n)))
     let waits := fun (n : Nat) => s1.bufWaits tk (bufRuns (q.sbuf.filter (fun b => decide (b.store = n))))
     (q.sbuf = [] → ¬ far → ∃ t, exec i s = .next t ∧ SeqBecomes s1 t tk (q.advance 4)) ∧
     (q.sbuf = [] → far → ∃ t, exec i s = .next t ∧ SeqBecomes s1 t tk { q with wait := some .force }) ∧
     ((∀ b ∈ q.sbuf, (∃ k bank o, b.loc = .spad k bank o) ∧ waits b.store = false) → ¬ far →
       ∃ t, exec i s = .next t ∧ (t.team tk).seq = { q with sbuf := [] }.advance 4 ∧
         (∀ j, j ≠ tk → t.team j = s1.team j) ∧ (t.team tk).lanes = (s1.team tk).lanes ∧
         ∀ a, t.byte a = match inOrder.reverse.find? (fun b => decide (s1.reach b.loc = .here a)) with
           | some b => b.val
           | none => s1.byte a) ∧
     ((∀ b ∈ q.sbuf, ∃ k bank o, b.loc = .spad k bank o) → (∃ b ∈ q.sbuf, waits b.store = true) →
       let joined := (bufStores q.sbuf).takeWhile (fun n => !waits n)
       ∃ t, exec i s = .next t ∧
         (t.team tk).seq = { q with wait := some .force, sbuf := q.sbuf.filter (fun b => !joined.contains b.store) } ∧
         (t.team tk).lanes = (s1.team tk).lanes ∧ (∀ j, j ≠ tk → t.team j = s1.team j) ∧
         ∀ a, t.byte a = match (joined.flatMap (fun n => q.sbuf.filter (fun b => decide (b.store = n)))).reverse.find?
             (fun b => decide (s1.reach b.loc = .here a)) with
           | some b => b.val
           | none => s1.byte a))

/-- What one piece of a sequencer access does (R87, R148, R202, R222): a load reads its bytes, its own buffered ones first
and then those of other buffered stores that are seen now, and with the last piece the register takes them, zero-extended or sign-extended; a load of a poisoned line takes the
trap of class 0x06 with code 0x01 and its address; a store writes its bytes and no other; the sequencer goes on to the
next instruction. -/
def Obligations.SequencerAccesses : Prop :=
  ∀ (s : State) (iaddr va : Word) (idx tk size total k done : Nat) (l : Loc) (rest : List (Loc × Nat)), PlainPlace s l size k →
    (∀ m, s.forwarded (.agent (.seq tk)) l m = none) →
    let q : Sequencer := { (s.team tk).seq with parked := false }
    (∀ (d : Nat) (sx bad : Bool) (got : List Byte),
      let a : Access := { agent := .seq tk, va := va, runs := (l, size) :: rest, op := .load d total sx, done := done, got := got,
                          poison := bad }
      s.pieceWaits idx a (l, size) = false →
      let bs := got ++ (List.range size).map (fun j => seqSees s q.sbuf l k j)
      (rest ≠ [] → ∃ t, s.stepPiece idx iaddr a =
          .more { a with runs := rest, done := done + size, got := bs, poison := bad || poisonAt s k size } t ∧
        t.mem = s.mem ∧ t.teams = s.teams) ∧
      (rest = [] → total ≤ 8 → (bad || poisonAt s k size) = false → bs.length = total →
        ∃ t, s.stepPiece idx iaddr a = .done t ∧ t.mem = s.mem ∧ (∀ j, j ≠ tk → t.team j = s.team j) ∧
          (t.team tk).lanes = (s.team tk).lanes ∧ (t.team tk).seq =
            (q.setReg d (if sx then (BitVec.ofNat (8 * total) (leNat bs)).signExtend 64 else BitVec.ofNat 64 (leNat bs))).advance 4) ∧
      (rest = [] → (bad || poisonAt s k size) = true → SeqHandled s tk →
        ∃ t, s.stepPiece idx iaddr a = .done t ∧ t.mem = s.mem ∧ (t.team tk).seq = { q with
          trap := true, hs := [], hloop := none, wait := none, pc := (s.gridOf tk).rcd.svec,
          scause := 0x0601, sepc := q.pc, saddr := va })) ∧
    (∀ data : Nat, done + size ≤ total →
      let a : Access := { agent := .seq tk, va := va, runs := (l, size) :: rest, op := .store total data false, done := done }
      s.pieceWaits idx a (l, size) = false →
      ∃ t, s.stepPiece idx iaddr a = (if rest = [] then .done t else .more { a with runs := rest, done := done + size } t) ∧
        (∀ j, j < size → t.byte (k + j) = BitVec.ofNat 8 (data / 2 ^ (8 * (done + j)))) ∧ OnlyBytes s t k size ∧
        (∀ j, j ≠ tk → t.team j = s.team j) ∧ (t.team tk).lanes = (s.team tk).lanes ∧
        (t.team tk).seq = if rest = [] then q.advance 4 else (s.team tk).seq)

/-- The sequencer at the numbered barriers (R306 to R308): BARI sets the expected count, at once where the barrier is
idle and pending elsewhere; BARA counts an arrival and goes on; BARW and BARAW wait for the phase in force. Counted
mode, no release, nothing buffered.

CBAR and GBAR (R309, R310): the team's arrival is recorded, once in a phase, and its sequencer waits for the phase in
force; the arrival that completes the cluster or the grid ends the waits of all its sequencers, and the phase advances. A
GBAR is stated for a grid of which no team has retired, and its release for one that has buffered no reductions. -/
def Obligations.SequencersAtBarriers : Prop :=
  (∀ (f : BitVec 1) (b : BitVec 4) (c : BitVec 11) (s s1 : State) (tk : Nat), SeqIssues s tk s1 →
     let q := (s1.team tk).seq
     let x := (s1.team tk).bar b.toNat
     let bars := fun (t : State) (y : Barrier) => ∀ k, (t.team tk).bar k = if k = b.toNat then y else (s1.team tk).bar k
     (∃ t, exec (.bari c b) s = .next t ∧ bars t (if x.st = .idle then { x with expected := c.toNat } else { x with st := .arming, pend := c.toNat }) ∧
       t.mem = s1.mem ∧ (t.team tk).seq = q.advance 4 ∧ (t.team tk).lanes = (s1.team tk).lanes) ∧
     (q.sbuf = [] → q.held = none → x.expected ≠ 0 →
       (∃ t, exec (.barBarw f b) s = .next t ∧ SeqBecomes s1 t tk { q with wait := some (.bar b.toNat x.phase) }) ∧
       (x.arr + 1 < x.expected →
         let y := { x with arr := x.arr + 1, seqArr := true, st := if x.st = .idle then .arriving else x.st }
         (∃ t, exec (.barBara f b) s = .next t ∧ bars t y ∧ t.mem = s1.mem ∧ (t.team tk).seq = q.advance 4 ∧
           (t.team tk).lanes = (s1.team tk).lanes) ∧
         (∃ t, exec (.barBaraw f b) s = .next t ∧ bars t y ∧ t.mem = s1.mem ∧ (t.team tk).lanes = (s1.team tk).lanes ∧
           (t.team tk).seq = { q with wait := some (.bar b.toNat x.phase) })))) ∧
  (∀ (s s1 : State) (tk : Nat), SeqIssues s tk s1 → (s1.team tk).seq.held = none →
     let k := keyGrid tk
     let g := s1.grid k
     let c := g.clusterOf (keyIx tk)
     let x := SMap.get (0, []) g.cbar c
     let once := fun (l : List Nat) (n : Nat) => if n ∈ l then l else l ++ [n]
     let goes := fun (t : State) (j : Nat) (w : SeqWait) => (t.team j).seq =
       (if j = tk ∨ (s1.team j).seq.wait = some w then { (s1.team j).seq with wait := none }.advance 4 else (s1.team j).seq)
     let arrived := fun (r : Nat) => decide (r ∈ once x.2 (g.rankOf (keyIx tk))) || (s1.team (teamKey k (c * g.q + r))).seqGone
     (¬ (∀ r, r < g.clusterSize c → arrived r = true) → ∃ t, exec .cbar s = .next t ∧ t.mem = s1.mem ∧
       SMap.get (0, []) (t.grid k).cbar c = (x.1, once x.2 (g.rankOf (keyIx tk))) ∧
       (t.team tk).seq = { (s1.team tk).seq with wait := some (.cbar x.1) } ∧ ∀ j, j ≠ tk → t.team j = s1.team j) ∧
     ((∀ r, r < g.clusterSize c → arrived r = true) → (∀ y ∈ s1.releases, y.kind ≠ .cbar k c) → ∃ t, exec .cbar s = .next t ∧ t.mem = s1.mem ∧
       SMap.get (0, []) (t.grid k).cbar c = (x.1 + 1, []) ∧
       (∀ j, keyGrid j = k → keyIx j / g.q = c → goes t j (.cbar x.1)) ∧
       ∀ j, ¬ (keyGrid j = k ∧ keyIx j / g.q = c) → t.team j = s1.team j) ∧
     (g.retired = 0 → (once g.gbarArr (keyIx tk)).length < g.size → (∀ j, keyGrid j = k → (s1.team j).seqGone = false) →
       ∃ t, exec .gbar s = .next t ∧ t.mem = s1.mem ∧ (t.grid k).gbarArr = once g.gbarArr (keyIx tk) ∧
       (t.grid k).gbarPhase = g.gbarPhase ∧
       (t.team tk).seq = { (s1.team tk).seq with wait := some (.gbar g.gbarPhase) } ∧ ∀ j, j ≠ tk → t.team j = s1.team j) ∧
     (g.retired = 0 → (once g.gbarArr (keyIx tk)).length = g.size →
       (∀ j, keyGrid j = k → (s1.team j).seqGone = false ∧ (s1.team j).red = []) →
       g.deferred = [] → (∀ y ∈ s1.releases, y.kind ≠ .gbar k) →
       ∃ t, exec .gbar s = .next t ∧ t.mem = s1.mem ∧ (t.grid k).gbarArr = [] ∧ (t.grid k).gbarPhase = g.gbarPhase + 1 ∧
         (t.grid k).tags = [] ∧ (t.grid k).interval.st = .opened ∧
         ∀ j, keyGrid j = k → goes t j (.gbar g.gbarPhase)))

/-- PUSH of the sequencer (R106, R152): with room in the queue the eight words join it and the flag register is 0; with
the queue full nothing is pushed and the flag register is 1. Where a page-table walk for the regions of the command, or in a DET
grid an earlier access to them, is waited for, the instruction waits (log 85). The page engine's capacity is open (log 15). -/
def Obligations.SequencerPushes : Prop :=
  ∀ (f : BitVec 3) (d : BitVec 5) (s s1 : State) (tk : Nat), SeqIssues s tk s1 →
    let q := (s1.team tk).seq
    let words := wordsFrom q.reg d.toNat
    let cmd := (tk, (none : Option Nat), words)
    let core := s1.coreOf tk
    let flag := fun (x : Word) => (q.setReg f.toNat x).advance 4
    let sets := fun (t : State) (x : Word) => t.mem = s1.mem ∧ (t.team tk).seq = flag x ∧ (t.team tk).lanes = (s1.team tk).lanes ∧
      ∀ j, j ≠ tk → t.team j = s1.team j
    ((s1.coreAt core).ce.length < 32 → s1.pushHold 0 tk none words = none → ∃ t, exec (.sxPushCe f d) s = .next t ∧ sets t 0 ∧
      (t.coreAt core).ce.map Cmd.summary = (s1.coreAt core).ce.map Cmd.summary ++ [cmd] ∧ t.nextPush = s1.nextPush + 1) ∧
    (32 ≤ (s1.coreAt core).ce.length → ∃ t, exec (.sxPushCe f d) s = .next t ∧ sets t 1 ∧ t = { s1 with teams := t.teams }) ∧
    (s1.fab.xeq.length + s1.fab.xe.length < 256 → s1.pushHold 1 tk none words = none → ∃ t, exec (.sxPushXe f d) s = .next t ∧
      sets t 0 ∧ t.fab.xeq.map Cmd.summary = s1.fab.xeq.map Cmd.summary ++ [cmd]) ∧
    (256 ≤ s1.fab.xeq.length + s1.fab.xe.length → ∃ t, exec (.sxPushXe f d) s = .next t ∧ sets t 1 ∧ t = { s1 with teams := t.teams }) ∧
    (∀ x, (s1.coreAt core).ce.length < 32 → s1.pushHold 0 tk none words = some x →
      exec (.sxPushCe f d) s = .next (s1.seqPage tk x false)) ∧
    (∀ x, s1.fab.xeq.length + s1.fab.xe.length < 256 → s1.pushHold 1 tk none words = some x →
      exec (.sxPushXe f d) s = .next (s1.seqPage tk x false)) ∧
    ((s1.gridOf tk).rcd.priv = true → ∃ t, exec (.sxPushPg f d) s = .next t ∧
      ((t.dsp.pg.map Cmd.summary = s1.dsp.pg.map Cmd.summary ++ [cmd] ∧ sets t 0) ∨
        (t.dsp.pg = s1.dsp.pg ∧ sets t 1 ∧ Config.pgCapacity ≤
          (s1.dsp.pg.filter (fun c => decide (c.tier = s1.pgTier words))).length)))

/-- ACQ, ACQ_GRANT and REL (R258, R259, R279): a request at the head of the core's queue with enough free banks takes
them and its register names them; otherwise it waits in order of issue; REL gives back the banks of its mask, and the
values that stood in them are lost. -/
def Obligations.AccumulatorBanks : Prop :=
  (∀ (n a : BitVec 4) (s s1 : State) (tk : Nat), SeqIssues s tk s1 →
    let q := (s1.team tk).seq
    let core := s1.coreOf tk
    (s1.team tk).held + n.toNat + 1 ≤ 16 →
    (∀ (m : Nat) (t0 : Team), (s1.coreAt core).acq = [] → n.toNat + 1 ≤ (s1.freeAcc core).length →
      (s1.team tk).takeBanks ((s1.freeAcc core).take (n.toNat + 1)) = (m, t0) →
      ∃ t, exec (.acq n a) s = .next t ∧ (t.team tk).acc = t0.acc ∧
        (t.team tk).seq = (q.setReg a.toNat (BitVec.ofNat 64 m)).advance 4 ∧ t.mem = s1.mem) ∧
    ((s1.coreAt core).acq ≠ [] ∨ (s1.freeAcc core).length < n.toNat + 1 →
      ∃ t, exec (.acq n a) s = .next t ∧ (t.coreAt core).acq = (s1.coreAt core).acq ++ [(tk, n.toNat + 1, a.toNat)] ∧
        SeqBecomes (s1.setCore core { s1.coreAt core with acq := (s1.coreAt core).acq ++ [(tk, n.toNat + 1, a.toNat)] }) t tk
          { q with wait := some .acq })) ∧
  (∀ (s : State) (core tk n r : Nat) (rest : List (Nat × Nat × Nat)) (m : Nat) (t0 : Team),
    s.turn = .event .acqGrant (.nat core) → (s.coreAt core).acq = (tk, n, r) :: rest → n ≤ (s.freeAcc core).length →
    (s.team tk).takeBanks ((s.freeAcc core).take n) = (m, t0) →
    ∃ t, exec .acqGrant s = .next t ∧ (t.coreAt core).acq = rest ∧ (t.team tk).acc = t0.acc ∧
      (t.team tk).seq = ({ (s.team tk).seq with wait := none }.setReg r (BitVec.ofNat 64 m)).advance 4) ∧
  (∀ (t0 : Team) (ps : List Nat), t0.held + ps.length ≤ 16 → (∀ e ∈ t0.acc, e.1 < 16 ∧ e.2 ≠ 0) → SMap.wf 0 t0.acc = true →
    let x := t0.takeBanks ps
    x.2.held = t0.held + ps.length ∧ (∀ p ∈ ps, ∃ j, j < 16 ∧ SMap.get 0 x.2.acc j = p + 1) ∧
      (∀ j, SMap.get 0 t0.acc j ≠ 0 → SMap.get 0 x.2.acc j = SMap.get 0 t0.acc j) ∧
      ∀ j, x.1.testBit j = (decide (SMap.get 0 t0.acc j = 0) && decide (SMap.get 0 x.2.acc j ≠ 0))) ∧
  (∀ (a : BitVec 4) (s s1 : State) (tk : Nat), SeqIssues s tk s1 →
    (∀ f ∈ (s1.team tk).mf.forces, f.suspended = true) →
    let mask := ((s1.team tk).seq).reg a.toNat
    ∃ t, exec (.rel a) s = .next t ∧ t.mem = s1.mem ∧ (t.team tk).seq = ((s1.team tk).seq).advance 4 ∧
      (∀ j, j < 16 → SMap.get 0 (t.team tk).acc j = if mask.getLsbD j then 0 else SMap.get 0 (s1.team tk).acc j) ∧
      (t.team tk).mf.nodes = (s1.team tk).mf.nodes.map (fun e =>
        if e.2.holds = true ∧ (∃ i, i < e.2.ngran ∧ (mask.setWidth 16 &&& (s1.team tk).heldMask).getLsbD ((e.2.gran + i) / 16) = true)
        then (e.1, { e.2 with st := .faulted, fcode := 3, val := [], gran := 0, ngran := 0 }) else e) ∧
      (t.team tk).lanes = (s1.team tk).lanes ∧ ∀ j, j ≠ tk → t.team j = s1.team j)

/-- VIEW, JOIN and VWAIT (R352, R356, R368): VIEW reads a doubleword of the member bitmap, 0 beyond the last; JOIN asks
its sponsor, unless the chip is a member or isolated, when it does nothing; VWAIT completes once the view's number has
reached the register's, or the chip is isolated, and waits before. -/
def Obligations.ViewInstructions : Prop :=
  ∀ (a d : BitVec 5) (s s1 : State) (tk : Nat), SeqIssues s tk s1 →
    let q := (s1.team tk).seq
    let x := q.reg a.toNat
    let f := s1.fab
    (∃ t y, exec (.view a d) s = .next t ∧ SeqBecomes s1 t tk ((q.setReg d.toNat y).advance 4) ∧
      ∀ j, j < 64 → y.getLsbD j = decide (x.toNat < 64 ∧ x.toNat * 64 + j ∈ f.members)) ∧
    ((s1.gridOf tk).rcd.priv = true →
      (f.member = true ∨ f.isol = true → ∃ t, exec (.join a) s = .next t ∧ SeqBecomes s1 t tk (q.advance 4)) ∧
      (f.member = false → f.isol = false → ∃ t, exec (.join a) s = .next t ∧ t.mem = s1.mem ∧ t.fab.rejoining = true ∧
        (t.team tk).seq = q.advance 4 ∧
        Sent s1 t (x.toNat % 4096) .join)) ∧
    ((f.member = true ∧ (f.vnum - x.setWidth 32).toNat < 2 ^ 31) ∨ f.isol = true →
      ∃ t, exec (.vwait a) s = .next t ∧ SeqBecomes s1 t tk (q.advance 4)) ∧
    (¬ ((f.member = true ∧ (f.vnum - x.setWidth 32).toNat < 2 ^ 31) ∨ f.isol = true) →
      ∃ t, exec (.vwait a) s = .next t ∧ SeqBecomes s1 t tk { q with wait := some .vwait })

/-! ## Tiles -/

/-- Products, TSCA, element-wise operations, TTR, TCVT and the constants (R261 to R266, R283, R285, R290 to R296): with
operands that the instruction accepts, td names the identical node that is present, with one creator more; else, with
room, a new node of the operation, operands, formats and shape that the rules give. Nothing else changes.
Which nodes count as identical is the model's reading (log 31). -/
def Obligations.TileInstructionsCreateNodes : Prop :=
  ∀ (i : Instr) (f : TileForm) (s s1 : State) (tk : Nat) (os : List (Nat × Node)), tileForm i = some f → SeqIssues s tk s1 →
    let q := (s1.team tk).seq
    let m := (s1.team tk).mf.tick
    let td := steppedField q 0 f.td
    f.shape q = true → operandsOf f q m = some os → f.ok (os.map (·.2)) = true →
    let x := createdBy f q os
    (∀ k, m.identical x = some k → ∃ t, exec i s = .next t ∧ TileDone s1 t tk (sharedAs m td k) (q.advance 4)) ∧
    (m.identical x = none → roomFor s1 tk m x.opnds → ∃ t, exec i s = .next t ∧
      TileDone s1 t tk (inserted m td (newEntry x q.pc false [] [] s1.nextPush)) (q.advance 4))

/-- The precise tile fault (R280, R286): a shape word that breaks its rule, an operand field that names no node, or
operands of a format or shape that the instruction does not accept raise class 0x08 with code 0x05; no node is created
or shared, and td is as it was.

Depth and budget (R266): an operand of depth 16, or else, with the budget full and no force under way, the oldest
root is forced and the instruction waits; with a force under way it waits for it; with every root materialized it
raises class 0x08 with code 0x02. Nothing is inserted.
That suspended forces are not under way is the model's reading (log 59). -/
def Obligations.TileInstructionsFaultOrForce : Prop :=
  (∀ (i : Instr) (f : TileForm) (s s1 : State) (tk : Nat), tileForm i = some f → SeqIssues s tk s1 → SeqHandled s1 tk →
     let q := (s1.team tk).seq
     let m := (s1.team tk).mf.tick
     (f.shape q = false ∨ operandsOf f q m = none ∨ ∃ os, operandsOf f q m = some os ∧ f.ok (os.map (·.2)) = false) →
     ∃ t, exec i s = .next t ∧ TileTrapped s1 t tk m 5) ∧
  (∀ (i : Instr) (f : TileForm) (s s1 : State) (tk : Nat) (os : List (Nat × Node)), tileForm i = some f → SeqIssues s tk s1 →
     let q := (s1.team tk).seq
     let m := (s1.team tk).mf.tick
     f.shape q = true → operandsOf f q m = some os → f.ok (os.map (·.2)) = true → m.identical (createdBy f q os) = none →
     let deep := (os.map (·.1)).filter (fun k => decide (16 ≤ m.depth 17 k))
     let full := (s1.gridOf tk).launch.graph ≤ m.counted.length
     let forced := fun (k : Nat) => (∀ g ∈ m.forces, g.root = k → g.suspended = true) → m.forces.length < 16 → ∃ t, exec i s = .next t ∧
       (t.team tk).mf.forces.map Force.summary =
         m.forces.map Force.summary ++ [(k, .insertion, q.pc &&& (2 ^ 56 - 1), [], s1.nextPush)] ∧
       (t.team tk).mf.nodes = m.nodes ∧ (t.team tk).mf.tregs = m.tregs ∧ (t.team tk).seq = { q with wait := some .force } ∧
       t.mem = s1.mem
     (∀ k ∈ deep, (∀ j ∈ deep, k ≤ j) → forced k) ∧
     (deep = [] → full →
       ((∃ g ∈ m.forces, g.suspended = false) → ∃ t, exec i s = .next t ∧ TileDone s1 t tk m { q with wait := some .force }) ∧
       ((∀ g ∈ m.forces, g.suspended = true) →
         (∀ k ∈ m.rootsOf, (∀ j ∈ m.rootsOf, k ≤ j) → forced k) ∧
         (m.rootsOf = [] → SeqHandled s1 tk → ∃ t, exec i s = .next t ∧ TileTrapped s1 t tk m 2))))

/-- Names and drops (R262, R263): writing a tile register changes what that register names and no other; no node is
invented or changed but for the mark of who unnamed it; every node that a register names, that is the root of a force
or that a kept node refers to stays; and what is kept is one of these. -/
def Obligations.NamesKeepNodesAlive : Prop :=
  ∀ (m : Manifest) (r : Nat) (k : Option Nat),
    let t := m.setName r k
    (∀ j, t.named j = if j = r then k else m.named j) ∧ t.forces = m.forces ∧ t.create = m.create ∧
    (∀ e ∈ t.nodes, ∃ n, (e.1, n) ∈ m.nodes ∧ e.2 = { n with unnamed := e.2.unnamed }) ∧
    (∀ e ∈ t.nodes, (∃ j, t.named j = some e.1) ∨ (∃ g ∈ t.forces, g.root = e.1) ∨ ∃ e' ∈ t.nodes, e.1 ∈ e'.2.refs) ∧
    ((m.nodes.map (·.1)).Nodup → (∀ e ∈ m.nodes, e.2.refs.length ≤ 8) → ∀ e ∈ m.nodes,
      ((∃ j, t.named j = some e.1) ∨ (∃ g ∈ t.forces, g.root = e.1) ∨ ∃ e' ∈ t.nodes, e.1 ∈ e'.2.refs) →
      ∃ e' ∈ t.nodes, e'.1 = e.1)

/-- TLD (R264, R267, R284, R287, R289): a leaf that captures its region, with the elements that the region's planes
hold now, and that td names; an identical captured leaf is shared. A malformed shape word raises class 0x08 with code
0x05, a region outside the window or its banks class 0x04 with the lowest address, a DET grid's tags class 0x05.
The order of the checks is the model's reading (log 33). -/
def Obligations.LeavesCaptureTheirRegion : Prop :=
  ∀ (c : BitVec 5) (b a d : BitVec 4) (s s1 : State) (tk : Nat), SeqIssues s tk s1 →
    let q := (s1.team tk).seq
    let m := (s1.team tk).mf.tick
    let w := q.reg b.toNat
    let base := q.reg a.toNat
    let td := steppedField q 0 d
    let rows := w.toNat % 512
    let cols := w.toNat / 512 % 512
    let rb := rowBytes c.toNat cols false
    let reg := s1.region tk base.toNat (strideOf (w.toNat / 2 ^ 32 % 65536) rb) rb rows
    let x : NewNode := { op := 16, scal := [base, w], fmt := c.toNat, rows := rows, cols := cols, vfmt := c.toNat }
    (shapeOk c.toNat false w.toNat = false → SeqHandled s1 tk → ∃ t, exec (.tld c b a d) s = .next t ∧ TileTrapped s1 t tk m 5) ∧
    (shapeOk c.toNat false w.toNat = true →
      (∀ e, reg = .error e → SeqHandled s1 tk → ∃ t, exec (.tld c b a d) s = .next t ∧
        SeqTrapEntered (s1.setTeam tk { s1.team tk with mf := m }) t tk q.pc (0x0400 + e.1) (BitVec.ofNat 64 e.2)) ∧
      (∀ rs, reg = .ok rs →
        let runs := regionRuns rs
        (∀ k, m.identical x = some k → ∃ t, exec (.tld c b a d) s = .next t ∧ TileDone s1 t tk (sharedAs m td k) (q.advance 4)) ∧
        (m.identical x = none → roomFor s1 tk m [] →
          (∀ y ∈ q.sbuf, ∀ r ∈ runs, overlaps y.loc 1 r.1 r.2 = false) → s1.mustWait (keyGrid tk) false runs = false →
          (∀ p ∈ linePieces runs, s1.standsBehind (keyGrid tk) false p.1 = false) →
          (s1.regionDet tk false rs = none → ∃ t, exec (.tld c b a d) s = .next t ∧ t.mem = s1.mem ∧
            (∀ k, k ≠ tk → t.team k = s1.team k) ∧ (t.team tk).lanes = (s1.team tk).lanes ∧ (t.team tk).seq = q.advance 4 ∧
            (t.team tk).mf = inserted m td (newEntry x q.pc true runs
              (regionTile c.toNat rows cols ((linePieces runs).flatMap (fun p => s1.sighted p.1 (s1.pieceBytes p.1 p.2)))).val s1.nextPush)) ∧
          (∀ e, s1.regionDet tk false rs = some e → SeqHandled s1 tk → ∃ t, exec (.tld c b a d) s = .next t ∧
            (t.team tk).seq.scause = BitVec.ofNat 64 (0x0500 + e.1) ∧ (t.team tk).seq.saddr = BitVec.ofNat 64 e.2 ∧
            (t.team tk).seq.trap = true ∧ (t.team tk).mf = m))))

/-- TST (R270, R286, R297, R299): the node that td names is forced, with the rows of the target as the bytes that the
force will write, and claimed at the TST's place among the pushes; no byte of memory changes yet. A malformed
descriptor or a register that names no node raises class 0x08 with code 0x05.
The order of the checks, and when tags are set, are the model's reading (logs 33 and 85). -/
def Obligations.TileStoresAreIssued : Prop :=
  ∀ (c : BitVec 5) (b a d : BitVec 4) (s s1 : State) (tk : Nat), SeqIssues s tk s1 →
    let q := (s1.team tk).seq
    let m := (s1.team tk).mf.tick
    let desc := q.reg b.toNat
    let base := q.reg a.toNat
    (descOk c.toNat desc = false ∨ m.operand (steppedField q 0 d) = none ∧ (∃ rs, s1.region tk base.toNat 8 1 1 = .ok rs) →
      SeqHandled s1 tk →
      ∃ t, exec (.tst c b a d) s = .next t ∧ TileTrapped s1 t tk m 5) ∧
    (∀ (k : Nat) (n : Node) (rs : List (Nat × List (Loc × Nat))), descOk c.toNat desc = true →
      m.operand (steppedField q 0 d) = some (k, n) →
      let rb := rowBytes c.toNat n.cols (decide (wideBytes c.toNat ≠ 0) && !desc.getLsbD 50)
      let st := (desc.extractLsb' 32 16).toNat
      st = 0 ∨ st % 8 = 0 ∧ rb ≤ st →
      s1.region tk base.toNat (strideOf st rb) rb n.rows = .ok rs → n.vkind ≠ 2 → (0x13 ≤ n.vfmt ↔ 0x13 ≤ c.toNat) →
      (m.forces.length < 16 → s1.regionDet tk true rs = none →
        (∀ y ∈ q.sbuf, ∀ r ∈ regionRuns rs, overlaps y.loc 1 r.1 r.2 = false) →
        (∀ p ∈ linePieces (regionRuns rs), s1.detBefore s1.parked.length (keyGrid tk) true p.1 = false) →
        ∃ t, exec (.tst c b a d) s = .next t ∧ t.mem = s1.mem ∧ t.nextPush = s1.nextPush + 1 ∧
          (t.team tk).mf.forces.map Force.summary = m.forces.map Force.summary ++
            [(k, .tst c.toNat base desc, q.pc &&& (2 ^ 56 - 1), regionRuns rs, s1.nextPush)] ∧
          (t.team tk).mf.nodes = m.nodes ∧ (t.team tk).mf.tregs = m.tregs ∧ (t.team tk).seq = q.advance 4 ∧
          (∀ j, j ≠ tk → t.team j = s1.team j)) ∧
      (16 ≤ m.forces.length → ∃ t, exec (.tst c b a d) s = .next t ∧ TileDone s1 t tk m { q with wait := some .force }))

/-- TFORCE, TDROP and TSTAT (R270, R300, R301): a register that names no node, or one that holds its value, is forced at once,
another node's force is queued; TDROP makes the register name no node; TSTAT waits for the forces and then reads the
fields of the node, or 0.
That TSTAT waits for every force is the model's reading (log 61). -/
def Obligations.ForceDropAndStatus : Prop :=
  ∀ (a d : BitVec 4) (s s1 : State) (tk : Nat), SeqIssues s tk s1 →
    let q := (s1.team tk).seq
    let m := (s1.team tk).mf.tick
    (m.operand (steppedField q 4 a) = none → ∃ t, exec (.tforce a) s = .next t ∧ TileDone s1 t tk m (q.advance 4)) ∧
    (∀ k n, m.operand (steppedField q 4 a) = some (k, n) →
      (n.holds = true → ∃ t, exec (.tforce a) s = .next t ∧ TileDone s1 t tk m (q.advance 4)) ∧
      (n.holds = false → m.forces.length < 16 → ∃ t, exec (.tforce a) s = .next t ∧
        (t.team tk).mf.forces.map Force.summary =
          m.forces.map Force.summary ++ [(k, .tforce, q.pc &&& (2 ^ 56 - 1), [], s1.nextPush)] ∧
        TileDone s1 t tk { m with forces := (t.team tk).mf.forces } (q.advance 4)) ∧
      (n.holds = false → 16 ≤ m.forces.length →
        ∃ t, exec (.tforce a) s = .next t ∧ TileDone s1 t tk m { q with wait := some .force })) ∧
    (∃ t, exec (.tdrop d) s = .next t ∧ TileDone s1 t tk (m.setName (steppedField q 0 d) none) (q.advance 4)) ∧
    (m.forces ≠ [] → ∃ t, exec (.tstat a d) s = .next t ∧ TileDone s1 t tk m { q with wait := some .force }) ∧
    (m.forces = [] → m.operand (steppedField q 0 d) = none →
      ∃ t, exec (.tstat a d) s = .next t ∧ TileDone s1 t tk m ((q.setReg a.toNat 0).advance 4)) ∧
    (m.forces = [] → ∀ k n, m.operand (steppedField q 0 d) = some (k, n) →
      ∃ (t : State) (v : Word), exec (.tstat a d) s = .next t ∧ TileDone s1 t tk m ((q.setReg a.toNat v).advance 4) ∧
        (v.extractLsb' 0 4).toNat = n.st.code ∧ (v.extractLsb' 4 5).toNat = n.vfmt % 32 ∧ v.getLsbD 9 = decide (n.vkind = 1) ∧
        (v.extractLsb' 10 1).toNat = n.contract % 2 ∧ (v.extractLsb' 11 5).toNat = m.depth 17 k % 32 ∧
        v.extractLsb' 16 6 = n.flags ∧ (v.extractLsb' 24 8).toNat = n.fcode % 256 ∧ (v.extractLsb' 32 9).toNat = n.rows % 512 ∧
        (v.extractLsb' 41 9).toNat = n.cols % 512 ∧ (v.extractLsb' 50 9).toNat = n.kdim % 512)

/-- FORCE_EVALUATION (R264, R270 to R272, R276 to R280, R297 to R299), on the force that is served next, in the state `u` in
which an exiting team has its exit forces: a force is started, its set evaluating and its copy rewritten; the next place
of its order is computed from its operands' values into free space, or with none free, or at a lost value, the force is
suspended, %tcreat and %tforcr are set and the trap raised; behind the last place it is removed, or leaves a TST's bytes
to write. None of these writes memory. A computed TST writes one line a turn, the bits that its descriptor names and no other, the
first that waits for nothing, and is removed with the last.
That a turn takes one place of the order, and what a snapshot counts, is the model's reading (logs 30 and 34). -/
def Obligations.ForcesEvaluate : Prop :=
  ∀ (s u : State) (tk i : Nat) (f : Force), s.turn = .event .forceEvaluation (.nat tk) →
    u = (if (s.team tk).st = .exiting then s.setTeam tk (s.team tk).atExit else s) →
    (u.team tk).st = .running ∨ (u.team tk).st = .exiting → (u.gridOf tk).interval.st ≠ .rolling →
    nextForce (u.team tk).mf.forces = some (i, f) →
    let m := (u.team tk).mf
    let rest := fun (t : State) => t.mem = u.mem ∧ (t.team tk).mf.tregs = m.tregs ∧ (t.team tk).lanes = (u.team tk).lanes ∧
      ∀ k, k ≠ tk → t.team k = u.team k
    let faults := fun (code : Nat) (n : CopyNode) => (u.team tk).seq.exited = false → SeqHandled u tk →
      ∃ t, exec .forceEvaluation s = .next t ∧ rest t ∧ (t.team tk).mf.tforcr = f.faddr &&& (2 ^ 56 - 1) ∧
        (∀ y, m.node? n.attr = some y → (t.team tk).mf.tcreat = y.creator &&& (2 ^ 56 - 1)) ∧
        ((t.team tk).mf.forces[i]?).map (·.suspended) = some true ∧
        (t.team tk).seq = { (u.team tk).seq with pending := (u.team tk).seq.pending ++ [⟨8, code, 0⟩] }
    (f.fin = false → f.work = none → ∃ (t : State) (w : Work), exec .forceEvaluation s = .next t ∧ rest t ∧
      (t.team tk).seq = (u.team tk).seq ∧ (t.team tk).mf.forces = m.forces.set i { f with work := some w } ∧
      w.copy = m.rewrite f (m.keeps f) ∧ w.order = w.copy.post ∧ w.pos = 0 ∧ w.vals = [] ∧
      (∀ k ∈ m.reach [f.root], ∀ y, m.node? k = some y → y.holds = false → y.lost = false →
        ((t.team tk).mf.node? k).map (·.st) = some .evaluating)) ∧
    (∀ (w : Work) (k : Nat) (n : CopyNode), f.fin = false → f.work = some w → w.order[w.pos]? = some k →
      w.copy.get k = some n → w.vals.any (fun x => decide (x.1 = k)) = false → k ∈ w.needed m f → m.ready n = none →
      (n.op = opLost ∨ n.op = opMat → faults 3 n) ∧
      (n.op < opMat → n.op ≠ opLeaf → u.spaceFor tk f n = none → faults 1 n) ∧
      (∀ g, n.op < opMat → n.op ≠ opLeaf → u.spaceFor tk f n = some g → k ∉ n.opnds →
        (∀ o ∈ n.opnds, ∃ c, w.copy.get o = some c ∧ (c.op ≠ opLeaf ∨ w.vals.any (fun x => decide (x.1 = o)) = true)) →
        let value := (computeNode n (n.opnds.filterMap (fun o => (w.copy.get o).map (fun c => c.tile (w.val o))))).1.val
        ∃ (t : State) (w' : Work), exec .forceEvaluation s = .next t ∧ rest t ∧ (t.team tk).seq = (u.team tk).seq ∧
          (t.team tk).mf.forces = m.forces.set i { f with work := some w' } ∧ w'.pos = w.pos + 1 ∧ (k, value) ∈ w'.vals ∧
          (∀ x ∈ w'.vals, x = (k, value) ∨ x ∈ w.vals) ∧ ∀ x ∈ w.vals, x.1 ∉ n.opnds → x ∈ w'.vals)) ∧
    (∀ w, f.fin = false → f.work = some w → w.order.length ≤ w.pos →
      ∃ t, exec .forceEvaluation s = .next t ∧ rest t ∧ (t.team tk).seq = (u.team tk).seq ∧
        (t.team tk).mf.forces = (match f.kind with
          | .tst _ _ _ => m.forces.set i { f with fin := true, work := none }
          | _ => m.forces.eraseIdx i)) ∧
    (∀ fmt base desc n, f.fin = true → f.kind = .tst fmt base desc → m.meets f = false →
      m.node? f.root = some n → n.holds = true →
      let elems := (tstConvert fmt desc n.tile).1
      (u.tstNext tk f = none → exec .forceEvaluation s = .next u) ∧
      (∀ x k, u.tstNext tk f = some x → (∃ v b o, x.2.1 = .spad v b o) → PlainPlace u x.2.1 x.2.2 k →
        let left := f.left.filter (fun y => decide (y.1 ≠ x.1))
        ∃ t, exec .forceEvaluation s = .next t ∧ (t.team tk).seq = (u.team tk).seq ∧ OnlyBytes u t k x.2.2 ∧
          (t.team tk).mf.forces = (if left = [] then m.forces.eraseIdx i else m.forces.set i { f with left := left }) ∧
          (∀ j y, j < x.2.2 → (tstBytes fmt desc n.tile elems)[x.1 + j]? = some y → ∀ b, b < 8 →
            (t.byte (k + j)).getLsbD b = if y.1.testBit b then y.2.testBit b else (u.byte (k + j)).getLsbD b) ∧
          (tstPacked fmt desc = true → ∀ j b, j < x.2.2 →
            ((groups n.tile.rows (Nat.max 1 (n.tile.cols * compsOf fmt)) elems).flatMap (packedRow fmt))[x.1 + j]? = some b →
            t.byte (k + j) = b)))

/-- The arithmetic of tiles (R59 to R63, R290 to R296): the elements of a real product, chained from 0 or
from the addend's element over ascending k; the parts of a complex product, each of two steps for every k; the block partials of
TBP, and their scaling by TSCA; of a sum, a difference and an element-wise product; of a transposed, a
converted and a constant tile.
Conversions that R57 has no row for follow the model's choice (log 74). -/
def Obligations.TileArithmetic : Prop :=
  (∀ (fmt : Nat) (x y : Tile) (z : Option Tile), fmt ≤ 0x12 → x.vkind = 0 → y.vkind = 0 → x.vfmt = fmt → y.vfmt = fmt →
    x.full 1 → y.full 1 → x.cols = y.rows →
    (∀ w, z = some w → w.full 1 ∧ w.vkind = 0 ∧ w.vfmt ≤ 0x12 ∧ w.rows = x.rows ∧ w.cols = y.cols) →
    let t := (tileProduct fmt x y z).1
    t.full 1 ∧ t.rows = x.rows ∧ t.cols = y.cols ∧ ∀ i j, i < x.rows → j < y.cols →
      t.at_ 1 i j = [((List.range x.cols).foldl (fun acc k =>
        productStep fmt acc (x.val.getD (i * x.cols + k) 0) (y.val.getD (k * y.cols + j) 0))
        ((match z with
          | some w => w.val.getD (i * w.cols + j) 0
          | none => 0), 0)).1]) ∧
  (∀ (fmt : Nat) (x y : Tile) (z : Option Tile), 0x13 ≤ fmt → fmt ≤ 0x17 → x.vkind = 0 → y.vkind = 0 → x.vfmt = fmt → y.vfmt = fmt →
    x.full 2 → y.full 2 → x.cols = y.rows →
    (∀ w, z = some w → w.full 2 ∧ w.vkind ≠ 2 ∧ 0x13 ≤ w.vfmt ∧ w.rows = x.rows ∧ w.cols = y.cols) →
    let t := (tileProduct fmt x y z).1
    let part := fun (v : Tile) (i j c : Nat) => v.val.getD ((i * v.cols + j) * 2 + c) 0
    let start := fun (i j c : Nat) => match z with
      | some w => part w i j c
      | none => 0
    t.full 2 ∧ t.rows = x.rows ∧ t.cols = y.cols ∧ ∀ i j, i < x.rows → j < y.cols →
      t.at_ 2 i j =
        [((List.range x.cols).foldl (fun acc k => componentStep fmt true (componentStep fmt false acc (part x i k 0) (part y k j 0))
            (part x i k 1) (part y k j 1)) (start i j 0, 0)).1,
         ((List.range x.cols).foldl (fun acc k => componentStep fmt false (componentStep fmt false acc (part x i k 0) (part y k j 1))
            (part x i k 1) (part y k j 0)) (start i j 1, 0)).1]) ∧
  (∀ (fmt : Nat) (x y : Tile), fmt ∈ [5, 6, 7, 8, 9, 0x0C, 0x12] → x.vkind = 0 → y.vkind = 0 → x.vfmt = fmt → y.vfmt = fmt →
    x.full 1 → y.full 1 → x.cols = y.rows → x.cols % 32 = 0 →
    let t := (tilePartials fmt x y).1
    let kb := x.cols / 32
    t.full kb ∧ t.rows = x.rows ∧ t.cols = y.cols ∧ ∀ i j, i < x.rows → j < y.cols → t.at_ kb i j = (List.range kb).map (fun b =>
      ((List.range 32).foldl (fun acc k => partialStep fmt acc (x.val.getD (i * x.cols + (32 * b + k)) 0)
        (y.val.getD ((32 * b + k) * y.cols + j) 0)) (0, 0)).1)) ∧
  (∀ (fmt : Nat) (p sa sb : Tile) (z : Option Tile), fmt ∈ [5, 6, 7, 8, 9, 0x0C, 0x12] → p.vkind = 2 → p.vfmt = fmt → 32 ≤ p.kdim →
    p.full (p.kdim / 32) →
    let kb := p.kdim / 32
    let ka := kb + if fmt = 0x12 then 4 else 0
    sa.full 1 ∧ sa.vkind = 0 ∧ sa.vfmt = 0x0D ∧ sa.rows = p.rows ∧ sa.cols = ka →
    sb.full 1 ∧ sb.vkind = 0 ∧ sb.vfmt = 0x0D ∧ sb.rows = ka ∧ sb.cols = p.cols →
    (∀ w, z = some w → w.full 1 ∧ w.vkind = 0 ∧ w.vfmt = 1 ∧ w.rows = p.rows ∧ w.cols = p.cols) →
    let t := (tileScale fmt p sa sb z).1
    t.full 1 ∧ t.rows = p.rows ∧ t.cols = p.cols ∧ ∀ i j, i < p.rows → j < p.cols →
      let a := fun b => sa.val.getD (i * ka + b) 0
      let c := fun b => sb.val.getD (b * p.cols + j) 0
      t.at_ 1 i j = [((List.range kb).foldl (fun acc b =>
        (deliverExact fmtF32 0 (fmaExact 0 (partialValue fmt (p.val.getD ((i * p.cols + j) * kb + b) 0))
          (blockScale fmt (a b) (c b) (superOf (fun n => a (kb + n))) (superOf (fun n => c (kb + n)))) (fmtF32.decode acc))).1)
        (match z with
          | some w => w.val.getD (i * w.cols + j) 0
          | none => 0))]) ∧
  (∀ (fmt op : Nat) (x y : Tile), fmt = 0 ∨ fmt = 1 ∨ fmt = 0x0A → op = 6 ∨ op = 7 ∨ op = 9 → x.vkind = 0 → y.vkind = 0 →
    x.vfmt = fmt → y.vfmt = fmt → x.full 1 → y.full 1 → y.rows = x.rows → y.cols = x.cols →
    let t := (tileElementwise op fmt x y).1
    ∀ i j, i < x.rows → j < x.cols →
      let p := x.val.getD (i * x.cols + j) 0
      let q := y.val.getD (i * x.cols + j) 0
      t.at_ 1 i j = [match fmt, op with
        | 0x0A, 6 => (asSigned 32 p + asSigned 32 q) % 2 ^ 32 |>.toNat
        | 0x0A, 7 => (asSigned 32 p - asSigned 32 q) % 2 ^ 32 |>.toNat
        | 0x0A, _ => (asSigned 32 p * asSigned 32 q) % 2 ^ 32 |>.toNat
        | 0, 6 => (fAdd fmtF64 0 p q).1
        | 0, 7 => (fSub fmtF64 0 p q).1
        | 0, _ => (fMul fmtF64 0 p q).1
        | _, 6 => (fAdd fmtF32 0 p q).1
        | _, 7 => (fSub fmtF32 0 p q).1
        | _, _ => (fMul fmtF32 0 p q).1]) ∧
  (∀ x : Tile, 0 < x.per → x.full x.per → let t := tileTranspose x
    t.rows = x.cols ∧ t.cols = x.rows ∧ ∀ i j, i < x.rows → j < x.cols → t.at_ x.per j i = x.at_ x.per i j) ∧
  (∀ (fmt : Nat) (x : Tile), x.vkind ≠ 2 → (0x13 ≤ x.vfmt ↔ 0x13 ≤ fmt) → x.full x.per →
    let t := (tileConvert fmt x).1
    t.rows = x.rows ∧ t.cols = x.cols ∧ ∀ k, k < x.val.length → t.val[k]? =
      some (convComp false (valueKind x.vfmt x.vkind) (matrixKind fmt) 0 (.fin false 1 1) (x.val.getD k 0)).1) ∧
  (∀ (fmt rows cols : Nat) (e : List Nat), let t := tileConst fmt rows cols e
    t.rows = rows ∧ t.cols = cols ∧ ∀ i j, i < rows → j < cols → t.at_ e.length i j = e)

/-! ## Events -/

/-- QTAIL, EN and ERR (R107, R108, R110, R397): a tail that leaves packets makes an idle queue active; EN 1 starts a
disabled queue at its tail; EN 0 disables it, and what its reads waited for is forgotten; ERR clears, and an error queue goes on unless a held completion word
faults again: those that do stay held, in order.

A write to a register of BAR0 (R9, R107, R108, R116, R241, R389): QTAIL, QBASE while EN is 0, QCTL's fields that the
host sets, MBREQ, and an MSI-X vector's second doubleword, which reads back with the mask in force; a register that is read-only
and an offset that names none ignore it; the writes of MBDOOR and TLBINV are events of their own, by the model's choice (log 15).
CAP_ATOM reads its constant. A write to MSI-X's Message Control sets the function mask, and what it uncovers is sent.
The layout and masks of the MSI-X table are PCI Express's, presumed, and MBDOOR and TLBINV are events of their own
(log 15); the order of the effects of one write of QCTL is the model's choice (log 78). -/
def Obligations.RegisterEvents : Prop :=
  (∀ (s : State) (q v : Nat), q < 256 →
     let x := s.queue q
     (s.turn = .event .qtailWrite (.nat2 q v) → ∃ t, exec .qtailWrite s = .next t ∧
       OnlyQueue s t q { x with tail := v % x.size, st := if x.st = .idle ∧ v % x.size ≠ x.head then .active else x.st }) ∧
     (s.turn = .event .queueEnable (.nat q) →
       (x.st = .disabled → ∃ t, exec .queueEnable s = .next t ∧
         OnlyQueue s t q { x with qctl := x.qctl ||| 1, st := .idle, head := x.tail }) ∧
       (x.st ≠ .disabled → exec .queueEnable s = .next s)) ∧
     (s.turn = .event .queueDisable (.nat q) → ∃ t, exec .queueDisable s = .next t ∧
       OnlyQueue s.giveUpReads t q { x with qctl := x.qctl &&& ~~~1, st := .disabled }) ∧
     (s.turn = .event .errClear (.nat q) →
       (x.st = .disabled → ∃ t, exec .errClear s = .next t ∧ OnlyQueue s t q { x with qctl := x.qctl &&& ~~~2 }) ∧
       (x.st = .error → ∃ t, exec .errClear s = .next t ∧ (t.queue q).held.Sublist x.held ∧
         (t.queue q).err = !(t.queue q).held.isEmpty ∧ (t.queue q).head = x.head ∧ (t.queue q).tail = x.tail ∧
         (t.queue q).st = (if (t.queue q).held = [] then (if x.head = x.tail then .idle else .active) else .error) ∧
         (x.held = [] → OnlyQueue s t q (t.queue q))))) ∧
  (∀ s : State, s.readRegister 0x100 = 0x05030506 ∧ s.readRegister 0x8800 = s.dsp.msixPending) ∧
  (∀ (s : State) (w : Word), s.turn = .event .registerWrite (.word w) → ∃ t, exec .registerWrite s = .next t ∧
    t = { s with dsp := { s.dsp with
      msixFunction := w.getLsbD 14, msixPending := t.dsp.msixPending, messages := t.dsp.messages } } ∧
    (w.getLsbD 14 = true → t.dsp.messages = s.dsp.messages ∧ t.dsp.msixPending = s.dsp.msixPending) ∧
    (w.getLsbD 14 = false → t.dsp.msixPending = s.dsp.msixPending &&& s.dsp.msixMask ∧
      ∀ v, v < 64 → t.dsp.messages.count v = s.dsp.messages.count v +
        (if s.dsp.msixPending.getLsbD v && !s.dsp.msixMask.getLsbD v then 1 else 0))) ∧
  ∀ (s : State) (off : Nat) (w : Word), s.turn = .event .registerWrite (.natWord off w) →
    (∀ q, q < 256 →
      let x := s.queue q
      (off = 0x10010 + 64 * q → ∃ t, exec .registerWrite s = .next t ∧ OnlyQueue s t q { x with
        tail := w.toNat % x.size, st := if x.st = .idle ∧ w.toNat % x.size ≠ x.head then .active else x.st }) ∧
      (off = 0x10000 + 64 * q → ∃ t, exec .registerWrite s = .next t ∧ OnlyQueue s t q
        (if x.en then x else { x with qbase := w &&& 0x800FFFFFFFFFFFC0 })) ∧
      (off = 0x10008 + 64 * q → w.getLsbD 1 = false → (x.st = .disabled ↔ x.en = false) →
        ∃ t, exec .registerWrite s = .next t ∧ OnlyQueue (if w.getLsbD 0 then s else s.giveUpReads) t q (t.queue q) ∧
          (t.queue q).en = w.getLsbD 0 ∧ (t.queue q).ivec = (w.extractLsb' 20 6).toNat ∧ (t.queue q).err = x.err ∧
          (t.queue q).priv = x.priv ∧ (t.queue q).ctxcmd = x.ctxcmd ∧ (t.queue q).asid = x.asid ∧
          (t.queue q).log2size = (if x.en then x.log2size
            else if 4 ≤ (w.extractLsb' 16 4).toNat then (w.extractLsb' 16 4).toNat else 4) ∧
          (t.queue q).st = (if w.getLsbD 0 then (if x.en then x.st else .idle) else .disabled) ∧ (t.queue q).held = x.held)) ∧
    (off = 0x400 → exec .registerWrite s = .next { s with dsp := { s.dsp with mbreq := w } }) ∧
    (∀ v, v < 64 → off = 0x8008 + 16 * v → w.getLsbD 32 = true → ∃ t, exec .registerWrite s = .next t ∧
      t = { s with dsp := { s.dsp with msixTable := t.dsp.msixTable, msixMask := s.dsp.msixMask ||| (1#64 <<< v) } } ∧
      t.readRegister off = w &&& 0x1FFFFFFFF) ∧
    (∀ v, v < 64 → off = 0x8008 + 16 * v → w.getLsbD 32 = false → ∃ t, exec .registerWrite s = .next t ∧
      t.readRegister off = w &&& 0x1FFFFFFFF ∧ t.dsp.msixMask = s.dsp.msixMask &&& ~~~(1#64 <<< v)) ∧
    (∀ v, v < 64 → (s.readRegister (0x8008 + 16 * v)).getLsbD 32 = (s.dsp.msixMask.getLsbD v || (SMap.get 0 s.dsp.msixTable (2 * v + 1)).getLsbD 32)) ∧
    ((∀ q, q < 256 → off ≠ 0x10000 + 64 * q ∧ off ≠ 0x10008 + 64 * q ∧ off ≠ 0x10010 + 64 * q) → off ≠ 0x400 →
      off ≠ 0x408 → off ≠ 0x200 →
      (off < 0x8000 ∨ 0x8400 ≤ off ∨ off % 8 ≠ 0) → exec .registerWrite s = .next s)

/-- Vectors, TLBINV and the mailbox (R116, R318, R319, R334, R388, R389): an unmasked vector sends a pending message once,
unless the function is masked; a write to TLBINV removes the translations it names, and no others, with the L1 copies
and the code lines of the context under them, and DONE advances; a mailbox request is counted and vector 0 carries its completion, or it waits while the management image hands over, and
firmware's values keep the bounds that the hardware enforces. No byte of memory changes.

Stores of the host, the bridge's failures, indirection entries that firmware writes, and launch frames (R119, R240,
R316, R320, R321, R323): a host store writes its bytes and no other; a failure waits for the next host access; an entry
takes LOC, PIN and LOCATION and keeps MIG and ACC, and one of a chip outside the view is lost; a frame's well-formed
records join their class's queue in order, and every other record, or the frame as a whole, counts as a drop.
Which access a bridge failure strikes, that firmware's values are operands, and the loss of frames at a write are the
model's (logs 15, 37, 41, 42 and 51). -/
def Obligations.DeviceAndPortEvents : Prop :=
  (∀ (s : State) (v : Nat), v < 64 → s.turn = .event .vectorUnmask (.nat v) →
    exec .vectorUnmask s = .next { s with dsp := { s.dsp with
      msixMask := s.dsp.msixMask &&& ~~~(1#64 <<< v)
      msixPending := if s.dsp.msixFunction then s.dsp.msixPending else s.dsp.msixPending &&& ~~~(1#64 <<< v)
      messages := if s.dsp.msixPending.getLsbD v && !s.dsp.msixFunction then v :: s.dsp.messages else s.dsp.messages } }) ∧
  (∀ (s : State) (w : Word), s.turn = .event .tlbinv (.word w) →
    let a := (w.extractLsb' 0 9).toNat
    let size := [2 ^ 12, 2 ^ 16, 2 ^ 21, 2 ^ 30].getD (w.extractLsb' 10 2).toNat 0
    let lo := (w.extractLsb' 12 44).toNat * 2 ^ 12 / size * size
    let hit := fun (e : TlbEntry) => decide (e.asid = a) &&
      (w.getLsbD 9 || (decide (e.page < lo + size) && decide (lo < e.page + e.size)))
    -- virtual addresses whose lines go: those the write names, and those under a translation that it removes
    let under := fun (v : Nat) => w.getLsbD 9 = true ∨ (lo ≤ v ∧ v < lo + size) ∨
      ∃ p ∈ s.tlb, ∃ e ∈ p.2, hit e = true ∧ e.page ≤ v ∧ v < e.page + e.size
    ∃ t, exec .tlbinv s = .next t ∧
      t = { s with tlb := t.tlb, lines := t.lines, cores := t.cores, fab := { s.fab with fwd := t.fab.fwd }
                   dsp := { s.dsp with tlbinvDone := s.dsp.tlbinvDone + 1 } } ∧
      (∀ quad, t.tlbOf quad = (s.tlbOf quad).filter (fun e => !hit e)) ∧
      (∀ k, (t.line k).poison = (s.line k).poison ∧ (t.line k).wts = (s.line k).wts ∧ (t.line k).rts = (s.line k).rts ∧
        ∀ c, c ∈ (t.line k).copies ↔ c ∈ (s.line k).copies ∧ ¬ (c.asid = a ∧ under (c.va * 64))) ∧
      ∀ c k, k ∈ (t.coreAt c).icache.map (·.1) ↔ k ∈ (s.coreAt c).icache.map (·.1) ∧
        ¬ ∃ x ∈ (s.coreAt c).ivia, x.1 = k ∧ x.2.1 = a ∧ under (x.2.2 * 64)) ∧
  (∀ (s : State) (l : List FwSet), s.turn = .event .mbdoor (.firmware l) → s.fw.handing = some 1 →
    exec .mbdoor s = .next { s with fw := { s.fw with waiting := s.fw.waiting ++ [l] } }) ∧
  (∀ (s : State) (l : List FwSet), s.turn = .event .mbdoor (.firmware l) → s.fw.handing ≠ some 1 →
    ∃ t, exec .mbdoor s = .next t ∧ t.mem = s.mem ∧ t.teams = s.teams ∧ t.dsp.mbstat = s.dsp.mbstat + 1 ∧
      t.dsp.messages = (if s.dsp.masked 0 then s.dsp.messages else 0 :: s.dsp.messages) ∧
      t.dsp.msixPending = (if s.dsp.masked 0 then s.dsp.msixPending ||| 1 else s.dsp.msixPending) ∧
      (floorSum s.dsp.policy ≤ 5120 → floorSum t.dsp.policy ≤ 5120) ∧
      (16 ≤ s.dsp.lease ∧ s.dsp.lease ≤ 4096 → 16 ≤ t.dsp.lease ∧ t.dsp.lease ≤ 4096) ∧
      (∀ k, (SMap.get 0 s.fw.minima k).toNat ≤ (SMap.get 0 t.fw.minima k).toNat) ∧
      (∀ n, l = [.lease n] → 16 ≤ n → n ≤ 4096 → t.dsp.lease = n)) ∧
  (∀ (s : State) (pa : Nat) (bs : List Byte), s.turn = .event .hostAccess (.natBytes pa bs) → isHostPa pa = true →
    bs ≠ [] → pa % 4096 + bs.length ≤ 4096 → s.mustWait 0 true [(.pa pa, bs.length)] = false → s.lent (pa % 2 ^ 51) = false →
    (∀ p ∈ linePieces [(Loc.pa pa, bs.length)], s.standsBehind 0 true p.1 = false) →
    ∃ t, exec .hostAccess s = .next t ∧ t = { s with mem := t.mem } ∧
      (∀ j b, bs[j]? = some b → t.byte (hostKey (pa % 2 ^ 51) + j) = b) ∧ OnlyBytes s t (hostKey (pa % 2 ^ 51)) bs.length) ∧
  (∀ (s : State) (pa k : Nat) (bs : List Byte), s.turn = .event .hostAccess (.natBytes pa bs) → isFramePa pa = true →
    PlainPlace s (.pa pa) bs.length k → s.mustWait 0 true [(.pa pa, bs.length)] = false →
    (∀ p ∈ linePieces [(Loc.pa pa, bs.length)], s.standsBehind 0 true p.1 = false) →
    ∃ t, exec .hostAccess s = .next t ∧ (∀ j b, bs[j]? = some b → t.byte (k + j) = b) ∧ OnlyBytes s t k bs.length ∧
      t.teams = s.teams) ∧
  (∀ (s : State) (e : BridgeError), s.turn = .event .hostBridgeError (.bridge e) →
    exec .hostBridgeError s = .next { s with dsp := { s.dsp with hostFail := some e } }) ∧
  (∀ (s : State) (f : Nat) (w : Word), f < 2 ^ 30 → s.turn = .event .indirectionEntryWrite (.natWord f w) →
    (∀ x ∈ s.fab.fwd, x.reply.isSome = true ∨ x.chip ∈ s.fab.members) →
    let away := fun (e : Word) => decide (entryLoc e = 5) && !s.fab.members.contains (entryLocation e / 2 ^ 30)
    ∃ t, exec .indirectionEntryWrite s = .next t ∧ t = { s with frames := t.frames } ∧
      entryLoc (t.frame f) = (if away w then 7 else entryLoc w) ∧ entryLocation (t.frame f) = entryLocation w ∧
      entryPin (t.frame f) = entryPin w ∧ entryMig (t.frame f) = entryMig (s.frame f) ∧
      entryAcc (t.frame f) = entryAcc (s.frame f) ∧
      ∀ g, g ≠ f → if away (s.frame g) then entryLoc (t.frame g) = 7 else t.frame g = s.frame g) ∧
  (∀ (s : State) (port : Nat) (f : EthFrame), port < 2 → s.turn = .event .ethernetFrame (.frame port f) →
    let h := leNat (f.payload.take 8)
    let c := h / 2 ^ 8 % 32
    let recs := (List.range (h / 2 ^ 16 % 256)).map (fun i => (f.payload.drop (8 + 64 * i)).take 64)
    let good := fun (bs : List Byte) =>
      let p : Packet := dwords 8 bs
      decide (p.kind = 1) && !s.noContext p.asid && !p.malformed (s.portRights port c) && (s.packetLaunch p).isSome
    ∃ t, exec .ethernetFrame s = .next t ∧ t = { s with dsp := { s.dsp with ports := t.dsp.ports, drops := t.dsp.drops } } ∧
      (∀ n, n ≠ port → SMap.get 0 t.dsp.drops n = SMap.get 0 s.dsp.drops n) ∧
      (∀ n, n ≠ c → t.port n = s.port n) ∧
      (if s.frameOk port f then
        t.port c = { s.port c with recs := (s.port c).recs ++ (recs.filter good).map (fun bs => (port, bs)) } ∧
        SMap.get 0 t.dsp.drops port = SMap.get 0 s.dsp.drops port + (recs.filter (fun bs => !good bs)).length
      else t.port c = s.port c ∧ SMap.get 0 t.dsp.drops port = SMap.get 0 s.dsp.drops port + 1))

/-- What stops a packet before it acts (R110, R113 to R115, R119, R203): a packet of a context that is free or wiped brings
its queue into the error state and a port drops it; a malformed one is answered with status 0x0A where it may be, and a
port drops it; one whose dependence is not met blocks its queue, and one whose dependence failed is answered with 0x09;
while a read must wait the packet stays where it is; a reread of a met dependence acts on the packet.

Completion words and the end of a packet (R110, R115, R116, R119, R203, R397): a word that nothing holds or stops
stores SEQ above STATUS and no other byte, and its interrupt follows; one that must wait is written later, after those
before it; a fault holds the word in a host queue, which enters the error state, and counts a drop at a port; the queue
then stands at its next packet.
The interrupt of a malformed packet, that a packet of an undefined kind is LAUNCH's event, what a device's access
waits for, and the bounds of two addresses are the model's (logs 23, 45, 46, 49, 64, 81 and 82). -/
def Obligations.PacketsStopAndComplete : Prop :=
  (∀ (i : Instr) (s : State) (q : Nat), (∃ k, i = packetEventOf k) ∨ i = .dependenceReread → s.turn = .event i (.nat q) →
    s.queueActive q (decide (i = .dependenceReread)) = true → q < 256 → ∀ p u, s.dispLoad none (s.queue q).slot 64 = (.wait p, u) →
    ∃ t, exec i s = .next t ∧ StaysQueued s t) ∧
  ∀ (i : Instr) (s s1 : State) (q : Nat) (r : QueueRights) (p : Packet) (blocked : Bool),
    (blocked = false ∧ i = packetEventOf p.kind) ∨ (blocked = true ∧ i = .dependenceReread) →
    HeadTaken s i q blocked r p s1 →
    let dropped := fun (t : State) => OnlyDispatcher s1 t ∧ t.mem = s1.mem ∧
      (t.port (queueClass q)).recs = (s1.port (queueClass q)).recs.drop 1 ∧
      SMap.get 0 t.dsp.drops (queuePort r.number) = SMap.get 0 s1.dsp.drops (queuePort r.number) + 1
    (virtualKind p.kind = true → s1.noContext p.asid = true → ∃ t, exec i s = .next t ∧
      (q < 256 → OnlyQueue s1 t q (s1.queue q).fail) ∧ (256 ≤ q → dropped t)) ∧
    ((virtualKind p.kind = true → s1.noContext p.asid = false) →
      (p.malformed r = true →
        (256 ≤ q → ∃ t, exec i s = .next t ∧ dropped t) ∧
        (q < 256 → p.cwaddr = 0 ∨ addrOk (p.virtual r) p.cwaddr = false ∨ p.wrongAsid r = true →
          exec i s = .next (s1.popPacket q)) ∧
        (q < 256 → p.cwaddr ≠ 0 → addrOk (p.virtual r) p.cwaddr = true → virtualKind p.kind = true → p.wrongAsid r = false →
          exec i s = .next ((s1.complete (p.compWord r) 0x0A).popPacket q))) ∧
      (p.malformed r = false → ∀ d s2, s1.dependence p = (d, s2) →
        (d = .unmet → ∃ t, exec i s = .next t ∧ OnlyDispatcher s2 t ∧
          (q < 256 → OnlyQueue s2 t q { s2.queue q with st := .blocked }) ∧
          (256 ≤ q → t.port (queueClass q) = { s2.port (queueClass q) with blocked := true })) ∧
        (d = .failed → exec i s = .next ((s2.complete (p.compWord r) 0x09).popPacket q)) ∧
        (d = .wait → ∃ t, exec i s = .next t ∧ StaysQueued s1 t) ∧
        (d = .met → blocked = true → ∀ o, State.actPacket q r p s2 = o →
          (∀ u, o = .done u → exec i s = .next (u.popPacket q)) ∧
          (∀ u, o = .reject u → exec i s = .next (u.rejectHead q r p)) ∧
          (∀ u, o = .wait u → ∃ t, exec i s = .next t ∧ t.dsp.queues = u.dsp.queues ∧ t.mem = u.mem)))) ∧
  (∀ (s : State) (c : CompWord) (low : Nat), c.addr ≠ 0 → low < 2 ^ 32 →
    let first := ∀ x ∈ s.dsp.late, x.kind = .trace
    (∀ k, first → c.asid = none → PlainPlace s (.pa c.addr) 8 k → s.inCode c.addr = false → s.inFlight c.addr = false →
      s.mustWait 0 true [(.pa c.addr, 8)] = false →
      let t := s.complete c low
      numberAt t k 8 = low + c.seq.toNat * 2 ^ 32 ∧ OnlyBytes s t k 8 ∧ t.teams = s.teams ∧
        t.dsp.messages = (if c.intr ∧ s.queueVector c.queue ≠ 0 ∧ s.dsp.masked (s.queueVector c.queue) = false then
          s.queueVector c.queue :: s.dsp.messages else s.dsp.messages)) ∧
    (∀ u, first → s.storeWord c (c.word low) = (.fail, u) →
      let t := s.complete c low
      t.mem = u.mem ∧
        (c.queue < 256 → OnlyQueue u t c.queue { (u.queue c.queue).fail with held := (u.queue c.queue).held ++ [⟨c, c.word low, 0⟩] }) ∧
        (256 ≤ c.queue → OnlyDispatcher u t ∧ SMap.get 0 t.dsp.drops (queuePort c.queue) =
          SMap.get 0 u.dsp.drops (queuePort c.queue) + 1)) ∧
    (∀ u p, first → s.storeWord c (c.word low) = (.wait p, u) → (s.complete c low).mem = u.mem ∧
      (s.complete c low).dsp.late = u.dsp.late ++ [⟨c.asid, c.addr, leBytes 8 (c.word low).toNat, false, .word ⟨c, c.word low, 0⟩ false⟩]) ∧
    (¬ first → (s.complete c low).mem = s.mem ∧
      (s.complete c low).dsp.late = s.dsp.late ++ [⟨c.asid, c.addr, leBytes 8 (c.word low).toNat, false, .word ⟨c, c.word low, 0⟩ false⟩])) ∧
  (∀ (s : State) (x : LateWrite) (rest : List LateWrite), s.dsp.late = x :: rest →
    (∀ p u, s.dispStore x.asid x.va x.bytes x.full = (.wait p, u) → s.tryLate = u) ∧
    (∀ u, s.dispStore x.asid x.va x.bytes x.full = (.ok (), u) → s.tryLate.mem = u.mem ∧ s.tryLate.dsp.late = rest)) ∧
  (∀ (s : State) (q : Nat),
    let t := s.popPacket q
    OnlyDispatcher s t ∧
    (q < 256 → OnlyQueue s t q { s.queue q with
      head := ((s.queue q).head + 1) % (s.queue q).size
      st := if (s.queue q).st = .error then .error
        else if ((s.queue q).head + 1) % (s.queue q).size = (s.queue q).tail then .idle else .active }) ∧
    (256 ≤ q → t.port (queueClass q) =
      { s.port (queueClass q) with recs := (s.port (queueClass q)).recs.drop 1, blocked := false }))

/-- The packets that are acted on (R97 to R104, R112, R119, R120, R123): LAUNCH's grid joins the order of acceptance; CREATE
makes a free context loading where its record passes the checks, and answers with the first that fails; UPDATE takes a
record's new values and its breakpoints; MOVE brings a context into migrating; RESUME ends a faulted context's grids
with status 0x08 and makes it ready; DESTROY wipes the context; CAPSTART opens a capture and CAPSTOP waits for its end;
and each answers 0x07 or 0x0C where the context's state does not allow it.

Contexts and captures go on (R97 to R99, R104, R115, R120, R122, R131, R344, R397): a loading context is ready with its
breakpoint entries; a capture ends when every team of its grids has retired and none of its records waits to be written, with its
drop count above STATUS 0; a wiped
context's identifier is free once every word due here is written and its translations, L1 copies, held words and grids
are gone; a grid that leaves with its context hands its deferred set and snapshot over.
The order and the moment of completion words, what a device's access waits for, and the fields of a record that cannot
be read are the model's reading (logs 23, 25, 43, 44, 53 and 55). -/
def Obligations.PacketsActOnContexts : Prop :=
  (∀ (i : Instr) (s s2 : State) (q : Nat) (r : QueueRights) (p : Packet), i = packetEventOf p.kind →
     Accepted s i q false r p s2 →
     let c := s2.ctx p.asid
     let cw := p.compWord r
     let answer := fun (u : State) (st : Nat) => exec i s = .next ((u.complete cw st).popPacket q)
     (p.kind = 1 → (∀ b, (s2.walk p.asid (p.w 1)).1 ≠ .wait b) →
       (∀ l, s2.packetLaunch p = some l → ∃ t, exec i s = .next t ∧ t.mem = s2.mem ∧ t.teams = s2.teams ∧
         t.grid s2.dsp.nextGrid = ({
           live := true, asid := p.asid, launch := l, cw := cw, moved := decide (c.st = .migrating)
           captured := decide (c.cap ≠ .off ∧ c.capQueue = q ∧ c.capStop = none) } : Grid) ∧
         (∀ k, k ≠ s2.dsp.nextGrid → t.grid k = s2.grid k) ∧ t.dsp.nextGrid = s2.dsp.nextGrid + 1 ∧
         t.dsp.order = s2.dsp.order ++ [s2.dsp.nextGrid] ∧ (q < 256 → t.queue q = (s2.queue q).next)) ∧
       (s2.packetLaunch p = none →
         let u := s2.walkEntry p.asid (p.w 1)
         (q < 256 → p.cwaddr = 0 → exec i s = .next (u.popPacket q)) ∧ (q < 256 → p.cwaddr ≠ 0 → answer u 0x0A) ∧
         (256 ≤ q → ∃ t, exec i s = .next t ∧ OnlyDispatcher u t ∧ t.mem = s2.mem ∧
           SMap.get 0 t.dsp.drops (queuePort r.number) = SMap.get 0 s2.dsp.drops (queuePort r.number) + 1))) ∧
     (p.kind = 2 → ∀ x s3, s2.readRecord (p.w 1) = (some x, s3) →
       let code := if !x.formOk then 1 else if (s3.ctx x.asid).st ≠ .free then 2 else if !x.valuesOk then 3
         else if !x.addressesOk then 4 else if !x.countsOk then 5 else if x.fields.priv && !r.priv then 6 else 0
       answer (if code = 0 then s3.setCtx x.asid { st := .loading, rcd := x.fields } else s3) code) ∧
     ((p.kind = 2 ∨ p.kind = 3 ∧ s2.noContext p.asid = false) → ∀ u, s2.readRecord (p.w 1) = (none, u) →
       ∃ t, exec i s = .next t ∧ StaysQueued u t ∧ t.ctxs = u.ctxs) ∧
     (p.kind = 3 → s2.noContext p.asid = true → answer s2 7) ∧
     (p.kind = 3 → s2.noContext p.asid = false → ∀ x s3, s2.readRecord (p.w 1) = (some x, s3) →
       let c := s3.ctx p.asid
       let same := x.asid = p.asid ∧ x.fields.ptroot = c.rcd.ptroot ∧ x.fields.det = c.rcd.det ∧ x.fields.priv = c.rcd.priv
       (¬ same → answer s3 2) ∧ (same → x.formOk = false → answer s3 1) ∧
       (same → x.formOk = true → x.valuesOk = false → answer s3 3) ∧
       (same → x.formOk = true → x.valuesOk = true → x.addressesOk = false → answer s3 4) ∧
       (same → x.formOk = true → x.valuesOk = true → x.addressesOk = true → x.countsOk = false → answer s3 5) ∧
       (same → x.formOk = true → x.valuesOk = true → x.addressesOk = true → x.countsOk = true →
         (c.st = .loading → answer (s3.setCtx p.asid { c with rcd := x.fields, bps := [] }) 0) ∧
         (c.st ≠ .loading → ∀ bps s4, s3.readBreaks p.asid x.fields = (some bps, s4) →
           answer (s4.setCtx p.asid { s4.ctx p.asid with rcd := x.fields, bps := bps }) 0))) ∧
     (p.kind = 4 → (c.st = .ready ∨ c.st = .running ∨ c.st = .swapped) →
       (s2.hasStarted p.asid = true → answer (s2.setCtx p.asid { c with st := .migrating, moveTo := some (p.w 1 % 4096) }) 0) ∧
       (s2.hasStarted p.asid = false → ∃ t, exec i s = .next t ∧
         t.ctx p.asid = { c with st := .wiped, moveTo := some (p.w 1 % 4096) } ∧ t.teams = s2.teams)) ∧
     (p.kind = 4 → ¬ (c.st = .ready ∨ c.st = .running ∨ c.st = .swapped) → answer s2 7) ∧
     (p.kind = 5 → c.st ≠ .faulted → answer s2 7) ∧
     (p.kind = 5 → c.st = .faulted → ∃ u, answer u 0 ∧ u.ctx p.asid = { c with st := .ready, moveTo := none, faultNow := none } ∧
       (∀ a, a ≠ p.asid → u.ctx a = s2.ctx a) ∧
       ∀ k ∈ s2.gridsOf p.asid, (s2.grid k).regen = none → (u.grid k).endWith = some 8 ∧ (u.grid k).placed = []) ∧
     (p.kind = 6 → s2.noContext p.asid = true → answer s2 7) ∧
     (p.kind = 6 → s2.noContext p.asid = false → ∃ t, exec i s = .next t ∧ (t.ctx p.asid).st = .wiped ∧
       (∀ a, a ≠ p.asid → t.ctx a = s2.ctx a) ∧ (∀ k ∈ s2.gridsOf p.asid, t.grid k = {} ∧ k ∉ t.dsp.order) ∧
       ∀ x ∈ t.commands, x.fw = true ∨ s2.asidOf x.team ≠ p.asid) ∧
     (p.kind = 7 → c.cap = .off → answer (s2.setCtx p.asid { c with cap := .opened, capQueue := q, capWrites := 0, capDrops := 0 }) 0) ∧
     (p.kind = 7 → c.cap ≠ .off → answer s2 0x0C) ∧
     (p.kind = 8 → c.cap ≠ .off → c.capQueue = q → c.capStop = none →
       exec i s = .next ((s2.setCtx p.asid { c with capStop := some cw }).popPacket q)) ∧
     (p.kind = 8 → (c.cap = .off ∨ c.capQueue ≠ q ∨ c.capStop ≠ none) → answer s2 0x0C)) ∧
  (∀ (s u : State) (a : Nat) (bs : List BpEntry), s.turn = .event .contextLoaded (.nat a) → (s.ctx a).st = .loading →
    s.readBreaks a (s.ctx a).rcd = (some bs, u) →
    ∃ t, exec .contextLoaded s = .next t ∧ t = { u with ctxs := t.ctxs } ∧ t.ctx a = { u.ctx a with st := .ready, bps := bs } ∧
      ∀ b, b ≠ a → t.ctx b = u.ctx b) ∧
  (∀ (s : State) (a : Nat) (cw : CompWord), s.turn = .event .capstopComplete (.nat a) → (s.ctx a).capStop = some cw →
    let c := s.ctx a
    let ended := ∀ e ∈ s.grids, e.2.captured = true → e.2.live = true → e.2.asid = a → e.2.endWith = none → e.2.size ≤ e.2.retired
    let finished := fun (u : State) => exec .capstopComplete s =
      .next ((u.setCtx a { u.ctx a with cap := .off, capStop := none }).complete cw (Nat.min c.capDrops 0xFFFFFF * 256))
    let header := s.dispStore (some a) c.rcd.trbase (leBytes 8 c.capWrites ++ leBytes 8 c.capDrops) false
    let late := ∃ x ∈ s.dsp.late, x.kind = .trace ∧ x.asid = some a
    (¬ ended ∨ late → exec .capstopComplete s = .next s) ∧
    (ended → ¬ late → c.rcd.trpages = 0 → finished s) ∧
    (ended → ¬ late → c.rcd.trpages ≠ 0 → (∀ p, header.1 ≠ .wait p) → finished header.2) ∧
    (ended → ¬ late → c.rcd.trpages ≠ 0 → (∃ p, header.1 = .wait p) → exec .capstopComplete s = .next header.2)) ∧
  (∀ (s : State) (a : Nat), s.turn = .event .erasureComplete (.nat a) → (s.ctx a).st = .wiped → (s.ctx a).capStop = none →
    ((∃ k ∈ s.gridsOf a, (s.grid k).wordDue = true) → exec .erasureComplete s = .next s) ∧
    ((∀ k ∈ s.gridsOf a, (s.grid k).wordDue = false) →
      (∀ c ∈ s.commands ++ s.dsp.pg, c.fw = true ∨ s.asidOf c.team ≠ a) → (∀ x ∈ s.dsp.late, x.asid ≠ some a) →
    ∃ t, exec .erasureComplete s = .next t ∧ t.ctx a = {} ∧ (∀ b, b ≠ a → t.ctx b = s.ctx b) ∧
      (∀ quad, t.tlbOf quad = (s.tlbOf quad).filter (fun e => decide (e.asid ≠ a))) ∧
      (∀ k, ∀ c ∈ (t.line k).copies, c.asid ≠ a) ∧
      (∀ q, (t.queue q).held = (s.queue q).held.filter (fun h => decide (h.cw.asid ≠ some a))) ∧
      (∀ k ∈ s.gridsOf a, t.grid k = {} ∧ k ∉ t.dsp.order ∧
        ((s.grid k).started = true → ⟨a, (s.grid k).launch.seq, (s.grid k).deferred, (s.grid k).qr⟩ ∈ t.dsp.carried)) ∧
      ∀ k, k < 2 ^ 63 → t.byte k = s.byte k))

/-- Placing, loading, quanta and swap-out (R105, R118, R135 to R137, R142 to R144, R165): the cluster that R118 chooses
for a rectangle gets its cores, issue slots and banks, and its context runs; loading gives a new team its registers,
counters, argument and data image, and a swapped one its own image back, exiting where all its streams have exited; a quantum that is over swaps the cluster out
where one waits for its places, and starts again where none does; a swapped team that nothing touches and that evaluates
nothing gives up its places.

Exits and ends (R104, R115, R125, R136, R155, R156, R245, R270, R377): a team whose exit actions wait for nothing
retires, and one with an issued TST keeps only the nodes that it needs, its forces served with the exit's; a grid whose
teams have all retired, or that RESUME or its snapshot ended, writes its completion word and is forgotten, and its
context is ready when it was the last; accesses that it has forwarded to other chips keep it from its end; one whose teams go on at the target of a MOVE leaves without a word.
The rectangle and the slots of a placement, the order of clusters, the state of a context that has no resident team,
and what a MOVE carries are the model's choice (logs 10, 24, 47, 50, 62, 77, 79 and 80). -/
def Obligations.TeamsAndGridsLiveAndEnd : Prop :=
  (∀ (s : State) (die col row : Nat) (x : Cand) (passed : List Cand), s.turn = .event .teamPlacement (.nat3 die col row) →
    die < 4 → col < 16 → row < 10 →
    let first := die * 160 + row * 16 + col
    let g := s.grid x.grid
    s.choose first s.candidates [] = some (x, passed) → g.started = true → g.endWith = none → (s.teams.map (·.1)).Nodup →
    (∀ r, r < g.clusterSize x.cluster → (s.team (teamKey x.grid (x.cluster * g.q + r))).slots = []) →
    ∃ t, exec .teamPlacement s = .next t ∧ t.dsp.lastServed = x.cls ∧ (t.grid x.grid).placed = (x.cluster, first) :: g.placed ∧
      ((s.ctx g.asid).st = .ready ∨ (s.ctx g.asid).st = .swapped → (t.ctx g.asid).st = .running) ∧
      ∀ r, r < g.clusterSize x.cluster →
        let tk := teamKey x.grid (x.cluster * g.q + r)
        if (s.team tk).st = .retired then t.team tk = s.team tk
        else (t.team tk).st = .dispatched ∧ (t.team tk).core = first + r / g.launch.cx * 16 + r % g.launch.cx ∧
          (t.team tk).reload = decide ((s.team tk).st = .swapped) ∧
          (t.team tk).slots.length = g.launch.lanes / g.launch.width ∧ (t.team tk).lanes = (s.team tk).lanes ∧
          (t.team tk).seq = (s.team tk).seq) ∧
  (∀ (s : State) (k c : Nat), s.turn = .event .loadingComplete (.nat2 k c) →
    let g := s.grid k
    let l := g.launch
    g.live = true → g.placed.any (fun p => decide (p.1 = c)) = true → g.size ≤ 2 ^ 48 →
    l.image.length ≤ 2 ^ 19 →
    ∃ t, exec .loadingComplete s = .next t ∧ (∀ a, a < 2 ^ 63 → t.byte a = s.byte a) ∧ ∀ r, r < g.clusterSize c →
      let tk := teamKey k (c * g.q + r)
      ((s.team tk).st ≠ .dispatched → t.team tk = s.team tk) ∧
      ((s.team tk).st = .dispatched → (s.team tk).reload = true →
        t.team tk = { s.team tk with
          st := if (s.team tk).seq.exited = true ∧ ∀ n, n < l.lanes → ((s.team tk).lane n).exited = true then .exiting else .running
          reload := false, qstart := s.fab.tick }) ∧
      ((s.team tk).st = .dispatched → (s.team tk).reload = false →
        (t.team tk).st = .running ∧ (t.team tk).seq.pc = l.seqPc ∧ (∀ n, n < 32 → (t.team tk).seq.reg n = if n = 1 then l.arg else 0) ∧
        (∀ n, (t.team tk).lane n = if n < l.lanes then { pc := l.lanePc } else {}) ∧
        ∀ j b, l.image[j]? = some b → t.byte (spadKey tk 0 0 + j) = b)) ∧
  (∀ (s : State) (k c first q0 : Nat), s.turn = .event .quantumExpiry (.nat2 k c) →
    let g := s.grid k
    let runs := fun tk => tk ∈ g.clusterTeams k c ∧ (s.team tk).st = .running
    g.placed.find? (fun p => decide (p.1 = c)) = some (c, first) → (∃ tk, runs tk) →
    (∀ tk, runs tk → (s.team tk).qstart = q0) →
    (2 * (s.fab.tick - q0) < s.quantumOf k → exec .quantumExpiry s = .next s) ∧
    (s.quantumOf k ≤ 2 * (s.fab.tick - q0) →
      (s.waitingFor k c first = none → ∃ t, exec .quantumExpiry s = .next t ∧ t = { s with teams := t.teams } ∧
        (∀ tk, runs tk → t.team tk = { s.team tk with qstart := s.fab.tick }) ∧ ∀ tk, ¬ runs tk → t.team tk = s.team tk) ∧
      (∀ x, s.waitingFor k c first = some x → ∃ t, exec .quantumExpiry s = .next t ∧
        t = { s with teams := t.teams, grids := t.grids } ∧ (t.grid k).behind = (c, x.grid, x.cluster) :: g.behind ∧
        (∀ tk, runs tk → t.team tk = { s.team tk with st := .swapped }) ∧ ∀ tk, ¬ runs tk → t.team tk = s.team tk))) ∧
  (∀ (s : State) (tk : Nat), s.turn = .event .swapOut (.nat tk) → (s.team tk).st = .swapped → (s.team tk).slots ≠ [] →
    ((s.evaluates tk = true ∨ s.spadBusy tk = true) → exec .swapOut s = .next s) ∧
    (s.evaluates tk = false → s.spadBusy tk = false → (s.team tk).seq.sbuf = [] → (s.team tk).stopRec = none → (s.gridOf tk).captured = false →
      ∃ t, exec .swapOut s = .next t ∧ t.dsp.nextSwap = s.dsp.nextSwap + 1 ∧
        t.team tk = { s.team tk with
          slots := [], sram := [], swapNo := s.dsp.nextSwap
          seq := if (s.team tk).seq.wait = some .acq then { (s.team tk).seq with wait := none } else (s.team tk).seq } ∧
        (∀ x ∈ (t.coreAt (s.team tk).core).acq, x.1 ≠ tk) ∧
        ∀ j, (s.team j).st ≠ .retired → j ≠ tk → t.team j = s.team j)) ∧
  (∀ (s : State) (tk : Nat), s.turn = .event .exitActions (.nat tk) → (s.team tk).st = .exiting →
    (s.gridOf tk).interval.st ≠ .rolling →
    ((s.team tk).atExit.mf.forces ≠ [] → ∃ t, exec .exitActions s = .next t ∧ t = { s with teams := t.teams } ∧
      t.team tk = { s.team tk with mf := (t.team tk).mf } ∧ (t.team tk).mf.tregs = [] ∧
      (∀ f ∈ (t.team tk).mf.forces, f.suspended = false ∧ (f.kind = .exit ∨ ∃ a b c, f.kind = .tst a b c)) ∧
      ∀ k, k ≠ tk → t.team k = s.team k) ∧
    ((s.team tk).atExit.mf.forces = [] → (s.team tk).red = [] → (s.team tk).seq.sbuf = [] → s.spadBusy tk = false →
      (s.gridOf tk).captured = false → (∀ x ∈ s.releases, x.kind ≠ .exit tk) →
        ∃ t, exec .exitActions s = .next t ∧ (t.team tk).st = .retired ∧
        (t.gridOf tk).retired = (s.gridOf tk).retired + 1 ∧ (t.team tk).acc = [] ∧ (t.team tk).mf = {} ∧
        (∀ a, a < 2 ^ 63 → t.byte a = s.byte a) ∧ ∀ j, (s.team j).st ≠ .retired → j ≠ tk → t.team j = s.team j)) ∧
  (∀ (s : State) (k here : Nat), s.turn = .event .gridEnd (.nat2 k here) →
    let g := s.grid k
    g.active = true → g.regen = none → s.gridBusy k = false → g.interval.st ≠ .rolling →
    ∀ status, g.endWith = some status ∨ (g.endWith = none ∧ status = 0 ∧ g.retired = g.size ∧ g.source = 0 ∧ g.moved = false ∧
        g.deferred = [] ∧ ∀ tk, keyGrid tk = k → (s.team tk).red = []) →
      ∃ t, exec .gridEnd s = .next t ∧ t.grid k = {} ∧ k ∉ t.dsp.order ∧ (∀ tk, keyGrid tk = k → t.team tk = {}) ∧
        (g.endWith = some status ∨ g.cw.addr = 0 → ∀ a, a < 2 ^ 63 → t.byte a = (s.complete g.cw status).byte a) ∧
        ((s.ctx g.asid).st = .running → (t.ctx g.asid).st = if t.hasGrid g.asid then .running else .ready) ∧
        ∀ a, a ≠ g.asid → t.ctx a = s.ctx a) ∧
  (∀ (s : State) (k here : Nat), s.turn = .event .gridEnd (.nat2 k here) →
    let g := s.grid k
    (g.active = false ∨ s.gridBusy k = true ∨ g.interval.st = .rolling → exec .gridEnd s = .next s) ∧
    ((∃ x ∈ s.fab.fwd, x.grid = k) → s.gridBusy k = true) ∧
    (g.endWith = none → s.allRetired k = false → exec .gridEnd s = .next s) ∧
    (g.active = true → s.gridBusy k = false → g.interval.st ≠ .rolling → g.endWith = none → s.allRetired k = true →
      (g.moved = true ∨ (g.retired ≠ g.size ∧ (here = 0 ∨ g.rcd.det = true))) → ∃ t, exec .gridEnd s = .next t ∧ t.grid k = {} ∧ k ∉ t.dsp.order ∧
        (∀ a, a < 2 ^ 63 → t.byte a = s.byte a) ∧ t.ctxs = s.ctxs ∧
        (g.started = true → t.dsp.carried = s.dsp.carried ++ [⟨g.asid, g.launch.seq, g.deferred, g.qr⟩])))

/-- Breakpoint stops (R130 to R134): the stream that an entry matches executes nothing; its team is stopped and its
cluster's running teams swap out; the record names the first stream that matches in the clock; a scan writes the record
of a swapped-out stopped team into the lowest free slot, and the slot that a team holds whose word is zero, whoever
stored it, makes its team dispatchable, each stream passing its first match.

Waits that end (R160, R202, R207, R232, R246, R305): the head piece of a parked access performs where it need not wait,
and keeps its place where it must; the lanes of the last go on past the instruction; a waiting switch of banks takes
place, every byte of a switched bank zero; a release with nothing left to apply ends the waits for its phase.

An access that meets an engine's claim, or writes what a capture or an unread source holds, or whose frame is away,
waits (R160, R207, R235, R268, R325, R327): it performs nothing, it is kept in order with those behind it, and the lanes
of its run are no candidates, at unchanged counters.
That the run waits as a whole and that a stop swaps out the cluster is the model's reading (logs 29 and 54), as is
that a bank switched there and back is zeroed (log 63); how many pieces perform in one step is its choice (log 4). -/
def Obligations.StopsAndWaits : Prop :=
  (∀ (s : State) (tk st ix : Nat), (∃ c p i r, s.turn = .slot c p i ∧ s.headRun c p i = some r ∧ r.team = tk ∧
        s.bpHit tk (s.runStreams r) r.pc = some (st, ix)) ∨
      (s.turn = .seq tk ∧ s.seqIssues tk = true ∧ s.bpHit tk [0] (s.team tk).seq.pc = some (st, ix)) →
    ∃ t h, exec .breakpointMatch s = .next t ∧ t = { s with teams := t.teams } ∧
      (h = (st, ix) ∨ ∃ a ∈ s.schedule, s.turnHit tk a = some h) ∧ h.1 ≤ st ∧
      (∀ a ∈ s.schedule, ∀ x, s.turnHit tk a = some x → h.1 ≤ x.1) ∧
      let g := s.gridOf tk
      let mates := g.clusterTeams (keyGrid tk) (g.clusterOf (keyIx tk))
      let off := fun (j : Nat) => if j ∈ mates ∧ (s.team j).st = .running then TeamState.swapped else (s.team j).st
      t.team tk = { s.team tk with stopped := true, stopRec := some (h.2, h.1, (s.team tk).phases.toNat), st := off tk } ∧
        ∀ j, j ≠ tk → t.team j = { s.team j with st := off j }) ∧
  (∀ (s : State) (a : Nat), s.turn = .event .stopSlotScan (.nat a) →
    let freed := fun (u : State) (tk : Nat) => { u.team tk with
      stopped := false, stopSlot := none
      bpPass := List.range (1 + (u.gridOf tk).launch.lanes / (u.gridOf tk).launch.width) }
    (s.unrecorded a = [] → ∃ t, exec .stopSlotScan s = .next t ∧ t = { s with teams := t.teams } ∧ ∀ tk,
      t.team tk = if s.asidOf tk = a ∧ ∃ x ∈ s.clearedStops a, (s.team tk).stopSlot = some x then freed s tk else s.team tk) ∧
    (∀ tk x, (s.team tk).stopSlot = some x → s.asidOf tk = a → s.stopWord a x = .ok 0 → x ∈ s.clearedStops a) ∧
    (∀ tk h, s.clearedStops a = [] → s.unrecorded a = [tk] → (s.team tk).stopRec = some h →
      (s.freeStopSlot a = none → exec .stopSlotScan s = .next s) ∧
      (∀ i x v, s.freeStopSlot a = some i →
        i < 16 ∧ (∀ w, s.stopWord a (s.stopAddr a i) = .ok w → w.testBit 63 = false) ∧
        (s.dispStore (some a) ((s.ctx a).rcd.bptab + 0x400 + 64 * i) (s.stopBytes tk h) false = (x, v) →
        (x ≠ .ok () → exec .stopSlotScan s = .next v) ∧
        (x = .ok () → ∃ t, exec .stopSlotScan s = .next t ∧ t = { v with teams := t.teams } ∧
          t.team tk = { v.team tk with stopRec := none, stopSlot := some ((s.ctx a).rcd.bptab + 0x400 + 64 * i) } ∧
          ∀ j, j ≠ tk → t.team j = v.team j))))) ∧
  (∀ (s v : State) (a i : Nat), s.turn = .event .stopSlotFree (.nat2 a i) → i < 16 → (s.ctx a).st ≠ .free →
    s.dispStore (some a) ((s.ctx a).rcd.bptab + 0x400 + 64 * i) (leBytes 8 0) false = (.ok (), v) →
    ∃ t, exec .stopSlotFree s = .next t ∧ t = { v with teams := t.teams } ∧ ∀ tk, t.team tk =
      if (v.team tk).stopSlot = some ((s.ctx a).rcd.bptab + 0x400 + 64 * i) ∧ v.asidOf tk = a then { v.team tk with
        stopped := false, stopSlot := none
        bpPass := List.range (1 + (v.gridOf tk).launch.lanes / (v.gridOf tk).launch.width) }
      else v.team tk) ∧
  (∀ (s : State) (idx : Nat) (p : Parked) (rest : List Parked) (a : Access) (more : List Access),
    s.turn = .event .waitingAccessPerform (.nat idx) →
    s.parked.drop idx = p :: rest → p.accs = a :: more →
    (s.issues p.team = false → exec .waitingAccessPerform s = .next s) ∧
    (s.issues p.team = true → s.pace = none → a.runs ≠ [] → ∀ o, s.stepPiece idx p.iaddr a = o →
      (∀ u, o = .wait u → exec .waitingAccessPerform s =
        .next { u with parked := u.parked.set idx { p with held := true } }) ∧
      (∀ u, o = .done u → more = [] → ∃ t, exec .waitingAccessPerform s = .next t ∧ t.mem = u.mem ∧
        t.parked = u.parked.eraseIdx idx ∧ ∀ n, (t.team p.team).lane n =
          if n ∈ p.lanes then { (u.team p.team).lane n with block := .none, pc := ((u.team p.team).lane n).pc + 4 }
          else (u.team p.team).lane n))) ∧
  (∀ (s : State) (tk : Nat) (vs : List (BitVec 16)) (lanes : List Nat) (rest : List (List (BitVec 16) × List Nat)),
    s.turn = .event .bankModeSwitch (.nat tk) → (s.team tk).bmodeNext = (vs, lanes) :: rest →
    let switched := switchedBanks (s.team tk).bmode vs
    ((∃ b ∈ switched, s.bankBusy tk b = true) → exec .bankModeSwitch s = .next s) ∧
    ((∀ b ∈ switched, s.bankBusy tk b = false) → (∀ k, (s.team k).seq.sbuf = []) →
      ∃ t, exec .bankModeSwitch s = .next t ∧ (t.team tk).bmode = vs.getLastD (s.team tk).bmode ∧ (t.team tk).bmodeNext = rest ∧
        (∀ k, t.byte k = if ∃ b ∈ switched, spadKey tk b 0 ≤ k ∧ k < spadKey tk (b + 1) 0 then 0 else s.byte k) ∧
        (∀ n, (t.team tk).lane n = if n ∈ lanes then
          { (s.team tk).lane n with block := .none, pc := ((s.team tk).lane n).pc + 4 } else (s.team tk).lane n) ∧
        ∀ k, k ≠ tk → t.team k = s.team k)) ∧
  (∀ (s : State) (idx tk b : Nat) (r : Release) (rest : List Release), s.turn = .event .releaseWaitEnd (.nat idx) →
    s.releases.drop idx = r :: rest → r.kind = .bar tk b → r.entries = [] →
    (∀ y ∈ s.releases.take idx, y.kind ≠ .bar tk b) → ((s.team tk).bar b).expected ≠ 0 → (s.gridOf tk).captured = false →
    ∃ t, exec .releaseWaitEnd s = .next t ∧ t.mem = s.mem ∧ t.releases = s.releases.eraseIdx idx ∧
      (∀ k, k ≠ tk → t.team k = s.team k) ∧
      (t.team tk).seq = (if (s.team tk).seq.wait = some (.bar b r.phase) then { (s.team tk).seq with wait := none }.advance 4
        else (s.team tk).seq) ∧
      ∀ n, (t.team tk).lane n =
        { (s.team tk).lane n with wait := if ((s.team tk).lane n).wait = some (b, r.phase) then none else ((s.team tk).lane n).wait }) ∧
  (∀ (s : State) (tk : Nat) (lanes : List Nat) (iaddr : Word) (a : Access) (as : List Access) (p : Loc × Nat)
     (rest : List (Loc × Nat)), s.frontPiece a = some (p, rest) → s.pieceWaits s.parked.length a p = true → lanes ≠ [] →
     s.paceOf (a :: as) ≠ 0 →
     let t := s.performOrPark tk lanes iaddr (a :: as)
     t.mem = s.mem ∧ t.parked = s.parked ++ [⟨tk, lanes, iaddr, a :: as, true⟩] ∧
       (∀ n, (t.team tk).lane n = if n ∈ lanes then { (s.team tk).lane n with block := .perform } else (s.team tk).lane n) ∧
       ∀ n ∈ lanes, t.unblocked ((t.team tk).lane n).block = false)

/-- What a copy-engine command moves (R214, R254, R255): COPY, COPY2D's row, GATHER's and SCATTER's elements at their
indexes, FILL's pattern, and the bits of PLANES in both directions; a destination run is written byte for byte in
order, counted whole, and stops at the first source byte that could not be read; lines are written in ascending address,
and the writes of one line in the order of their rows or elements.

The turns of a copy-engine command (R234 to R236, R250 to R252, R256, R257): once every earlier command of its queue
has started and no earlier claim holds its sources, a well-formed command reads them and claims what its plan writes;
a malformed one will stop with code 1; then each turn writes one line and no other byte and counts its bytes into the
arrival word, or stops at an error; a write, a count or an error that must wait changes nothing, and a command with
nothing left leaves its queue.
That the sources are read in one step, one line is written a turn and which error a failed read reports are the
model's choice (logs 3 and 32). -/
def Obligations.CopyEngineCommandsMoveBytes : Prop :=
  (∀ (va : Nat) (bs : List SrcByte), va + bs.length ≤ 2 ^ 64 → (∀ b ∈ bs, b.err = none ∧ b.mask ≠ 0) →
    let xs := planOf (runUnits va bs)
    planBytes xs = bs.zipIdx.map (fun b => (va + b.2, b.1.mask, b.1.val)) ∧ planCount xs = bs.length ∧ planFails xs = false) ∧
  (∀ (s u : State) (c : Cmd) (bs : List SrcByte) (w : Option PageWait),
    (c.op = 1 → s.readStretches c (copyStretches c.dst c.src c.count) = (bs, w, u) →
      s.planCe c = (planOf (runUnits c.dst bs), w, u)) ∧
    (c.op = 2 → c.rows = 1 → s.readStretches c (copyStretches (addr64 c.dst) (addr64 c.src) c.count) = (bs, w, u) →
      s.planCe c = (planOf (runUnits (addr64 c.dst) bs), w, u)) ∧
    (∀ ix s1, c.count = 1 → s.readStretch c (c.word 4) 4 = (ix, none, s1) → ix.length = 4 →
      (∀ b ∈ ix, b.err = none ∧ b.poison = false) →
      let j := ((BitVec.ofNat 32 (leNat (ix.map (fun b => BitVec.ofNat 8 b.val)))).toInt % (c.extent : Int)).toNat
      (c.op = 3 → s1.readStretch c (c.src + j * c.esize) c.esize = (bs, w, u) →
        s.planCe c = (planOf (runUnits c.dst bs), w, u)) ∧
      (c.op = 4 → s1.readStretches c (copyStretches (addr64 (c.dst + j * c.esize)) (addr64 c.src) c.esize) = (bs, w, u) →
        s.planCe c = (planOf (runUnits (addr64 (c.dst + j * c.esize)) bs), w, u))) ∧
    (c.op = 5 → ∃ fs, s.planCe c = (planOf (runUnits c.dst fs), none, s) ∧ fs.length = c.count ∧
      ∀ k, k < c.count → ∃ b, fs[k]? = some b ∧ b.mask = 255 ∧ b.poison = false ∧ b.err = none ∧
        b.val = (c.word 2 / 2 ^ (8 * (k % 8))) % 256)) ∧
  (∀ (us : List PlanUnit), (sortUnits us).Pairwise (fun x y => x.line ≤ y.line) ∧ (sortUnits us).Perm us ∧
    ∀ l, (sortUnits us).filter (fun x => decide (x.line = l)) = us.filter (fun x => decide (x.line = l))) ∧
  (∀ (c : Cmd) (src : List SrcByte) (q k : Nat), c.fmt ≤ 0x12 → q < c.count →
    let w := (planeShape c.fmt).1
    let h := (planeShape c.fmt).2.1
    let p := (planeShape c.fmt).2.2
    k < w →
    let plane := q / 64 * 8 * w + 8 * k + q % 64 / 8
    ((packedToPlane c src plane).mask.testBit (q % 8) = true ∧
      (packedToPlane c src plane).val.testBit (q % 8) = srcBit src (q * h + p + (w - 1 - k))) ∧
    ((planeToPacked c src ((q * h + p + (w - 1 - k)) / 8)).mask.testBit ((q * h + p + (w - 1 - k)) % 8) = true ∧
      (planeToPacked c src ((q * h + p + (w - 1 - k)) / 8)).val.testBit ((q * h + p + (w - 1 - k)) % 8) =
        srcBit src (8 * plane + q % 8))) ∧
  (∀ (i : Instr) (op core idx : Nat) (s : State) (c : Cmd) (rest : List Cmd),
     (i, op) ∈ [(Instr.copy, 1), (.copy2d, 2), (.gather, 3), (.scatter, 4), (.fill, 5), (.planes, 6)] →
     s.turn = .event i (.nat2 core idx) → (s.coreAt core).ce.drop idx = c :: rest → c.op = op →
     (∀ d ∈ (s.coreAt core).ce.take idx, d.plan ≠ none) →
     let q := (s.coreAt core).ce
     let nums := fun (u : State) => (u.coreAt core).ce.map (·.num)
     -- the command stands in its queue as x, at some logical time, or has left it with nothing to do
     let becomes := fun (t : State) (x : Cmd) =>
       if x.plan = some [] then nums t = (nums s).eraseIdx idx
       else nums t = nums s ∧ ∃ p, (t.coreAt core).ce[idx]? = some { x with pts := p }
     (c.plan = none → s.ceOk c = false → ∃ t, exec i s = .next t ∧ t.mem = s.mem ∧ t.teams = s.teams ∧
       becomes t { c with plan := some [.fail 1 0 0], claims := [], srcs := [] }) ∧
     (c.plan = none → s.ceOk c = true → s.srcWaits c.num (s.regionLines c .load (s.ceRegions c).2) = true →
       exec i s = .next s) ∧
     (c.plan = none → s.ceOk c = true → s.srcWaits c.num (s.regionLines c .load (s.ceRegions c).2) = false →
       (∀ xs u, s.planCe c = (xs, none, u) → ∃ t, exec i s = .next t ∧ t.mem = u.mem ∧ t.teams = u.teams ∧
         becomes t { c with plan := some (u.keyPlan c xs), claims := planKeys (u.keyPlan c xs), srcs := [], page := none }) ∧
       (∀ xs p u, s.planCe c = (xs, some p, u) → ∃ t, exec i s = .next t ∧ t.mem = s.mem ∧ t.teams = s.teams ∧ nums t = nums s)) ∧
     (∀ va bytes poison key more runs u, c.plan = some (.write va bytes poison key :: more) →
       s.checkAccess (s.cmdWho c) c.core .store true true true va bytes.length = (.ok runs, u) →
       (u.engineWaits c runs = true → exec i s = .next u) ∧
       (∀ l k, runs = [(l, bytes.length)] → PlainPlace u l bytes.length k → u.engineWaits c runs = false →
         u.inHost l = false ∨ poison = false → c.arriveAddr = 0 → (∀ x ∈ u.fab.fwd, x.owner ≠ .engine c.num) →
         let left := match more with
           | .count _ :: r => r
           | r => r
         ∃ t, exec i s = .next t ∧
         (∀ j m v, bytes[j]? = some (m, v) → m < 256 → v < 256 →
           (t.byte (k + j)).toNat = (v &&& m) ||| ((u.byte (k + j)).toNat &&& (255 - m))) ∧
         OnlyBytes u t k bytes.length ∧ t.teams = u.teams ∧
         becomes t { c with plan := some left, claims := planKeys left, page := none, wrote := 0 })) ∧
     (∀ n more, c.plan = some (.count n :: more) → c.fw = false →
       (s.arrivePlace c.team c.arriveAddr = none → ∃ t, exec i s = .next t ∧ t.mem = s.mem ∧
         becomes t { c with plan := some more, claims := planKeys more, page := none, wrote := 0 }) ∧
       (∀ t0 b o, s.arrivePlace c.team c.arriveAddr = some (.spad t0 b o) → o % 16 = 0 →
         (s.arriveWaits c (.spad t0 b o) = true ∨ s.countWaits c (.spad t0 b o) = true → exec i s = .next s) ∧
         (s.arriveWaits c (.spad t0 b o) = false → s.countWaits c (.spad t0 b o) = false →
           s.detCode (s.cmdWho c) true false (.spad t0 b o) = 0 → PlainPlace s (.spad t0 b o) 16 (spadKey t0 b o) →
           let k := spadKey t0 b o
           let target := numberAt s k 4
           let sum := numberAt s (k + 8) 4 + n
           ∃ t, exec i s = .next t ∧ OnlyBytes s t (k + 8) 8 ∧
             numberAt t (k + 8) 4 = (if target = 0 then sum % 2 ^ 32 else sum % target) ∧
             numberAt t (k + 12) 4 = (if target = 0 then numberAt s (k + 12) 4 else (numberAt s (k + 12) 4 + sum / target) % 2 ^ 32)))) ∧
     (∀ code cause addr more, c.plan = some (.fail code cause addr :: more) → c.fw = false →
       (s.arrivePlace c.team c.arriveAddr = none → (s.team c.team).seq.exited = false → SeqHandled s c.team →
         ∃ t, exec i s = .next t ∧ t.mem = s.mem ∧
           (t.team c.team).seq.pending = (s.team c.team).seq.pending ++ [⟨0x0C, code, BitVec.ofNat 64 addr⟩] ∧
           (t.coreAt core).ce = q.eraseIdx idx) ∧
       (∀ l, s.arrivePlace c.team c.arriveAddr = some l → s.arriveWaits c l = true → ∃ t, exec i s = .next t ∧
         t.mem = s.mem ∧ t.teams = s.teams ∧ becomes t { c with plan := some [.fail code cause addr], claims := [], page := none, wrote := 0 })))

/-- Page-engine commands (R237, R257, R320, R321, R324, R325, R328, R329): PIN and CLRCNT write their field of each frame's
entry and nothing else; MOVE first marks a frame and then, while no engine holds a line of it, moves its bytes and gives
its entry the new place; to or from another chip it takes a free frame, sends or asks for one line after another, each when
no engine holds it, and ends when all have come to rest, or gives the free frame back where the chip is lost or poison would
reach host memory; each frame is counted before the next; an error stops the command with its code, which a command of the firmware reports to it.

Demotion, read-back and the end of a regeneration (R321, R325, R326, R327, R330, R331, R332): a tier below its low
watermark gives up its victims one by one until the high one is reached, each migrating first and then moving whole; a
page read back from storage stands in host memory, and one whose service failed is lost; a regenerated page's entry
becomes valid and no translation of it stays, while waiting accesses of a failed one will fault.

Accesses and line moves that other chips forwarded (R237, R322, R325, R331): one source's are served in order, and wait as
any access does; a read answers with the bytes that a load sees and changes none, a write stores its bytes and no other, an
integer atomic step stores its new value and answers with the old one, and each tells what its line held where it is asked
for; a moved line comes with its poison and timestamps, and one that is asked for leaves with them; what would carry poison
to host memory changes nothing there; each leaves the queue.
The tags of forwarded accesses, the order of free lists, the error of a frame that nothing backs, the end of a failed
regeneration, and what poison does at another chip's host memory are the model's (logs 14, 35, 36, 84 and 87). -/
def Obligations.PagesMove : Prop :=
  (∀ (i : Instr) (op idx : Nat) (s : State) (c : Cmd) (rest : List Cmd),
     (i, op) ∈ [(Instr.pgMove, 1), (.pgPin, 2), (.pgClrcnt, 3)] → s.turn = .event i (.nat idx) →
     s.dsp.pg.drop idx = c :: rest → c.op = op → (∀ d ∈ s.dsp.pg.take idx, d.tier ≠ c.tier) →
     let f := c.frame0 + c.pos
     let e := s.frame f
     let gone := fun (t : State) => t.dsp.pg = s.dsp.pg.filter (fun y => decide (y.num ≠ c.num))
     -- the command stands in its queue as x, at some logical time
     let becomes := fun (t : State) (x : Cmd) => ∃ p, t.dsp.pg = s.dsp.pg.map (fun y => if y.num = c.num then { x with pts := p } else y)
     let handled := fun (t : State) => becomes t { c with plan := some [.count 4096], moving := false, flying := false }
     let fails := fun (t : State) (code : Nat) => t.mem = s.mem ∧ t.teams = s.teams ∧
       becomes t { c with plan := some [.fail code 0 0], moving := false, flying := false }
     let onlyFrame := fun (t : State) => t = { s with frames := t.frames, dsp := { s.dsp with pg := t.dsp.pg } }
     (∀ code more, c.plan = some (.fail code 0 0 :: more) →
       (c.fw = true → ∃ t, exec i s = .next t ∧ t.mem = s.mem ∧ t.teams = s.teams ∧ gone t ∧
         t.dsp.pgErrors = s.dsp.pgErrors ++ [(c.num, code)]) ∧
       (c.fw = false → s.arrivePlace c.team c.arriveAddr = none → (s.team c.team).seq.exited = false → SeqHandled s c.team →
         ∃ t, exec i s = .next t ∧ t.mem = s.mem ∧ gone t ∧
           (t.team c.team).seq.pending = (s.team c.team).seq.pending ++ [⟨0x0C, code, 0⟩])) ∧
     (c.plan = none → s.pgError c ≠ 0 → ∃ t, exec i s = .next t ∧ fails t (s.pgError c) ∧ t.frames = s.frames) ∧
     (c.plan = none → s.pgError c = 0 →
       (op = 2 → ∃ t, exec i s = .next t ∧ onlyFrame t ∧ handled t ∧
         FrameBecomes s t f (entryLoc e) (entryLocation e) (entryAcc e) c.pinv (entryMig e)) ∧
       (op = 3 → ∃ t, exec i s = .next t ∧ onlyFrame t ∧ handled t ∧
         FrameBecomes s t f (entryLoc e) (entryLocation e) 0 (entryPin e) (entryMig e)) ∧
       (op = 1 →
         let chip := if c.tloc = 5 then c.tchip else 0
         let x := (s.freeFrames c.tloc chip).headD 0
         let code := s.moveError f c.tloc chip
         (c.moving = false → c.flying = false →
           (entryMig e = true → exec i s = .next s) ∧
           (entryMig e = false → code ≠ 0 → ∃ t, exec i s = .next t ∧ fails t code ∧ t.frames = s.frames) ∧
           (entryMig e = false → code = 0 → s.inTier f c.tloc chip = true → ∃ t, exec i s = .next t ∧ handled t ∧ onlyFrame t ∧
             t.frames = s.frames) ∧
           (entryMig e = false → code = 0 → s.inTier f c.tloc chip = false → ∃ t, exec i s = .next t ∧ onlyFrame t ∧
             FrameBecomes s t f (entryLoc e) (entryLocation e) (entryAcc e) (entryPin e) true ∧
             becomes t { c with moving := true })) ∧
         (c.moving = true → c.flying = false →
           (s.frameBusy f = true → c.tloc ≠ 5 → entryLoc e ≠ 5 → exec i s = .next s) ∧
           (FrameFree s f → code ≠ 0 → ∃ t, exec i s = .next t ∧ fails t code ∧
             FrameBecomes s t f (entryLoc e) (entryLocation e) (entryAcc e) (entryPin e) false) ∧
           (FrameFree s f → code = 0 → s.inTier f c.tloc chip = false → x < 2 ^ 42 → c.tloc ≠ 5 →
             ∀ src dst, frameKey (entryLoc e) (entryLocation e) = some src → frameKey c.tloc x = some dst →
             ∃ t, exec i s = .next t ∧ PageMoved s t src dst ∧ FrameBecomes s t f c.tloc x 0 false false ∧
               t.freeFrames c.tloc chip = (s.freeFrames c.tloc chip).drop 1 ∧
               t.freeFrames (entryLoc e) 0 = s.freeFrames (entryLoc e) 0 ++ [entryLocation e] ∧ handled t) ∧
           (FrameFree s f → code = 0 → c.tloc = 5 ∨ entryLoc e = 5 → ∃ t, exec i s = .next t ∧ t.mem = s.mem ∧ t.frames = s.frames ∧
             t.fab = s.fab ∧ t.freeFrames c.tloc chip = (s.freeFrames c.tloc chip).drop 1 ∧
             becomes t { c with flying := true, line := 0, target := if c.tloc = 5 then chip * 2 ^ 30 + x else x })) ∧
         (c.flying = true →
           let stops := fun (t : State) (code : Nat) => fails t code ∧ t.flights c = [] ∧
             FrameBecomes s t f (entryLoc e) (entryLocation e) (entryAcc e) (entryPin e) false ∧
             t.freeFrames c.tloc chip = c.target % (if c.tloc = 5 then 2 ^ 30 else 2 ^ 42) :: s.freeFrames c.tloc chip
           (c.tloc = 5 → s.fab.members.contains chip = false → ∃ t, exec i s = .next t ∧ stops t 0x0A) ∧
           ((c.tloc = 5 → s.fab.members.contains chip = true) →
             (entryLoc e = 7 → ∃ t, exec i s = .next t ∧ stops t 6) ∧
             (entryLoc e ≠ 7 → c.line < 64 →
               (s.claimed (f * 64 + c.line) = true ∨ s.unread (f * 64 + c.line) = true → exec i s = .next s) ∧
               (s.claimed (f * 64 + c.line) = false → s.unread (f * 64 + c.line) = false →
                 (∀ a, frameKey (entryLoc e) (entryLocation e) = some a → SMap.get false s.bad (a / 64 + c.line) = false →
                   let l := s.line (a / 64 + c.line)
                   ∃ t, exec i s = .next t ∧ t.mem = s.mem ∧ t.frames = s.frames ∧ becomes t { c with line := c.line + 1 } ∧
                     Sent s t (c.target / 2 ^ 30) (.move s.fab.nextTag (c.target % 2 ^ 30 * 4096 + 64 * c.line)
                       ((List.range 64).map (fun j => s.byte (a + 64 * c.line + j))) l.poison l.wts l.rts)) ∧
                 (frameKey (entryLoc e) (entryLocation e) = none →
                   ∃ t, exec i s = .next t ∧ t.mem = s.mem ∧ t.frames = s.frames ∧ becomes t { c with line := c.line + 1 } ∧
                     Sent s t (entryLocation e / 2 ^ 30)
                       (.moveAsk s.fab.nextTag (entryLocation e % 2 ^ 30 * 4096 + 64 * c.line))))) ∧
             (entryLoc e ≠ 7 → 64 ≤ c.line →
               ((∃ y ∈ s.flights c, y.reply = none) → exec i s = .next s) ∧
               (c.tloc = 5 → c.target < 2 ^ 42 → (∀ y ∈ s.flights c, y.write = true ∧ y.reply = some ([], false)) →
                 ∃ t, exec i s = .next t ∧ t.mem = s.mem ∧ handled t ∧
                   FrameBecomes s t f 5 c.target 0 (entryPin e) false ∧ t.flights c = []) ∧
               (c.tloc = 3 → (∀ y ∈ s.flights c, y.reply ≠ none) → (∃ y ∈ s.flights c, y.write = false ∧ ∃ bs, y.reply = some (bs, true)) →
                 ∃ t, exec i s = .next t ∧ stops t 9) ∧
               (∀ b, frameKey c.tloc c.target = some b → c.tloc ≤ 3 → c.target < 2 ^ 42 →
                 (∀ y ∈ s.flights c, y.write = false ∧ ∃ bs p, y.reply = some (bs, p) ∧ bs.length = 64 ∧ (c.tloc = 3 → p = false)) →
                 (s.flights c).Pairwise (fun y z => y.pa % 4096 / 64 ≠ z.pa % 4096 / 64) →
                 ∃ t, exec i s = .next t ∧ handled t ∧ t.flights c = [] ∧ OnlyBytes s t b 4096 ∧
                   FrameBecomes s t f c.tloc c.target 0 (entryPin e) false ∧
                   ∀ y ∈ s.flights c, ∀ bs p, y.reply = some (bs, p) → (t.line (b / 64 + y.pa % 4096 / 64)).poison = p ∧
                     ∀ j v, bs[j]? = some v → t.byte (b / 64 * 64 + y.pa % 4096 / 64 * 64 + j) = v)))))) ∧
     (∀ n more, c.plan = some (.count n :: more) → c.fw = true ∨ s.arrivePlace c.team c.arriveAddr = none →
       ∃ t, exec i s = .next t ∧ t = { s with dsp := { s.dsp with pg := t.dsp.pg } } ∧
         (more ≠ [] → becomes t { c with plan := some more, wrote := 0 }) ∧
         (more = [] → if c.pos + 1 = c.count then gone t else becomes t { c with plan := none, pos := c.pos + 1, wrote := 0 }))) ∧
  (∀ (s : State) (tier : Nat), s.turn = .event .demotion (.nat tier) → tier = 1 ∨ tier = 2 ∨ tier = 3 →
    (s.freeFrames tier 0).length < SMap.get 0 s.dsp.low tier ∨ tier ∈ s.dsp.demoting →
    let high := SMap.get 0 s.dsp.high tier
    let ring := SMap.get [] s.dsp.victims tier
    let victim := fun (t : State) => SMap.get 0 t.dsp.victim tier
    (victim s = 0 → ring = [] ∨ high ≤ (s.freeFrames tier 0).length → ∃ t, exec .demotion s = .next t ∧ t.mem = s.mem ∧
      t.frames = s.frames ∧ t.dsp.posted = s.dsp.posted + 1 ∧ tier ∉ t.dsp.demoting) ∧
    (∀ f r, victim s = 0 → ring = f :: r → (s.freeFrames tier 0).length < high →
      (∀ k ∈ s.frameLines f, SMap.get false s.bad k = false) →
      let e := s.frame f
      let skipped := entryLoc e ≠ tier ∨ entryPin e = true ∨ entryMig e = true ∨ (tier = 2 ∧ s.framePsn f = true)
      ∃ t, exec .demotion s = .next t ∧ t.mem = s.mem ∧ SMap.get [] t.dsp.victims tier = r ∧ tier ∈ t.dsp.demoting ∧
        (skipped → t.frames = s.frames ∧ victim t = 0) ∧
        (¬ skipped → FrameBecomes s t f tier (entryLocation e) (entryAcc e) false true ∧ victim t = f + 1)) ∧
    (∀ f, victim s = f + 1 →
      let e := s.frame f
      (s.frameBusy f = true → ∃ t, exec .demotion s = .next t ∧ t.mem = s.mem ∧ t.frames = s.frames ∧ victim t = f + 1) ∧
      (FrameFree s f → tier = 2 → s.framePsn f = true → ∃ t, exec .demotion s = .next t ∧ t.mem = s.mem ∧ victim t = 0 ∧
        FrameBecomes s t f (entryLoc e) (entryLocation e) (entryAcc e) (entryPin e) false) ∧
      (FrameFree s f → (tier = 2 → s.framePsn f = false) →
        (s.freeFrames (tier + 1) 0 = [] → ∃ t, exec .demotion s = .next t ∧ t.mem = s.mem ∧ t.frames = s.frames ∧
          victim t = f + 1 ∧ tier ∈ t.dsp.demoting) ∧
        (∀ x xs src dst, s.freeFrames (tier + 1) 0 = x :: xs → x < 2 ^ 42 → entryLoc e = tier →
          frameKey tier (entryLocation e) = some src → frameKey (tier + 1) x = some dst →
          ∃ t, exec .demotion s = .next t ∧ PageMoved s t src dst ∧ FrameBecomes s t f (tier + 1) x 0 (entryPin e) false ∧
            t.freeFrames (tier + 1) 0 = xs ∧ t.freeFrames tier 0 = s.freeFrames tier 0 ++ [entryLocation e] ∧ victim t = 0)))) ∧
  (∀ (s : State) (f ok bus : Nat), s.turn = .event .pageReadback (.nat3 f ok bus) →
    let e := s.frame f
    (entryLoc e ≠ 4 → exec .pageReadback s = .next s) ∧
    (entryLoc e = 4 → ok = 0 → ∃ t, exec .pageReadback s = .next t ∧ t = { s with frames := t.frames } ∧
      FrameBecomes s t f 7 (entryLocation e) (entryAcc e) (entryPin e) (entryMig e)) ∧
    (entryLoc e = 4 → ok ≠ 0 → bus < 2 ^ 42 → ∃ t, exec .pageReadback s = .next t ∧
      PageMoved s t (storageKey (entryLocation e * 4096)) (hostKey (bus * 4096)) ∧
      FrameBecomes s t f 3 bus (entryAcc e) (entryPin e) (entryMig e))) ∧
  (∀ (s : State) (asid page k : Nat), s.turn = .event .regenerationComplete (.nat2 asid page) →
    s.regenGrid asid page = some k →
    ((s.grid k).regenStatus = none → exec .regenerationComplete s = .next s) ∧
    (∀ st, (s.grid k).regenStatus = some st → st ≠ 0 →
      (s.pageWaiters asid page = true → exec .regenerationComplete s = .next (s.setGrid k { s.grid k with regenFailed := true })) ∧
      (s.pageWaiters asid page = false → exec .regenerationComplete s = .next (s.setGrid k {}))) ∧
    ((s.grid k).regenStatus = some 0 →
      (∀ b, (s.walk asid page).1 = .wait b → ∃ t, exec .regenerationComplete s = .next t ∧ t.mem = s.mem ∧ t.tlb = s.tlb) ∧
      (∀ p slot frame pa e key, (s.walk asid page).1 = .regen p slot frame pa → s.readEntry pa = .ok e → PlainPlace s (.pa pa) 8 key →
      s.mustWait 0 true [(.pa pa, 8)] = false →
      ∃ t, exec .regenerationComplete s = .next t ∧ t.grid k = {} ∧ OnlyBytes s t key 8 ∧
        (∀ j, j < 64 → (numberAt t key 8).testBit j = (decide (j = 0) || (decide (j ≠ 6 ∧ j < 56) && e.testBit j))) ∧
        ∀ quad, t.tlbOf quad = (s.tlbOf quad).filter (fun x =>
          !decide (x.asid = asid ∧ x.page < page + 4096 ∧ page < x.page + x.size))))) ∧
  (∀ (s : State) (idx : Nat) (f : Flit) (rest : List Flit), s.turn = .event .forwardedAccess (.nat idx) →
     s.fab.inbox.drop idx = f :: rest →
     ((∃ x ∈ s.fab.inbox.take idx, x.src = f.src) → exec .forwardedAccess s = .next s) ∧
     ((∀ x ∈ s.fab.inbox.take idx, x.src ≠ f.src) → ∀ tag pa k, isFramePa pa = true → (∀ x ∈ s.fab.fwd, x.owner ≠ .flit f.src tag) →
       let served := fun (t : State) => exec .forwardedAccess s = .next t ∧ t.fab.inbox = s.fab.inbox.eraseIdx idx
       -- an access of n bytes must wait here, or stands behind one that has waited
       let waits := fun (writes : Bool) (n : Nat) =>
         s.mustWait 0 writes [(.pa pa, n)] = true ∨ s.queuedBefore s.parked.length (.pa pa) = true
       let held := (List.range 64).map (fun j => s.byte (k / 64 * 64 + j))
       let old := fun (asked : Bool) => if asked then some (held, (s.line (k / 64)).poison) else none
       let host := fun (p : Bool) => p = true ∧ s.inHost (.pa pa) = true
       (∀ n, f.body = .fwdRead tag pa n → waits false n → exec .forwardedAccess s = .next s) ∧
       (∀ n, f.body = .fwdRead tag pa n → PlainPlace s (.pa pa) n k → pa % 32 + n ≤ 32 → ¬ waits false n →
         ∃ t, served t ∧ t.mem = s.mem ∧
           Sent s t f.src (.fwdReply tag (seenBytes s (.pa pa) k n) (poisonAt s k n) none none)) ∧
       (∀ bytes p o, f.body = .fwdWrite tag pa bytes p o → waits true bytes.length → exec .forwardedAccess s = .next s) ∧
       (∀ bytes p o, f.body = .fwdWrite tag pa bytes p o → PlainPlace s (.pa pa) bytes.length k → ¬ waits true bytes.length →
         (¬ host p → ∃ t, served t ∧ t.teams = s.teams ∧ (∀ j b, bytes[j]? = some b → t.byte (k + j) = b) ∧
           OnlyBytes s t k bytes.length ∧ Sent s t f.src (.fwdReply tag [] false none (old o))) ∧
         (host p → ∃ t, served t ∧ t.teams = s.teams ∧ t.mem = s.mem ∧ t.lines = s.lines ∧
           Sent s t f.src (.fwdReply tag [] false (some (s.hostAddr (.pa pa))) (old o)))) ∧
       (∀ bytes p wts rts, f.body = .move tag pa bytes p wts rts → bytes.length = 64 → pa % 64 = 0 → PlainPlace s (.pa pa) 64 k →
         (¬ host p → ∃ t, served t ∧ (∀ j b, bytes[j]? = some b → t.byte (k + j) = b) ∧ OnlyBytes s t k 64 ∧
           t.line (k / 64) = { poison := p, wts := wts, rts := rts } ∧ Sent s t f.src (.fwdReply tag [] false none none)) ∧
         (host p → ∃ t, served t ∧ t.mem = s.mem ∧ t.lines = s.lines ∧ Sent s t f.src (.fwdReply tag [] true none none))) ∧
       (f.body = .moveAsk tag pa → pa % 64 = 0 → PlainPlace s (.pa pa) 64 k →
         (waits true 64 → exec .forwardedAccess s = .next s) ∧
         (¬ waits true 64 → let x := s.line (k / 64)
           ∃ t, served t ∧ t.mem = s.mem ∧ t.line (k / 64) = { x with copies := recalled x.copies } ∧
             Sent s t f.src (.moved tag held x.poison x.wts x.rts))) ∧
       (∀ op ty y c p o, ty < 4 → f.body = .fwdAtom tag pa op ty y c p o → PlainPlace s (.pa pa) (atomWidth ty / 8) k →
         k % (atomWidth ty / 8) = 0 → s.inHost (.pa pa) = false → ¬ waits true (atomWidth ty / 8) →
         let w := atomWidth ty
         let was := numberAt s k (w / 8)
         ∃ t, served t ∧ OnlyBytes s t k (w / 8) ∧
           numberAt t k (w / 8) = atomNew op (decide (ty = 0 ∨ ty = 2)) w was (y.toNat % 2 ^ w) (c.toNat % 2 ^ w) ∧
           Sent s t f.src (.fwdReply tag (leBytes (w / 8) was) (p || poisonAt s k (w / 8)) none (old o)))))

/-- Exchange commands are taken up (R234, R322, R347, R358 to R360, R362, R365): with a code found at its push a command only
raises its error; without a usable frame view only its record is left, with no new count; else, once no earlier claim
holds its sources, they are read and its READY flits go to every other party together, or wait for room; a source that
cannot be read aborts it. No byte of memory changes but by the reading of its lines.

Operations begin and complete (R348, R359 to R363, R365, R367): one that is due runs at the boundary, its source going
in parts to the parties that need it, as many in each tick as the schedule gives, or ends with status 0x03 where a party aborted, where the parties disagree, with
code 0x07 then, or where the sizes no longer fit; one that is not due waits; a finished one writes its destination and
its record line by line, unless a view comes first, and leaves when all is written.
That READY flits leave together or wait for room (log 39), that all sources are read in one step (log 3), which error
a failed read reports (log 32), and the schedule's form, NEWCNT and the parts of a contribution (logs 40, 58 and 73)
are the model's. -/
def Obligations.ExchangeOperationsRun : Prop :=
  (∀ (i : Instr) (op idx : Nat) (s : State) (c : Cmd) (rest : List Cmd),
     (i, op) ∈ [(Instr.allred, 0x11), (.redscat, 0x12), (.allgath, 0x13), (.bcast, 0x14), (.send, 0x15), (.recv, 0x16)] →
     s.turn = .event i (.nat idx) → s.fab.xeq.drop idx = c :: rest → c.op = op →
     (∀ x ∈ s.fab.xe, x.cmd.num ≠ c.num) →
     let left := fun (u : State) => u.fab.xeq.filter (fun d => decide (d.num ≠ c.num))
     let sources := (c.xeRegions s.fab.chip c.count0).2.flatMap (fun r => copyStretches r.1 r.1 r.2)
     (c.code ≠ 0 →
       (s.errorWaits c = true → exec i s = .next s) ∧
       (c.fw = false → s.arrivePlace c.team c.arriveAddr = none → (s.team c.team).seq.exited = false →
         SeqHandled s c.team → ∃ t, exec i s = .next t ∧ t.mem = s.mem ∧ t.fab.xeq = left s ∧ t.fab.xe = s.fab.xe ∧
           (t.team c.team).seq.pending = (s.team c.team).seq.pending ++ [⟨0x0C, c.code, 0⟩])) ∧
     (c.code = 0 → c.status ≠ 0 → ∃ t x, exec i s = .next t ∧ t.mem = s.mem ∧ t.teams = s.teams ∧ t.fab.xeq = left s ∧
       t.fab.xe = s.fab.xe ++ [x] ∧ x.cmd.num = c.num ∧ x.cmd.claims = [] ∧ t.fab.outbox = s.fab.outbox ∧
       ∃ plan, x.cmd.plan = some plan ∧ planBytes plan = if c.result = 0 then []
         else (leBytes 8 (c.status + s.fab.vnum.toNat * 2 ^ 32) ++ leBytes 8 c.old).zipIdx.map (fun b => (c.result + b.2, 255, b.1.toNat))) ∧
     (c.code = 0 → c.status = 0 → s.srcWaits c.num c.srcs = true → exec i s = .next s) ∧
     (c.code = 0 → c.status = 0 → s.srcWaits c.num c.srcs = false →
       (∀ bs p u, s.readStretches c sources = (bs, some p, u) → ∃ t, exec i s = .next t ∧ t.mem = s.mem ∧ t.teams = s.teams ∧
         t.fab.xeq.map (·.num) = s.fab.xeq.map (·.num)) ∧
       (∀ bs u, s.readStretches c sources = (bs, none, u) →
       ((∀ b ∈ bs, b.err = none) → ∃ t x, exec i s = .next t ∧ t.mem = u.mem ∧ t.teams = u.teams ∧
         t.fab.xeq = left u ∧ t.fab.xe = u.fab.xe ++ [x] ∧ x.cmd.num = c.num ∧
         x.src = bs.map (fun b => (BitVec.ofNat 8 b.val, b.poison)) ∧ x.frame = u.fab.vnum.toNat ∧ x.aborted = false ∧
         (∀ p, p ∈ x.parties ↔ if op ≤ 0x14 then p ∈ u.fab.members else p = u.fab.chip ∨ p = c.peer) ∧
         ((∃ t0, x.ready = some t0 ∧ t.fab.outbox.map (fun y => (y.1, y.2.dst, y.2.body)) =
             u.fab.outbox.map (fun y => (y.1, y.2.dst, y.2.body)) ++ (x.others u.fab.chip).map (fun p => (t0, p, .ready x.body))) ∨
           (x.ready = none ∧ t.fab.outbox = u.fab.outbox))) ∧
       (∀ e, lowestErr bs = some e → (s.errorWaits c = true → exec i s = .next s) ∧
         (c.fw = false → s.arrivePlace c.team c.arriveAddr = none → u.arrivePlace c.team c.arriveAddr = none →
         (u.team c.team).seq.exited = false → SeqHandled u c.team → ∃ t x, exec i s = .next t ∧ t.mem = u.mem ∧
           t.fab.xe = u.fab.xe ++ [x] ∧ x.cmd.num = c.num ∧ x.aborted = true ∧ x.src = [] ∧
           (t.team c.team).seq.pending = (u.team c.team).seq.pending ++ [⟨0x0C, e.1, BitVec.ofNat 64 e.2.2⟩]))))) ∧
  (∀ (s : State) (num : Nat) (x : XeOp), s.turn = .event .collectiveBegin (.nat num) → s.xeOp num = some x →
    let chip := s.fab.chip
    let ends := fun (err : List PlanItem) => ∃ t y, exec .collectiveBegin s = .next t ∧ t.mem = s.mem ∧ t.teams = s.teams ∧
      t.xeOp num = some y ∧ y.cmd.plan = some (s.recordItem x.cmd 3 x.cmd.old 0 ++ err) ∧ y.cmd.claims = []
    (x.due s.fab = false → exec .collectiveBegin s = .next s) ∧
    (x.due s.fab = true → x.aborted = false → (∀ r ∈ x.bodies chip, r.aborted = false ∧ x.agrees chip r = true) → x.sized chip = true →
      ∀ row, s.fab.row x.cmd = some row → ∃ t y, exec .collectiveBegin s = .next t ∧ t.mem = s.mem ∧ t.teams = s.teams ∧
      t.xeOp num = some y ∧
      y = { x with begun := some s.fab.tick, taking := x.parties, data := [], heard := 0, rerun := false, togo := y.togo } ∧
      (∀ p, y.sendsTo chip = [p] →
        let parts := (List.range ((x.src.length + 31) / 32)).map (fun i =>
          (p, FlitBody.xdata (BitVec.ofNat 32 x.cmd.collid) i ((x.src.drop (i * 32)).take 32)))
        let n := if row.length ≤ 1 then parts.length else row.getD 0 0
        let flits := fun (u : State) => u.fab.outbox.map (fun z => (z.2.dst, z.2.body)) ++ u.fab.unsent
        y.togo = parts.drop n ∧ (flits t).Perm (flits s ++ parts.take n))) ∧
    (x.due s.fab = true → x.aborted = true ∨ (∃ r ∈ x.bodies chip, r.aborted = true) ∨
        ((∀ r ∈ x.bodies chip, x.agrees chip r = true) ∧ x.sized chip = false) → ends []) ∧
    (x.due s.fab = true → x.aborted = false → (∀ r ∈ x.bodies chip, r.aborted = false) →
      (∃ r ∈ x.bodies chip, x.agrees chip r = false) → ends [.fail 7 0 0])) ∧
  (∀ (s : State) (num : Nat) (x : XeOp), s.turn = .event .collectiveComplete (.nat num) → s.xeOp num = some x →
    (x.cmd.plan = none → x.finished s.fab = false ∨ s.fab.viewDue = true → exec .collectiveComplete s = .next s) ∧
    (x.cmd.plan = none → x.finished s.fab = true → s.fab.viewDue = false → ∃ t y plan, exec .collectiveComplete s = .next t ∧
      t.mem = s.mem ∧ t.teams = s.teams ∧ t.xeOp num = some y ∧ y.cmd.plan = some plan ∧
      (x.cmd.result = 0 → x.cmd.dst + (x.output s.fab.chip).length ≤ 2 ^ 64 →
        (∀ b ∈ x.output s.fab.chip, b.err = none ∧ b.mask ≠ 0) →
        planBytes plan = (x.output s.fab.chip).zipIdx.map (fun b => (x.cmd.dst + b.2, b.1.mask, b.1.val)) ∧
          planCount plan = (x.output s.fab.chip).length)) ∧
    (∀ code more, x.cmd.plan = some (.fail code 0 0 :: more) → x.cmd.fw = false → s.arrivePlace x.cmd.team x.cmd.arriveAddr = none →
      (s.team x.cmd.team).seq.exited = false → SeqHandled s x.cmd.team → ∃ t, exec .collectiveComplete s = .next t ∧ t.mem = s.mem ∧
        (t.team x.cmd.team).seq.pending = (s.team x.cmd.team).seq.pending ++ [⟨0x0C, code, 0⟩] ∧
        ∀ y ∈ t.fab.xe, y.cmd.num ≠ num) ∧
    (∀ va bytes poison key more runs u, x.cmd.plan = some (.write va bytes poison key :: more) →
      s.checkAccess (s.cmdWho x.cmd) x.cmd.core .store true true true va bytes.length = (.ok runs, u) →
      (u.engineWaits x.cmd runs = true → exec .collectiveComplete s = .next u) ∧
      (∀ l k, runs = [(l, bytes.length)] → PlainPlace u l bytes.length k → u.engineWaits x.cmd runs = false →
        u.inHost l = false ∨ poison = false → x.cmd.arriveAddr = 0 → (∀ y ∈ u.fab.fwd, y.owner ≠ .engine num) →
        let left := match more with
          | .count _ :: r => r
          | r => r
        ∃ t, exec .collectiveComplete s = .next t ∧
        (∀ j m v, bytes[j]? = some (m, v) → m < 256 → v < 256 →
          (t.byte (k + j)).toNat = (v &&& m) ||| ((u.byte (k + j)).toNat &&& (255 - m))) ∧
        OnlyBytes u t k bytes.length ∧ t.teams = u.teams ∧
        (left = [] → ∀ y ∈ t.fab.xe, y.cmd.num ≠ num) ∧
        (left ≠ [] → s.xeOp num = u.xeOp num → ∃ y, t.xeOp num = some y ∧ y.cmd.plan = some left ∧ y.cmd.claims = planKeys left)))) ∧
  (∀ (x : XeOp) (chip k w : Nat) (sg : Bool), x.rerun = false → x.cmd.rop = 0 → x.cmd.op = 0x11 ∨ x.cmd.op = 0x12 →
    laneKind x.cmd.ty = .int sg w → x.taking ≠ [] →
    let at_ := (if x.cmd.op = 0x12 then x.cmd.count * (x.parties.takeWhile (fun p => decide (p ≠ chip))).length else 0) + k
    let part := fun (p : Nat) => leNat ((((x.sourceOf chip p).drop (at_ * (w / 8))).take (w / 8)).map (·.1))
    let es := x.element chip k
    es.length = w / 8 ∧
      leNat (es.map (fun b => BitVec.ofNat 8 b.val)) = ((x.taking.map part).sum) % 2 ^ w ∧ ∀ b ∈ es, b.mask = 255 ∧ b.err = none) ∧
  (∀ (x : XeOp) (chip : Nat),
    let bytes := fun (p : Nat) => (x.sourceOf chip p).map (fun b => ((255 : Nat), b.1.toNat, b.2))
    let out := (x.output chip).map (fun b => (b.mask, b.val, b.poison))
    ((x.cmd.op = 0x14 ∨ x.cmd.op = 0x16) → out = bytes x.cmd.peer) ∧
    (x.cmd.op = 0x15 → out = []) ∧
    (x.cmd.op = 0x13 → (∀ p ∈ x.parties, p ∈ x.taking) → out = x.parties.flatMap bytes))

/-- A tick boundary (R220, R322, R345, R347 to R349, R353 to R355, R367): it waits for what the present boundary still has to
bring; then the counter moves on by one, and where no answer to a forwarded access comes nothing but the fabric changes; a
flit that was enqueued leaves with its number; a delivered one advances what is expected of its source, raises suspicion
where it shows a gap, and is discarded where its tag is not the view's; an answer stands with the access that waits for it,
or ends a write; an operation that runs sends the parts that its schedule gives the tick; on an isolated chip no event
begins a round.

The servo, the Wayline ports and a stop (R345, R350, R370): each port goes from the state that its event names to the
next and no other port moves; a training that times out is reported; what a stopped chip enqueued in its last tick
stays unsent.

Suspicions, join notices and views (R321, R323, R351, R354 to R357, R364): an event that is raised goes to every
member, once; at a round's end the view loses the suspected members and gains the joiners where more than half of the
old view stays, and is isolated else; a view that firmware or a VIEWREC brings is installed whole; frames of chips that
the view in force does not name are lost, and an operation in flight on an isolated chip ends with status 0x05 and traps
its team.
What ignores the send quota, the schedule's form, that the raiser receives its own event, and what becomes of
forwarded accesses are the model's (logs 2, 14, 39, 40, 41 and 57). -/
def Obligations.TicksViewsAndPorts : Prop :=
  (∀ (s : State) (l : List Flit), s.turn = .event .tickBoundary (.flits l) →
     (s.fab.pending = true → exec .tickBoundary s = .next s) ∧
     (s.fab.pending = false → s.fab.olds = [] → s.fab.refused = [] →
       (∀ x ∈ l ++ s.fab.outbox.map (·.2), ∀ tag bs p h o, x.body = .fwdReply tag bs p h o → h = none ∧ o = none) →
       ∃ t, exec .tickBoundary s = .next t ∧ t = { s with fab := t.fab } ∧
       t.fab.tick = s.fab.tick + 1 ∧ t.fab.vnum = s.fab.vnum ∧ t.fab.members = s.fab.members ∧ t.fab.isol = s.fab.isol ∧
       (∀ x : Flit, s.fab.outbox = [(s.fab.tick, x)] → ∃ r, t.fab.outbox =
           (s.fab.tick, { x with seq := SMap.get 0 s.fab.seqOut x.dst }) :: r ∧
         SMap.get 0 t.fab.seqOut x.dst = (SMap.get 0 s.fab.seqOut x.dst + 1) % 2 ^ 32) ∧
       (∀ x : Flit, l = [x] → x.fits = true → x.dst = s.fab.chip → (∀ y ∈ s.fab.outbox, y.2.dst ≠ s.fab.chip) →
         -- the first of a source whose numbers begin anew bears 0
         let anew := ∃ y ∈ s.fab.seqFresh, y.1 = x.src ∧ y.2 ≤ fullTick (s.fab.tick + 1) x.tick
         SMap.get 0 t.fab.seqIn x.src = (x.seq + 1) % 2 ^ 32 ∧
         (s.fab.member = true → s.fab.isol = false → (anew → x.seq ≠ 0) → (¬ anew → x.seq ≠ SMap.get 0 s.fab.seqIn x.src) →
           x.src ∈ t.fab.gaps) ∧
         (x.body.tagged = true → x.vtag ≠ s.fab.vnum.toNat % 2 ^ 16 →
           t.fab.discards = s.fab.discards + 1 ∧ t.fab.beacons = s.fab.beacons ∧ t.fab.events = s.fab.events) ∧
         (x.vtag = s.fab.vnum.toNat % 2 ^ 16 → x.body = .beacon →
           (x.src, fullTick (s.fab.tick + 1) x.tick) ∈ t.fab.beacons) ∧
         (∀ c b, s.fab.isol = true → x.body = .suspect c b ∨ x.body = .notice c b →
           t.fab.events = s.fab.events ∧ t.fab.round = s.fab.round) ∧
         (∀ tag bs p, x.body = .fwdReply tag bs p none none →
           ∀ y, s.fab.fwd = [y] → (∀ z ∈ s.fab.xe, z.ready ≠ none) →
           (y.tag = tag ∧ y.chip = x.src → (y.write = false ∨ ∃ n, y.owner = .engine n) →
             t.fab.fwd = [{ y with reply := some (bs, p), host := none, old := none, stamps := (0, 0) }]) ∧
           (y.tag = tag ∧ y.chip = x.src → y.write = true → (∀ n, y.owner ≠ .engine n) → (∀ c n, y.owner ≠ .flit c n) →
             t.fab.fwd = []) ∧
           (y.tag ≠ tag ∨ y.chip ≠ x.src → t.fab.fwd = [y]))) ∧
       (∀ x b row, s.fab.xe = [x] → l = [] → s.fab.outbox = [] → x.begun = some b → x.togo ≠ [] → s.fab.row x.cmd = some row →
         let gone := if row.length ≤ s.fab.tick + 1 - b + 1 then x.togo.length else row.getD (s.fab.tick + 1 - b) 0
         t.fab.xe = [{ x with togo := x.togo.drop gone }]))) ∧
  (∀ (s : State) (i : Instr) (a : EvArg), s.turn = .event i a →
    (i = .servoOffsetExceeded → exec i s = .next { s with fab := { s.fab with servo := true } }) ∧
    (i = .servoOffsetRestored → exec i s = .next { s with fab := { s.fab with servo := false } }) ∧
    (i = .chipStop → ∃ t, exec i s = .next t ∧ t.chipStopped = true ∧ t.mem = s.mem ∧ t.teams = s.teams ∧ t.fab.unsent = [] ∧
      ∀ x, x ∈ t.fab.outbox ↔ x ∈ s.fab.outbox ∧ x.1 < s.fab.tick)) ∧
  (∀ (s : State) (i : Instr) (p : Nat) (src dst : PortState) (told : Nat), p < 16 → s.turn = .event i (.nat p) →
    (i, src, dst, told) ∈ [(Instr.portEnable, PortState.down, PortState.training, 0), (.portUp, .training, .up, 0),
      (.trainingTimeout, .training, .down, 1), (.lossOfSignal, .up, .down, 0),
      (.portDisable, .up, .down, 0), (.portDisable, .training, .down, 0), (.portDisable, .down, .down, 0)] →
    (s.fab.port p = src → ∃ t, exec i s = .next t ∧ t = { s with fab := { s.fab with ports := t.fab.ports, reports := s.fab.reports + told } } ∧
      t.fab.port p = dst ∧ ∀ n, n ≠ p → t.fab.port n = s.fab.port n) ∧
    (s.fab.port p ≠ src → i ≠ .portDisable → exec i s = .next s)) ∧
  (∀ (s : State) (c : Nat), s.fab.viewDue = false →
    let raised := fun (t : State) (b : FlitBody) => t.fab.outbox.map (fun y => (y.1, y.2.dst, y.2.body)) =
      s.fab.outbox.map (fun y => (y.1, y.2.dst, y.2.body)) ++ s.fab.members.map (fun m => (s.fab.tick, m, b))
    (s.turn = .event .raiseSuspicion (.nat c) → c ∈ s.fab.suspects ++ s.fab.gaps → ∃ t, exec .raiseSuspicion s = .next t ∧
      t = { s with fab := t.fab } ∧ t.fab.suspects = s.fab.suspects.filter (fun x => decide (x ≠ c)) ∧ c ∉ t.fab.gaps ∧ raised t (.suspect c s.fab.tick)) ∧
    (s.turn = .event .joinNotice (.nat c) → c ∈ s.fab.joins → s.fab.member = true → c ∉ s.fab.members →
      ∃ t, exec .joinNotice s = .next t ∧ t = { s with fab := t.fab } ∧
        t.fab.joins = s.fab.joins.filter (fun x => decide (x ≠ c)) ∧ t.fab.sponsored = s.fab.sponsored ++ [c] ∧
        raised t (.notice c s.fab.tick))) ∧
  (∀ s : State, s.turn = .event .viewInstallation .none → s.fab.viewDue = true →
    (∀ x ∈ s.fab.xe, x.due s.fab = false) →
    let f := s.fab
    let stays := f.members.filter (fun m => !f.events.contains (m, false))
    (f.members.length < 2 * (stays).length → ∃ t, exec .viewInstallation s = .next t ∧ t.mem = s.mem ∧
      t.fab.vnum = f.vnum + 1 ∧ t.fab.isol = false ∧ t.fab.round = none ∧ t.fab.events = [] ∧ t.fab.installed = f.tick ∧
      (∀ m, m ∈ t.fab.members ↔ m ∈ stays ∨ ((m, true) ∈ f.events ∧ m ∉ f.members)) ∧
      ∀ g, entryLoc (s.frame g) = 5 → entryLocation (s.frame g) / 2 ^ 30 ∉ t.fab.members → entryLoc (t.frame g) = 7) ∧
    (2 * (stays).length ≤ f.members.length → ∃ t, exec .viewInstallation s = .next t ∧ t.mem = s.mem ∧
      t.fab.vnum = f.vnum ∧ t.fab.isol = true ∧ t.fab.round = none ∧ t.fab.events = [] ∧ t.fab.members = f.members ∧
      (∀ x, f.xe = [x] → f.xeq = [] → x.cmd.plan = none → (s.team x.cmd.team).seq.exited = false →
        (t.team x.cmd.team).seq.pending = (s.team x.cmd.team).seq.pending ++ [⟨9, 4, 0⟩] ∧
        ∃ y, t.fab.xe = [y] ∧ y.cmd.plan = some (s.recordItem x.cmd 5 x.cmd.old 0)))) ∧
  (∀ (s : State) (v : BitVec 32) (ms : List Nat),
    (s.turn = .event .firmwareViewInstall (.view v ms) → ∃ t, exec .firmwareViewInstall s = .next t ∧ t.mem = s.mem ∧
      t.fab.vnum = v ∧ t.fab.isol = false ∧ t.fab.round = none ∧ t.fab.loaded = false ∧
      ∀ m, m ∈ t.fab.members ↔ m ∈ ms ∧ m < 4096) ∧
    (s.turn = .event .viewrec .none →
      (s.fab.viewParts = none → exec .viewrec s = .next s) ∧
      (s.fab.viewParts = some (v.toNat, ms) → s.fab.rejoining = true → ∃ t, exec .viewrec s = .next t ∧ t.mem = s.mem ∧
        t.fab.vnum = v ∧ t.fab.members = ms ∧ t.fab.viewrecs = [] ∧ t.fab.rejoining = !ms.contains s.fab.chip) ∧
      (s.fab.viewParts = some (v.toNat, ms) → s.fab.rejoining = false → ∃ t, exec .viewrec s = .next t ∧
        t = { s with fab := { s.fab with viewrecs := [] } })))

/-- Code objects (R96, R123 to R127): a load that fails a check reports the first one's status and places nothing; one of
level 2 is resident at once, with its bytes in device memory, and one of level 1 is translated first, every field of its
header and entries but the code's places kept and WIDTH made 32; code that does not rewrite every instruction in its place
fails; each request waits while the management image hands over, and is counted as it completes; an object with references drains, and one without them
is unloaded and its lines leave every instruction cache.

Firmware images (R354, R367, R382 to R387, R389, R390): a staged image that verifies stands ready with its bytes, another
is refused with its status; a hand-over is requested for a verified image whose keys the life-cycle state accepts and runs
alone, with packets, and in one of the management image mailbox requests, waiting; it takes place at the safe point, which for
the fabric's image lies outside rounds and the loading of a schedule, and with a record that the new image accepts, is logged
as event 0x02, and the requests that have waited are then served; each request is counted as it completes; heartbeats keep an image, a hundred
windows make a shadow image active, and three missed windows bring the retained one back, as event 0x03.
What a level-1 word becomes is an open function (log 8), the signatures follow the public standards and the fused keys
are open (log 9), a hand-over's steps 3 and 4 are one step, and an unlisted field is reserved, by the model's choice
(logs 51 and 76). -/
def Obligations.ObjectsAndImages : Prop :=
  (∀ (s : State) (pa : Nat) (img : List Byte), s.turn = .event .loadRequest (.natBytes pa img) →
    let k := s.dsp.nextObj
    let fails := fun (code : Nat) => ∃ t, exec .loadRequest s = .next t ∧ OnlyDispatcher s t ∧ t.dsp.nextObj = k + 1 ∧
      t.obj k = { report := [code] } ∧ t.dsp.mbstat = s.dsp.mbstat + 1 ∧ ∀ j, j ≠ k → t.obj j = s.obj j
    (s.fw.handing = some 1 → exec .loadRequest s = .next s) ∧
    (s.fw.handing ≠ some 1 →
      (headerOk img = false → fails 0x10) ∧
      let good := headerOk img = true ∧ ∀ e ∈ objEntries img, entryOk img e = true ∧
        (objLevel img = 1 → entryOk img { e with width := 32 } = true)
      let stuck := objLevel img = 1 ∧ levelTwoCode img = none
      (headerOk img = true → ¬ good → fails 0x11) ∧
      (good → s.backed pa img.length = false → stuck → fails 0x12) ∧
      (good → s.backed pa img.length = false → ¬ stuck → fails 0x13) ∧
      (good → s.backed pa img.length = true →
        ∃ t, exec .loadRequest s = .next t ∧ t.dsp.nextObj = k + 1 ∧ t.teams = s.teams ∧
          t.obj k = (if objLevel img = 2 then { st := .resident, pa := pa, image := img, report := [0] }
            else { st := .translating, pa := pa, image := img }) ∧
          t.dsp.mbstat = (if objLevel img = 2 then s.dsp.mbstat + 1 else s.dsp.mbstat) ∧ ∀ j, j ≠ k → t.obj j = s.obj j))) ∧
  (∀ (s : State) (k : Nat), s.turn = .event .translation (.nat k) → (s.obj k).st = .translating →
    let o := s.obj k
    let fails := fun (code : Nat) => ∃ t, exec .translation s = .next t ∧ OnlyDispatcher s t ∧
      t.obj k = { o with st := .unloaded, image := [], report := o.report ++ [code] } ∧ t.dsp.mbstat = s.dsp.mbstat + 1
    (Config.levelOneCode o.image = none → fails 0x12) ∧
    (∀ code, Config.levelOneCode o.image = some code → rewrites o.image code = false → fails 0x12) ∧
    (∀ code, Config.levelOneCode o.image = some code → rewrites o.image code = true →
      let img := levelTwo o.image code
      (s.backed o.pa img.length = false → fails 0x13) ∧
      (s.backed o.pa img.length = true → ∃ t, exec .translation s = .next t ∧ t.teams = s.teams ∧
        t.obj k = { o with st := .resident, image := img, report := o.report ++ [0] } ∧ t.dsp.mbstat = s.dsp.mbstat + 1) ∧
      (64 + 32 * objNentry o.image ≤ o.image.length → objLevel img = 2 ∧ objNentry img = objNentry o.image ∧ objDataSize img = objDataSize o.image ∧
        ∀ n, n < objNentry o.image → imageNat img (64 + 32 * n + 8) 1 = 32 ∧
          part img (64 + 32 * n + 9) 23 = part o.image (64 + 32 * n + 9) 23))) ∧
  (∀ (s : State) (k : Nat), s.turn = .event .unloadRequest (.nat k) →
    (s.fw.handing = some 1 → exec .unloadRequest s = .next s) ∧
    (s.fw.handing ≠ some 1 →
      ((s.obj k).st = .resident → s.references k ≠ 0 → ∃ t, exec .unloadRequest s = .next t ∧ OnlyDispatcher s t ∧
        t.dsp.mbstat = s.dsp.mbstat + 1 ∧
        t.obj k = { s.obj k with st := .draining, report := (s.obj k).report ++ [s.references k] }) ∧
      ((s.obj k).st = .resident → s.references k = 0 → ∃ t, exec .unloadRequest s = .next t ∧ t.mem = s.mem ∧ t.teams = s.teams ∧
        t.dsp.mbstat = s.dsp.mbstat + 1 ∧ t.obj k = { s.obj k with st := .unloaded, image := [] } ∧
        let lo := (s.obj k).pa + objCodeOff (s.obj k).image
        let hi := lo + objCodeSize (s.obj k).image
        ∀ c, ∀ e ∈ (t.coreAt c).icache, e ∈ (s.coreAt c).icache ∧ (e.1 < lo / 64 ∨ (hi + 63) / 64 ≤ e.1)) ∧
      ((s.obj k).st = .draining → ∃ t, exec .unloadRequest s = .next t ∧ OnlyDispatcher s t ∧
        t.dsp.mbstat = s.dsp.mbstat + 1 ∧ t.obj k = { s.obj k with report := (s.obj k).report ++ [s.references k] }))) ∧
  (∀ (s : State) (img : List Byte), s.turn = .event .stageImage (.bytes img) →
    (s.fw.handing = some 1 → exec .stageImage s = .next s) ∧
    (s.fw.handing ≠ some 1 → ∃ t, exec .stageImage s = .next t ∧ t = { s with fw := t.fw, dsp := t.dsp } ∧
      t.dsp.mbstat = s.dsp.mbstat + 1 ∧ t.fw.att = s.fw.att ∧ t.fw.minima = s.fw.minima ∧
      (s.verifies img = true → t.fw.status = 0 ∧ t.fw.staging = verifiedImage img ∧ t.fw.staging.bytes = img) ∧
      (s.verifies img = false → t.fw.status = 3 ∧ t.fw.staging = {}) ∧
      ∀ k, t.kind k = if (s.kind k).retained.st = .rolledBack then { s.kind k with retained := {} } else s.kind k)) ∧
  (∀ (s : State) (k : Nat), s.turn = .event .handOver (.nat k) →
    let i := s.fw.staging
    let ready := i.st = .verified ∧ i.kind = k ∧ s.fw.keys = keysOf i.bytes
    let answers := fun (n : Nat) => ∃ t, exec .handOver s = .next t ∧ OnlyDispatcher { s with fw := { s.fw with status := n } } t ∧
      t.dsp.mbstat = s.dsp.mbstat + 1
    (s.fw.handing ≠ none → answers 1) ∧
    (s.fw.handing = none → ¬ ready → answers 2) ∧
    (s.fw.handing = none → ready → exec .handOver s = .next { s with fw := { s.fw with handing := some k } })) ∧
  (∀ (s : State) (q : Nat), s.fw.handing ≠ none → ∀ i : Instr, (∃ k, i = packetEventOf k) ∨ i = .dependenceReread →
    s.turn = .event i (.nat q) → exec i s = .next s) ∧
  (∀ (s : State) (k : Nat) (r : List Byte), s.turn = .event .handOver (.natBytes k r) →
    let i := s.fw.staging
    let ready := i.st = .verified ∧ i.kind = k ∧ s.fw.keys = keysOf i.bytes
    let f := s.fab
    let opens := fun (b : FlitBody) => ∃ c n, b = .suspect c n ∨ b = .notice c n
    let safe := k ≠ 3 ∨ (f.round = none ∧ f.suspects = [] ∧ f.gaps = [] ∧ f.joins = [] ∧ (∀ x ∈ f.outbox, ¬ opens x.2.body) ∧
      (f.loaded = true ∨ f.member = false))
    -- the hand-over ends in u, and what has waited is served
    let ends := fun (u : State) => exec .handOver s = .next (s.fw.waiting.foldl State.serveRequest u) ∧
      u = { s with fw := u.fw, dsp := u.dsp } ∧ u.fw.handing = none ∧ u.fw.waiting = [] ∧ u.dsp.mbstat = s.dsp.mbstat + 1
    (s.fw.handing ≠ some k ∨ ¬ safe → exec .handOver s = .next s) ∧
    (s.fw.handing = some k → safe →
      (¬ ready ∨ recordOk i r = false → ∃ u, ends u ∧ u.fw = { s.fw with status := 2, handing := none, waiting := [] }) ∧
      (ready → recordOk i r = true → ∃ u, ends u ∧ u.fw.status = 0 ∧ u.fw.staging = {} ∧
        u.kind k = { inForce := { i with st := .shadow }, retained := { (s.kind k).inForce with st := .retained }, handed := r } ∧
        (∀ j, j ≠ k → u.kind j = s.kind j) ∧
        u.fw.att = s.fw.att ++ [⟨2, k, i.svn, BitVec.ofNat 64 s.fab.tick, i.measure⟩] ∧
        u.fw.fwLast = BitVec.ofNat 32 s.fw.att.length ∧ u.fw.fwCount = s.fw.fwCount + 1))) ∧
  (∀ (s : State) (k : Nat) (r : Option (List Byte)), 1 ≤ k → k ≤ 3 → s.turn = .event .heartbeat (.natOptBytes k r) →
    ∃ t, exec .heartbeat s = .next t ∧ t = { s with fw := t.fw } ∧ (∀ j, j ≠ k → t.kind j = s.kind j) ∧
      t.kind k = { s.kind k with beat := true, records := (r.map (fun b => (stateVer b, b))).toList ++ (s.kind k).records }) ∧
  (∀ (s : State) (k : Nat), 1 ≤ k → k ≤ 3 → s.turn = .event .heartbeatWindowEnd (.nat k) →
    let x := s.kind k
    let missed := if x.beat then 0 else x.missed + 1
    ∃ t, exec .heartbeatWindowEnd s = .next t ∧ t = { s with fw := t.fw } ∧ (∀ j, j ≠ k → t.kind j = s.kind j) ∧
      (t.kind k).beat = false ∧
      (missed ≠ 3 → t.kind k = { x with
        beat := false, missed := missed, windows := x.windows + 1
        inForce := if x.inForce.st = .shadow ∧ 100 ≤ x.windows + 1 then { x.inForce with st := .active } else x.inForce } ∧
        t.fw.att = s.fw.att) ∧
      (missed = 3 → x.retained.st = .retained → x.inForce.st = .shadow ∨ x.inForce.st = .active →
        (t.kind k).inForce = { x.retained with st := .active } ∧ (t.kind k).retained = { x.inForce with st := .rolledBack } ∧
        t.fw.att = s.fw.att ++ [⟨3, k, x.retained.svn, BitVec.ofNat 64 s.fab.tick, x.retained.measure⟩]) ∧
      (missed = 3 → x.retained.st ≠ .retained → x.inForce.st = .active → (t.kind k).inForce = x.inForce ∧
        t.fw.att = s.fw.att ++ [⟨1, k, x.inForce.svn, BitVec.ofNat 64 s.fab.tick, x.inForce.measure⟩]))

/-- Resets and life-cycle changes (R98, R370, R386, R390): every memory of the module reads zero and every context is
free, while host memory, storage, the fused minima, the life-cycle state and the domain's tick stay; the images in
force are measured as they boot; a life-cycle change waits for an image in shadow and is the first entry of the log.

Rollback, audit, repair and ageing (R104, R322, R344, R371 to R380): a rollback waits for the grid's accesses on other
chips and then gives every logged line its bytes and poison back, in reverse order, another chip's by a write that is sent
there, and the grid starts its interval again: from its first team, or from the images of its teams with what they waited
for; a replay that faults or whose signature differs is logged; a
repair request is logged, and a row whose bank group has a spare left spends it, is quiesced and then repaired, or repaired at
the next reset; a crossing
of the ageing threshold is logged.
That a warm reset is as a module reset, what a reset keeps, what a rollback does to other chips' lines, that a
replay's outcome is an operand and how spares are counted are the model's reading (logs 26, 48, 52, 87 and 88). -/
def Obligations.ResetsRollbackAndRepair : Prop :=
  (∀ (s : State) (i : Instr) (a : EvArg), s.turn = .event i a →
     let wiped := fun (t : State) => (∀ k, t.byte k = if 3 * 2 ^ 56 ≤ k ∧ k < 5 * 2 ^ 56 then s.byte k else 0) ∧
       t.teams = [] ∧ t.grids = [] ∧ t.ctxs = [] ∧ t.tlb = [] ∧ t.cores = [] ∧ t.frames = [] ∧ t.lines = [] ∧ t.parked = [] ∧
       t.chipStopped = false ∧ t.dsp.queues = [] ∧ t.dsp.objs = [] ∧ t.fab.tick = s.fab.tick ∧ t.fab.chip = s.fab.chip ∧
       t.fw.minima = s.fw.minima ∧ t.fw.staging = s.fw.staging ∧ t.fw.handing = none ∧ t.dsp.spares = s.dsp.spares ∧ t.dsp.repaired = s.dsp.repaired ++ s.dsp.hardList ∧ t.dsp.hardList = [] ∧
       t.fw.fwCount = 0 ∧ t.schedule = s.schedule
     let boots := [1, 2, 3].map (fun k => ((1 : Nat), k, (s.kind k).inForce.svn, (s.kind k).inForce.measure))
     let logged := fun (t : State) => t.fw.att.map (fun e => (e.event, e.kind, e.svn, e.digest))
     (i = .moduleReset ∨ i = .warmReset → ∃ t, exec i s = .next t ∧ wiped t ∧ t.fw.life = s.fw.life ∧ logged t = boots) ∧
     (∀ l, i = .lifeCycleChange → a = .life l →
       ((∃ k, 1 ≤ k ∧ k ≤ 3 ∧ (s.kind k).inForce.st = .shadow) → exec i s = .next s) ∧
       ((∀ k, 1 ≤ k → k ≤ 3 → (s.kind k).inForce.st ≠ .shadow) → ∃ t, exec i s = .next t ∧ wiped t ∧ t.fw.life = l ∧
         (∃ e, logged t = e :: boots ∧ e.1 = 4 ∧ e.2.1 = 0)))) ∧
  (∀ (s : State) (k : Nat), s.turn = .event .rollback (.nat k) →
    let i := (s.grid k).interval
    let g := s.grid k
    let free := ∀ c ∈ s.cores.flatMap (fun c => c.2.ce) ++ s.fab.xe.map (·.cmd) ++ s.dsp.pg, keyGrid c.team ≠ k
    let opened := fun (t : State) => (t.grid k).interval = { i with st := .opened, undo := [], rolls := i.rolls + 1 } ∧
      (t.grid k).deferred = i.deferred ∧ (t.grid k).placed = []
    let quiet := ∀ x ∈ s.fab.fwd, x.grid = k → x.reply ≠ none
    (i.st ≠ .rolling ∨ ¬ quiet → exec .rollback s = .next s) ∧
    (i.st = .rolling → quiet → i.first = true → free →
      ∃ t, exec .rollback s = .next t ∧ opened t ∧ (t.grid k).nextIx = g.base ∧
        (t.grid k).retired = (if g.source ≠ 0 then 0 else g.base) ∧
        (∀ tk, keyGrid tk = k → t.team tk = {}) ∧ (∀ tk, keyGrid tk ≠ k → t.team tk = s.team tk) ∧
        (i.undo = [] → ∀ a, a < 2 ^ 63 → t.byte a = s.byte a) ∧
        (∀ u key, i.undo = [u] → s.reach (.pa (u.line * 64)) = .here key → s.inHost (.pa (u.line * 64)) = false → u.bytes.length = 64 →
          (∀ j b, u.bytes[j]? = some b → t.byte (key + j) = b) ∧ (t.line (key / 64)).poison = u.poison ∧
          ∀ a, a < 2 ^ 63 → a < key ∨ key + 64 ≤ a → t.byte a = s.byte a) ∧
        (∀ u c f, i.undo = [u] → s.reach (.pa (u.line * 64)) = .remote c f → u.bytes.length = 64 →
          (∀ a, a < 2 ^ 63 → t.byte a = s.byte a) ∧
          Sent s t c (.fwdWrite s.fab.nextTag (f * 4096 + u.line * 64 % 4096) u.bytes u.poison false))) ∧
    (∀ c, i.st = .rolling → quiet → i.first = false → free → i.undo = [] → i.images = [c] → keyGrid c.key = k →
      ∃ t, exec .rollback s = .next t ∧ opened t ∧ (t.grid k).nextIx = g.nextIx ∧
        t.team c.key = { c.team with st := .swapped, slots := [], sram := [], closing := false, swapNo := s.dsp.nextSwap } ∧
        (∀ p ∈ c.parked, p ∈ t.parked) ∧ (∀ x ∈ c.releases, x ∈ t.releases) ∧
        (c.bytes.Pairwise (fun x y => x.1 ≠ y.1) → ∀ e ∈ c.bytes, t.byte e.1 = e.2) ∧
        ∀ l ∈ c.poisoned, (t.line l).poison = true)) ∧
  (∀ (s : State) (idx : Nat) (x : Audit) (rest : List Audit) (r : AuditResult), s.turn = .event .auditReplay (.audit idx r) →
    s.dsp.audits.drop idx = x :: rest → s.dsp.log.length < s.dsp.logCap →
    ∃ t, exec .auditReplay s = .next t ∧ OnlyDispatcher s t ∧ t.dsp.audits = s.dsp.audits.eraseIdx idx ∧
      t.dsp.log = s.dsp.log ++ (match r with
        | .ran g => if g = x.signature then [] else [⟨6, x.asid % 512, x.seq, BitVec.ofNat 64 x.ix, 0, BitVec.ofNat 64 s.fab.tick⟩]
        | .faulted => [⟨7, x.asid % 512, x.seq, BitVec.ofNat 64 x.ix, 0, BitVec.ofNat 64 s.fab.tick⟩])) ∧
  (∀ (s : State) (i : Instr) (r : HbmRow), s.turn = .event i (.row r) → i = .softRepair ∨ i = .hardRepair →
    let there := r.stack < 16 ∧ r.channel < 64 ∧ r.row < 2 ^ 32
    (¬ there → exec i s = .next s) ∧
    (there → ∃ t, exec i s = .next t ∧ OnlyDispatcher s t ∧ t.sparesOf r = s.sparesOf r - 1 ∧
      t.dsp.log.length + t.dsp.logDropped = s.dsp.log.length + s.dsp.logDropped + 1 ∧
      t.dsp.quiesced = (if i = .softRepair ∧ s.sparesOf r ≠ 0 then s.dsp.quiesced ++ [r] else s.dsp.quiesced) ∧
      t.dsp.hardList = (if i = .hardRepair ∧ s.sparesOf r ≠ 0 then s.dsp.hardList ++ [r] else s.dsp.hardList))) ∧
  (∀ (s : State) (st ch : Nat), s.turn = .event .repairQuiesceEnd (.nat2 st ch) →
    let mine := fun (r : HbmRow) => decide (r.stack = st ∧ r.channel = ch)
    (∀ r, s.dsp.quiesced.find? mine = some r → ∃ t, exec .repairQuiesceEnd s = .next t ∧ OnlyDispatcher s t ∧
      t.dsp.quiesced = s.dsp.quiesced.erase r ∧ t.dsp.repaired = s.dsp.repaired ++ [r]) ∧
    (s.dsp.quiesced.find? mine = none → exec .repairQuiesceEnd s = .next s)) ∧
  (∀ (s : State) (die : Nat) (w : Word), die < 4 → s.turn = .event .ageingThreshold (.natWord die w) →
    s.dsp.log.length < s.dsp.logCap → ∃ t, exec .ageingThreshold s = .next t ∧ OnlyDispatcher s t ∧
      let wear := Nat.min 1000 (w.extractLsb' 0 10).toNat
      (t.ageing die).extractLsb' 16 32 = w.extractLsb' 16 32 ∧ wearOf (t.ageing die) = wear ∧
      (t.ageing die).toNat < 2 ^ 48 ∧ (t.ageing die).extractLsb' 10 6 = 0 ∧ (∀ d, d ≠ die → t.ageing d = s.ageing d) ∧
      t.dsp.log = s.dsp.log ++ (if wearOf (s.ageing die) < s.dsp.ageLimit ∧ s.dsp.ageLimit ≤ wear then
        [⟨0x0A, 0, 0, 0, 0, BitVec.ofNat 64 s.fab.tick⟩] else []))

/-! ## Every form -/

/-- Barriers, buffered reductions, sequencer accesses and fences complete (R87, R148, R150, R210, R238, R303 to R308): in
automatic mode with a party still out an arrival counts once and its stream goes on or waits; RED.D whose checks pass
adds an entry to its buffer for each lane, and the lanes go on; SLD of one piece in plain memory reads it, SST stores it there or in the buffer; a fence with nothing
to wait for goes on.

Events of queues, registers, teams, forces and contexts take place where their conditions hold (R98, R99, R108, R116, R118, R125, R133 to R137, R142 to R144,
R155, R246, R258, R271, R319, R389).

Events of the engines, of pages and of the fabric take place where their conditions hold (R234 to R236, R254, R321, R322, R325 to R329, R345, R350,
R354 to R357, R359 to R361).

Events of the device, its firmware and its upkeep take place where their conditions hold (R124, R125, R316, R323, R370, R375, R376 to R380, R382 to R386,
R94).
The clauses rest on the model's choices where these logs name them: 2, 4, 5, 10, 14, 15, 26, 36, 37, 40, 41, 42, 51,
52, 58, 63 and 67; packets, breakpoints, releases and launch frames complete in statements of their own. -/
def Obligations.FormsTakeEffect : Prop :=
  (∀ (b : BitVec 4) (s s1 : State) (r : Run) (out : Nat), s.issuing = some (r, s1) → r.lanes ≠ [] →
    let x := (s1.team r.team).bar b.toNat
    x.expected = 0 → out < (s1.gridOf r.team).launch.lanes → out ∉ r.lanes → (laneAt s1 r out).exited = false →
    (laneAt s1 r out).arrived.getLsbD b.toNat = false → (laneAt s1 r out).wait ≠ some (b.toNat, x.phase) →
    let counts := fun (t : State) (w : Lane → Option (Nat × Nat)) => t.mem = s1.mem ∧
      (t.team r.team).bar b.toNat = { x with arr := x.arr + r.lanes.length, st := if x.st = .idle then .arriving else x.st } ∧
      ∀ n, laneAt t r n = if n ∈ r.lanes then { laneAt s1 r n with
          pc := (laneAt s1 r n).pc + 4, arrived := (laneAt s1 r n).arrived ||| BitVec.ofNat 16 (2 ^ b.toNat),
          wait := w (laneAt s1 r n) }
        else laneAt s1 r n
    (∃ t, exec (.barw b) s = .next t ∧
      LanesBecome s1 t r (fun _ l => { l with pc := l.pc + 4, wait := some (b.toNat, x.phase) })) ∧
    ((∀ n ∈ r.lanes, (laneAt s1 r n).arrived.getLsbD b.toNat = false) →
      (∃ t, exec (.bara b) s = .next t ∧ counts t (·.wait)) ∧
      (∃ t, exec (.baraw b) s = .next t ∧ counts t (fun _ => some (b.toNat, x.phase))))) ∧
  (∀ (f : BitVec 1) (b : BitVec 4) (s s1 : State) (tk out : Nat), SeqIssues s tk s1 →
    let q := (s1.team tk).seq
    let x := (s1.team tk).bar b.toNat
    q.sbuf = [] → q.held = none → x.expected = 0 → x.seqArr = false → out < (s1.gridOf tk).launch.lanes →
    ((s1.team tk).lane out).exited = false → ((s1.team tk).lane out).arrived.getLsbD b.toNat = false →
    ((s1.team tk).lane out).wait ≠ some (b.toNat, x.phase) →
    let y := { x with arr := x.arr + 1, seqArr := true, st := if x.st = .idle then .arriving else x.st }
    (∃ t, exec (.barBarw f b) s = .next t ∧ SeqBecomes s1 t tk { q with wait := some (.bar b.toNat x.phase) }) ∧
    (∃ t, exec (.barBara f b) s = .next t ∧ t.mem = s1.mem ∧ (t.team tk).bar b.toNat = y ∧ (t.team tk).seq = q.advance 4) ∧
    (∃ t, exec (.barBaraw f b) s = .next t ∧ t.mem = s1.mem ∧ (t.team tk).bar b.toNat = y ∧
      (t.team tk).seq = { q with wait := some (.bar b.toNat x.phase) })) ∧
  (∀ (u v : BitVec 1) (ty o : BitVec 3) (b a : BitVec 6) (s s1 s2 : State) (r : Run) (xs : List (LaneReq × Checked)),
    LaneIssues s [a.toNat, b.toNat] r s1 →
    let size := atomWidth ty.toNat / 8
    let addr := fun n => ((laneAt s1 r n).reg r.trap a.toNat).val
    s1.checkReqs r .red (r.lanes.map (fun n =>
      { lane := n, va := addr n, size := size, aligned := decide ((addr n).toNat % size = 0), hostOk := false,
        az := ((laneAt s1 r n).reg r.trap a.toNat).poison })) = (xs, s2) →
    (∀ y ∈ xs, y.1.az = false ∧ ∃ l m rest, y.2 = .ok ((l, m) :: rest)) → s1.redHeld r.team + r.lanes.length ≤ 65536 →
    ∃ t, exec (.redD u v ty o b a) s = .next t ∧
      (t.team r.team).red.length = (s2.team r.team).red.length + r.lanes.length ∧
      ∀ n ∈ r.lanes, (laneAt t r n).pc = (laneAt s2 r n).pc + 4) ∧
  (∀ (off : BitVec 8) (ty : BitVec 3) (a d : BitVec 5) (s s1 s2 : State) (tk k : Nat) (l : Loc), SeqIssues s tk s1 →
    let q := (s1.team tk).seq
    let size := [1, 2, 4, 8].getD (ty.toNat % 4) 1
    let va := q.reg a.toNat + BitVec.ofNat 64 (off.toNat * size)
    s1.checkAccess (s1.whoOf tk) (s1.coreOf tk) .load true true false va.toNat size = (.ok [(l, size)], s2) →
    PlainPlace s2 l size k → pieces [(l, size)] = [(l, size)] → s2.pace = none → q.sbuf = [] → q.parked = false →
    poisonAt s2 k size = false → (∀ m, s2.forwarded (.agent (.seq tk)) l m = none) → (s2.gridOf tk).rcd.det = false →
    s2.pieceWaits s2.parked.length { agent := .seq tk, va := va, runs := [(l, size)], op := .load d.toNat size (decide (4 ≤ ty.toNat)) }
      (l, size) = false →
    ∃ t, exec (.sld off ty a d) s = .next t ∧ t.mem = s2.mem ∧ (t.team tk).seq = ((s2.team tk).seq.setReg d.toNat
      (if 4 ≤ ty.toNat then (BitVec.ofNat (8 * size) (leNat (seenBytes s2 l k size))).signExtend 64
        else BitVec.ofNat 64 (leNat (seenBytes s2 l k size)))).advance 4) ∧
  (∀ (off : BitVec 8) (ty : BitVec 2) (b a : BitVec 5) (s s1 s2 : State) (tk k : Nat) (l : Loc), SeqIssues s tk s1 →
    let q := (s1.team tk).seq
    let size := [1, 2, 4, 8].getD ty.toNat 1
    let va := q.reg a.toNat + BitVec.ofNat 64 (off.toNat * size)
    s1.checkAccess (s1.whoOf tk) (s1.coreOf tk) .store true true false va.toNat size = (.ok [(l, size)], s2) →
    PlainPlace s2 l size k → (s2.gridOf tk).rcd.det = false → q.parked = false →
    (∀ t0 bank o, l = .spad t0 bank o → (s2.team tk).ownCapture [(l, size)] = false →
      ∃ t, exec (.sst off ty b a) s = .next t ∧ t.mem = s2.mem ∧ (t.team tk).seq.sbuf.length = q.sbuf.length + size ∧
        (t.team tk).seq.pc = (q.advance 4).pc) ∧
    (∀ pa, l = .pa pa → pieces [(l, size)] = [(l, size)] → s2.pace = none →
      let op : MemOp := .store size ((q.reg b.toNat).toNat % 2 ^ (8 * size)) false
      s2.pieceWaits s2.parked.length { agent := .seq tk, va := va, runs := [(l, size)], op := op } (l, size) = false →
      ∃ t, exec (.sst off ty b a) s = .next t ∧ OnlyBytes s2 t k size ∧ (t.team tk).seq = (s2.team tk).seq.advance 4 ∧
        ∀ j, j < size → t.byte (k + j) = BitVec.ofNat 8 ((q.reg b.toNat).toNat / 2 ^ (8 * j)))) ∧
  (∀ (s s1 : State) (tk : Nat), SeqIssues s tk s1 → ((s1.team tk).seq).sbuf = [] →
    (∃ t, exec .sctlFenceC s = .next t ∧ SeqBecomes s1 t tk ((s1.team tk).seq.advance 4)) ∧
    ((∀ x ∈ s1.fab.fwd, x.owner ≠ .agent (.seq tk)) →
      (∃ t, exec .sctlFenceD s = .next t ∧ SeqBecomes s1 t tk ((s1.team tk).seq.advance 4)) ∧
      (∃ t, exec .sctlFenceS s = .next t ∧ SeqBecomes s1 t tk ((s1.team tk).seq.advance 4)))) ∧
  (∀ s : State,
     (∀ q v, q < 256 → s.turn = .event .qtailWrite (.nat2 q v) →
       ∃ t, exec .qtailWrite s = .next t ∧ (t.queue q).tail = v % (s.queue q).size) ∧
     (∀ q, q < 256 → s.turn = .event .queueEnable (.nat q) → (s.queue q).st = .disabled →
       ∃ t, exec .queueEnable s = .next t ∧ (t.queue q).en = true ∧ (t.queue q).st = .idle) ∧
     (∀ q, q < 256 → s.turn = .event .queueDisable (.nat q) →
       ∃ t, exec .queueDisable s = .next t ∧ (t.queue q).en = false ∧ (t.queue q).st = .disabled) ∧
     (∀ q, q < 256 → s.turn = .event .errClear (.nat q) → (s.queue q).st = .error → (s.queue q).held = [] →
       ∃ t, exec .errClear s = .next t ∧ (t.queue q).err = false ∧ (t.queue q).st ≠ .error) ∧
     (∀ v, v < 64 → s.turn = .event .vectorUnmask (.nat v) →
       ∃ t, exec .vectorUnmask s = .next t ∧ t.dsp.msixMask = s.dsp.msixMask &&& ~~~(1#64 <<< v)) ∧
     (∀ w, s.turn = .event .tlbinv (.word w) →
       ∃ t, exec .tlbinv s = .next t ∧ t.dsp.tlbinvDone = s.dsp.tlbinvDone + 1 ∧ t.mem = s.mem) ∧
     (∀ l, s.turn = .event .mbdoor (.firmware l) →
       (s.fw.handing ≠ some 1 → ∃ t, exec .mbdoor s = .next t ∧ t.dsp.mbstat = s.dsp.mbstat + 1 ∧ t.mem = s.mem) ∧
       (s.fw.handing = some 1 → exec .mbdoor s = .next { s with fw := { s.fw with waiting := s.fw.waiting ++ [l] } })) ∧
     (∀ w, s.turn = .event .registerWrite (.natWord 0x400 w) →
       ∃ t, exec .registerWrite s = .next t ∧ t.dsp.mbreq = w) ∧
     (∀ a i v, s.turn = .event .stopSlotFree (.nat2 a i) → i < 16 → (s.ctx a).st ≠ .free →
       s.dispStore (some a) ((s.ctx a).rcd.bptab + 0x400 + 64 * i) (leBytes 8 0) false = (.ok (), v) →
       ∃ t, exec .stopSlotFree s = .next t ∧ t.mem = v.mem ∧
         ∀ tk, (v.team tk).stopSlot = some ((s.ctx a).rcd.bptab + 0x400 + 64 * i) → v.asidOf tk = a → (t.team tk).stopped = false ∧ (t.team tk).stopSlot = none) ∧
     (∀ a tk h i v, s.turn = .event .stopSlotScan (.nat a) → s.clearedStops a = [] → s.unrecorded a = [tk] →
       (s.team tk).stopRec = some h → s.freeStopSlot a = some i →
       s.dispStore (some a) ((s.ctx a).rcd.bptab + 0x400 + 64 * i) (s.stopBytes tk h) false = (.ok (), v) →
       ∃ t, exec .stopSlotScan s = .next t ∧ t.mem = v.mem ∧
         (t.team tk).stopSlot = some ((s.ctx a).rcd.bptab + 0x400 + 64 * i)) ∧
     (∀ q r p s2 u, Accepted s .dependenceReread q true r p s2 →
       State.actPacket q r p s2 = .done u → exec .dependenceReread s = .next (u.popPacket q)) ∧
     (∀ die col row x passed, s.turn = .event .teamPlacement (.nat3 die col row) → die < 4 → col < 16 → row < 10 →
       s.choose (die * 160 + row * 16 + col) s.candidates [] = some (x, passed) → (s.grid x.grid).started = true →
       (s.grid x.grid).endWith = none → (s.teams.map (·.1)).Nodup →
       let key := fun r => teamKey x.grid (x.cluster * (s.grid x.grid).q + r)
       (∀ r, r < (s.grid x.grid).clusterSize x.cluster → (s.team (key r)).slots = []) →
       ∃ t, exec .teamPlacement s = .next t ∧ ∀ r, r < (s.grid x.grid).clusterSize x.cluster →
         (s.team (key r)).st ≠ .retired → (t.team (key r)).st = .dispatched) ∧
     (∀ k c, s.turn = .event .loadingComplete (.nat2 k c) → (s.grid k).live = true →
       (s.grid k).placed.any (fun p => decide (p.1 = c)) = true → (s.grid k).size ≤ 2 ^ 48 → (s.grid k).launch.image.length ≤ 2 ^ 19 →
       ∃ t, exec .loadingComplete s = .next t ∧ ∀ r, r < (s.grid k).clusterSize c →
         let tk := teamKey k (c * (s.grid k).q + r)
         (s.team tk).st = .dispatched → (s.team tk).reload = false ∨ (s.team tk).seq.exited = false → (t.team tk).st = .running) ∧
     (∀ k c first q0 x, s.turn = .event .quantumExpiry (.nat2 k c) →
       (s.grid k).placed.find? (fun p => decide (p.1 = c)) = some (c, first) →
       (∃ tk ∈ (s.grid k).clusterTeams k c, (s.team tk).st = .running) →
       (∀ tk ∈ (s.grid k).clusterTeams k c, (s.team tk).st = .running → (s.team tk).qstart = q0) →
       s.quantumOf k ≤ 2 * (s.fab.tick - q0) → s.waitingFor k c first = some x →
       ∃ t, exec .quantumExpiry s = .next t ∧ ∀ tk ∈ (s.grid k).clusterTeams k c, (s.team tk).st = .running →
         (t.team tk).st = .swapped) ∧
     (∀ tk, s.turn = .event .swapOut (.nat tk) → (s.team tk).st = .swapped → (s.team tk).slots ≠ [] → s.evaluates tk = false →
       s.spadBusy tk = false → (s.team tk).seq.sbuf = [] → (s.team tk).stopRec = none → (s.gridOf tk).captured = false →
       ∃ t, exec .swapOut s = .next t ∧ (t.team tk).slots = [] ∧ (t.team tk).sram = []) ∧
     (∀ tk, s.turn = .event .exitActions (.nat tk) → (s.team tk).st = .exiting → (s.gridOf tk).interval.st ≠ .rolling →
       (s.team tk).atExit.mf.forces = [] → (s.team tk).red = [] → (s.team tk).seq.sbuf = [] → s.spadBusy tk = false →
       (s.gridOf tk).captured = false → (∀ x ∈ s.releases, x.kind ≠ .exit tk) →
       ∃ t, exec .exitActions s = .next t ∧ (t.team tk).st = .retired) ∧
     (∀ k here status, s.turn = .event .gridEnd (.nat2 k here) → (s.grid k).active = true → (s.grid k).regen = none →
       s.gridBusy k = false → (s.grid k).interval.st ≠ .rolling → (s.grid k).endWith = some status →
       ∃ t, exec .gridEnd s = .next t ∧ t.grid k = {} ∧
         ∀ a, a < 2 ^ 63 → t.byte a = (s.complete (s.grid k).cw status).byte a) ∧
     (∀ a bs u, s.turn = .event .contextLoaded (.nat a) → (s.ctx a).st = .loading → s.readBreaks a (s.ctx a).rcd = (some bs, u) →
       ∃ t, exec .contextLoaded s = .next t ∧ (t.ctx a).st = .ready ∧ (t.ctx a).bps = bs) ∧
     (∀ a, s.turn = .event .erasureComplete (.nat a) → (s.ctx a).st = .wiped → (s.ctx a).capStop = none →
       (∀ k ∈ s.gridsOf a, (s.grid k).wordDue = false) → (∀ c ∈ s.commands ++ s.dsp.pg, c.fw = true ∨ s.asidOf c.team ≠ a) →
       (∀ x ∈ s.dsp.late, x.asid ≠ some a) → ∃ t, exec .erasureComplete s = .next t ∧ t.ctx a = {}) ∧
     (∀ tk i f, s.turn = .event .forceEvaluation (.nat tk) → (s.team tk).st = .running → (s.gridOf tk).interval.st ≠ .rolling →
       nextForce (s.team tk).mf.forces = some (i, f) → f.fin = false → f.work = none →
       ∃ (t : State) (w : Work), exec .forceEvaluation s = .next t ∧
         (t.team tk).mf.forces = (s.team tk).mf.forces.set i { f with work := some w }) ∧
     (∀ core tk n r rest m t0, s.turn = .event .acqGrant (.nat core) → (s.coreAt core).acq = (tk, n, r) :: rest →
       n ≤ (s.freeAcc core).length → (s.team tk).takeBanks ((s.freeAcc core).take n) = (m, t0) →
       ∃ t, exec .acqGrant s = .next t ∧ (t.coreAt core).acq = rest ∧ (t.team tk).acc = t0.acc) ∧
     (∀ p a u, s.turn = .event .waitingAccessPerform (.nat 0) → s.parked = [p] → p.accs = [a] → s.issues p.team = true →
       s.pace = none → a.runs ≠ [] → s.stepPiece 0 p.iaddr a = .done u →
       ∃ t, exec .waitingAccessPerform s = .next t ∧ t.mem = u.mem ∧ t.parked = u.parked.eraseIdx 0) ∧
     (∀ tk vs lanes rest, s.turn = .event .bankModeSwitch (.nat tk) → (s.team tk).bmodeNext = (vs, lanes) :: rest →
       (∀ b ∈ switchedBanks (s.team tk).bmode vs, s.bankBusy tk b = false) → (∀ k, (s.team k).seq.sbuf = []) →
       ∃ t, exec .bankModeSwitch s = .next t ∧ (t.team tk).bmode = vs.getLastD (s.team tk).bmode ∧ (t.team tk).bmodeNext = rest)) ∧
  (∀ s : State,
     (∀ (i : Instr) core idx c rest va bytes key u l k, i = .copy ∧ c.op = 1 ∨ i = .copy2d ∧ c.op = 2 ∨ i = .gather ∧ c.op = 3 ∨
         i = .scatter ∧ c.op = 4 ∨ i = .fill ∧ c.op = 5 ∨ i = .planes ∧ c.op = 6 →
       s.turn = .event i (.nat2 core idx) → (s.coreAt core).ce.drop idx = c :: rest →
       (∀ d ∈ (s.coreAt core).ce.take idx, d.plan ≠ none) → c.plan = some [.write va bytes false key] →
       s.checkAccess (s.cmdWho c) c.core .store true true true va bytes.length = (.ok [(l, bytes.length)], u) →
       PlainPlace u l bytes.length k → u.engineWaits c [(l, bytes.length)] = false → c.arriveAddr = 0 →
       (∀ x ∈ u.fab.fwd, x.owner ≠ .engine c.num) → (∀ b ∈ bytes, b.1 = 255 ∧ b.2 < 256) →
       ∃ t, exec i s = .next t ∧ OnlyBytes u t k bytes.length ∧ ∀ j b, bytes[j]? = some b → (t.byte (k + j)).toNat = b.2) ∧
     (∀ idx c rest, s.dsp.pg.drop idx = c :: rest → (∀ d ∈ s.dsp.pg.take idx, d.tier ≠ c.tier) →
       let f := c.frame0 + c.pos
       let e := s.frame f
       (c.plan = none → s.pgError c = 0 → s.turn = .event .pgPin (.nat idx) → c.op = 2 → ∃ t, exec .pgPin s = .next t ∧
         FrameBecomes s t f (entryLoc e) (entryLocation e) (entryAcc e) c.pinv (entryMig e)) ∧
       (c.plan = none → s.pgError c = 0 → s.turn = .event .pgClrcnt (.nat idx) → c.op = 3 → ∃ t, exec .pgClrcnt s = .next t ∧
         FrameBecomes s t f (entryLoc e) (entryLocation e) 0 (entryPin e) (entryMig e)) ∧
       (∀ src dst, c.plan = none → s.pgError c = 0 → s.turn = .event .pgMove (.nat idx) → c.op = 1 → c.moving = true →
         c.flying = false → FrameFree s f → s.moveError f c.tloc 0 = 0 → s.inTier f c.tloc 0 = false → c.tloc ≠ 5 →
         (s.freeFrames c.tloc 0).headD 0 < 2 ^ 42 → frameKey (entryLoc e) (entryLocation e) = some src →
         frameKey c.tloc ((s.freeFrames c.tloc 0).headD 0) = some dst →
         ∃ t, exec .pgMove s = .next t ∧ PageMoved s t src dst)) ∧
     (∀ tier f x xs src dst, s.turn = .event .demotion (.nat tier) → tier = 1 ∨ tier = 3 → tier ∈ s.dsp.demoting →
       SMap.get 0 s.dsp.victim tier = f + 1 → FrameFree s f → s.freeFrames (tier + 1) 0 = x :: xs → x < 2 ^ 42 →
       entryLoc (s.frame f) = tier → frameKey tier (entryLocation (s.frame f)) = some src → frameKey (tier + 1) x = some dst →
       ∃ t, exec .demotion s = .next t ∧ PageMoved s t src dst) ∧
     (∀ f ok bus, s.turn = .event .pageReadback (.nat3 f ok bus) → entryLoc (s.frame f) = 4 → ok ≠ 0 → bus < 2 ^ 42 →
       ∃ t, exec .pageReadback s = .next t ∧ PageMoved s t (storageKey (entryLocation (s.frame f) * 4096)) (hostKey (bus * 4096))) ∧
     (∀ f rest tag pa bytes p o k, s.turn = .event .forwardedAccess (.nat 0) → s.fab.inbox = f :: rest →
       f.body = .fwdWrite tag pa bytes p o → isFramePa pa = true → (∀ x ∈ s.fab.fwd, x.owner ≠ .flit f.src tag) →
       PlainPlace s (.pa pa) bytes.length k → s.mustWait 0 true [(.pa pa, bytes.length)] = false →
       s.queuedBefore s.parked.length (.pa pa) = false → p = false ∨ s.inHost (.pa pa) = false →
       ∃ t, exec .forwardedAccess s = .next t ∧ t.fab.inbox = rest ∧ OnlyBytes s t k bytes.length ∧
         ∀ j b, bytes[j]? = some b → t.byte (k + j) = b) ∧
     (∀ asid page k p slot frame pa e key, s.turn = .event .regenerationComplete (.nat2 asid page) →
       s.regenGrid asid page = some k → (s.grid k).regenStatus = some 0 → (s.walk asid page).1 = .regen p slot frame pa →
       s.readEntry pa = .ok e → PlainPlace s (.pa pa) 8 key → s.mustWait 0 true [(.pa pa, 8)] = false →
       ∃ t, exec .regenerationComplete s = .next t ∧ t.grid k = {} ∧ (numberAt t key 8).testBit 0 = true) ∧
     (∀ (i : Instr) c rest bs u, i = .allred ∧ c.op = 0x11 ∨ i = .redscat ∧ c.op = 0x12 ∨ i = .allgath ∧ c.op = 0x13 ∨
         i = .bcast ∧ c.op = 0x14 ∨ i = .send ∧ c.op = 0x15 ∨ i = .recv ∧ c.op = 0x16 →
       s.turn = .event i (.nat 0) → s.fab.xeq = c :: rest → (∀ x ∈ s.fab.xe, x.cmd.num ≠ c.num) →
       c.code = 0 → c.status = 0 → s.srcWaits c.num c.srcs = false →
       s.readStretches c ((c.xeRegions s.fab.chip c.count0).2.flatMap (fun r => copyStretches r.1 r.1 r.2)) = (bs, none, u) →
       (∀ b ∈ bs, b.err = none) →
       ∃ t x, exec i s = .next t ∧ t.fab.xe = u.fab.xe ++ [x] ∧ x.cmd.num = c.num ∧
         x.src = bs.map (fun b => (BitVec.ofNat 8 b.val, b.poison))) ∧
     (∀ num x, s.turn = .event .collectiveBegin (.nat num) → s.xeOp num = some x → x.due s.fab = true → x.aborted = false →
       (∀ r ∈ x.bodies s.fab.chip, r.aborted = false ∧ x.agrees s.fab.chip r = true) → x.sized s.fab.chip = true →
       ∃ t y, exec .collectiveBegin s = .next t ∧ t.xeOp num = some y ∧ y.begun = some s.fab.tick ∧ y.taking = x.parties) ∧
     (∀ num x, s.turn = .event .collectiveComplete (.nat num) → s.xeOp num = some x → x.cmd.plan = none →
       x.finished s.fab = true → s.fab.viewDue = false →
       ∃ t y plan, exec .collectiveComplete s = .next t ∧ t.xeOp num = some y ∧ y.cmd.plan = some plan) ∧
     (∀ l, s.turn = .event .tickBoundary (.flits l) → s.fab.pending = false → s.fab.olds = [] → s.fab.refused = [] →
       (∀ x ∈ l ++ s.fab.outbox.map (·.2), ∀ tag bs p h o, x.body = .fwdReply tag bs p h o → h = none ∧ o = none) →
       ∃ t, exec .tickBoundary s = .next t ∧ t.fab.tick = s.fab.tick + 1) ∧
     (∀ c, s.turn = .event .raiseSuspicion (.nat c) → s.fab.viewDue = false → c ∈ s.fab.suspects →
       ∃ t, exec .raiseSuspicion s = .next t ∧ c ∉ t.fab.suspects) ∧
     (∀ c, s.turn = .event .joinNotice (.nat c) → s.fab.viewDue = false → c ∈ s.fab.joins → s.fab.member = true →
       c ∉ s.fab.members → ∃ t, exec .joinNotice s = .next t ∧ t.fab.sponsored = s.fab.sponsored ++ [c]) ∧
     (s.turn = .event .viewInstallation .none → s.fab.viewDue = true → (∀ x ∈ s.fab.xe, x.due s.fab = false) →
       s.fab.members.length < 2 * (s.fab.members.filter (fun m => !s.fab.events.contains (m, false))).length →
       ∃ t, exec .viewInstallation s = .next t ∧ t.fab.vnum = s.fab.vnum + 1) ∧
     (∀ v ms, s.turn = .event .viewrec .none → s.fab.viewParts = some (v, ms) → v < 2 ^ 32 → s.fab.rejoining = true →
       ∃ t, exec .viewrec s = .next t ∧ t.fab.vnum.toNat = v ∧ t.fab.members = ms) ∧
     (∀ v ms, s.turn = .event .firmwareViewInstall (.view v ms) → ∃ t, exec .firmwareViewInstall s = .next t ∧ t.fab.vnum = v) ∧
     (∀ a, s.turn = .event .servoOffsetExceeded a → ∃ t, exec .servoOffsetExceeded s = .next t ∧ t.fab.servo = true) ∧
     (∀ a, s.turn = .event .servoOffsetRestored a → ∃ t, exec .servoOffsetRestored s = .next t ∧ t.fab.servo = false) ∧
     (∀ p, p < 16 →
       (s.turn = .event .portEnable (.nat p) → s.fab.port p = .down → ∃ t, exec .portEnable s = .next t ∧ t.fab.port p = .training) ∧
       (s.turn = .event .portUp (.nat p) → s.fab.port p = .training → ∃ t, exec .portUp s = .next t ∧ t.fab.port p = .up) ∧
       (s.turn = .event .trainingTimeout (.nat p) → s.fab.port p = .training →
         ∃ t, exec .trainingTimeout s = .next t ∧ t.fab.port p = .down) ∧
       (s.turn = .event .lossOfSignal (.nat p) → s.fab.port p = .up → ∃ t, exec .lossOfSignal s = .next t ∧ t.fab.port p = .down) ∧
       (s.turn = .event .portDisable (.nat p) → ∃ t, exec .portDisable s = .next t ∧ t.fab.port p = .down)) ∧
     (∀ a, s.turn = .event .chipStop a → ∃ t, exec .chipStop s = .next t ∧ t.chipStopped = true)) ∧
  (∀ s : State,
     (∀ a, s.turn = .event .moduleReset a → ∃ t, exec .moduleReset s = .next t ∧ t.teams = [] ∧ t.ctxs = []) ∧
     (∀ a, s.turn = .event .warmReset a → ∃ t, exec .warmReset s = .next t ∧ t.teams = [] ∧ t.ctxs = []) ∧
     (∀ l, s.turn = .event .lifeCycleChange (.life l) → (∀ k, 1 ≤ k → k ≤ 3 → (s.kind k).inForce.st ≠ .shadow) →
       ∃ t, exec .lifeCycleChange s = .next t ∧ t.fw.life = l) ∧
     (∀ pa bs, s.turn = .event .hostAccess (.natBytes pa bs) → isHostPa pa = true → bs ≠ [] → pa % 4096 + bs.length ≤ 4096 →
       s.mustWait 0 true [(.pa pa, bs.length)] = false →
       (∀ p ∈ linePieces [(.pa pa, bs.length)], s.standsBehind 0 true p.1 = false) → s.lent (pa % 2 ^ 51) = false →
       ∃ t, exec .hostAccess s = .next t ∧ ∀ j b, bs[j]? = some b → t.byte (hostKey (pa % 2 ^ 51) + j) = b) ∧
     (∀ k, s.turn = .event .rollback (.nat k) → (s.grid k).interval.st = .rolling → (s.grid k).interval.first = true →
       (∀ x ∈ s.fab.fwd, x.grid = k → x.reply ≠ none) → (∀ c ∈ s.cores.flatMap (fun c => c.2.ce) ++ s.fab.xe.map (·.cmd) ++ s.dsp.pg, keyGrid c.team ≠ k) →
       ∃ t, exec .rollback s = .next t ∧ (t.grid k).interval.st = .opened ∧ (t.grid k).interval.rolls = (s.grid k).interval.rolls + 1) ∧
     (∀ idx x rest r, s.turn = .event .auditReplay (.audit idx r) → s.dsp.audits.drop idx = x :: rest →
       s.dsp.log.length < s.dsp.logCap → ∃ t, exec .auditReplay s = .next t ∧ t.dsp.audits = s.dsp.audits.eraseIdx idx) ∧
     (∀ r : HbmRow, r.stack < 16 → r.channel < 64 → r.row < 2 ^ 32 → s.sparesOf r ≠ 0 →
       (s.turn = .event .softRepair (.row r) → ∃ t, exec .softRepair s = .next t ∧ t.dsp.quiesced = s.dsp.quiesced ++ [r]) ∧
       (s.turn = .event .hardRepair (.row r) → ∃ t, exec .hardRepair s = .next t ∧ t.dsp.hardList = s.dsp.hardList ++ [r])) ∧
     (∀ st ch r, s.turn = .event .repairQuiesceEnd (.nat2 st ch) →
       s.dsp.quiesced.find? (fun x => decide (x.stack = st ∧ x.channel = ch)) = some r →
       ∃ t, exec .repairQuiesceEnd s = .next t ∧ t.dsp.repaired = s.dsp.repaired ++ [r]) ∧
     (∀ die w, die < 4 → s.turn = .event .ageingThreshold (.natWord die w) → s.dsp.log.length < s.dsp.logCap →
       ∃ t, exec .ageingThreshold s = .next t ∧ wearOf (t.ageing die) = Nat.min 1000 (w.extractLsb' 0 10).toNat) ∧
     (∀ pa img, s.turn = .event .loadRequest (.natBytes pa img) → s.fw.handing ≠ some 1 → headerOk img = true → (∀ e ∈ objEntries img, entryOk img e = true) →
       objLevel img = 2 → s.backed pa img.length = true →
       ∃ t, exec .loadRequest s = .next t ∧ (t.obj s.dsp.nextObj).st = .resident) ∧
     (∀ k code, s.turn = .event .translation (.nat k) → (s.obj k).st = .translating → levelTwoCode (s.obj k).image = some code →
       s.backed (s.obj k).pa (levelTwo (s.obj k).image code).length = true →
       ∃ t, exec .translation s = .next t ∧ (t.obj k).st = .resident) ∧
     (∀ k, s.turn = .event .unloadRequest (.nat k) → s.fw.handing ≠ some 1 → (s.obj k).st = .resident → s.references k = 0 →
       ∃ t, exec .unloadRequest s = .next t ∧ (t.obj k).st = .unloaded) ∧
     (∀ img, s.turn = .event .stageImage (.bytes img) → s.fw.handing ≠ some 1 → s.verifies img = true →
       ∃ t, exec .stageImage s = .next t ∧ t.fw.staging = verifiedImage img) ∧
     (∀ k r, s.turn = .event .handOver (.natBytes k r) → s.fw.handing = some k → s.fw.staging.st = .verified → s.fw.staging.kind = k →
       s.fw.keys = keysOf s.fw.staging.bytes → k ≠ 3 ∨ s.fab.settled = true → s.fw.waiting = [] → recordOk s.fw.staging r = true →
       ∃ t, exec .handOver s = .next t ∧ (t.kind k).inForce = { s.fw.staging with st := .shadow }) ∧
     (∀ k r, 1 ≤ k → k ≤ 3 → s.turn = .event .heartbeat (.natOptBytes k r) →
       ∃ t, exec .heartbeat s = .next t ∧ (t.kind k).beat = true) ∧
     (∀ k, 1 ≤ k → k ≤ 3 → s.turn = .event .heartbeatWindowEnd (.nat k) →
       ∃ t, exec .heartbeatWindowEnd s = .next t ∧ (t.kind k).beat = false) ∧
     (∀ s1 s2 r w u, s.issuing = some (r, s1) → Handled s1 r → s1.fetchInstr r.team r.pc.toNat = (.ok w, s2) →
       decodeLane w = .error u → ∃ t, exec .undefinedInstruction s = .next t ∧
         TrapEntered s2 t r r.pc (fun _ => 0x0100 + u.code.toNat) (fun _ => 0)) ∧
     (∀ e, s.turn = .event .hostBridgeError (.bridge e) → ∃ t, exec .hostBridgeError s = .next t ∧ t.dsp.hostFail = some e) ∧
     (∀ f w, f < 2 ^ 30 → s.turn = .event .indirectionEntryWrite (.natWord f w) → ∃ t, exec .indirectionEntryWrite s = .next t ∧
       entryLocation (t.frame f) = entryLocation w ∧ entryPin (t.frame f) = entryPin w))
end

