-- ==== Sys2Proof/Laws/Check.lean ====
section
/-! SUPPORT. What the checks of an access can do: they fill or use translations, use up a bridge failure and answers of
other chips, and find errors in the lines of page tables; they change nothing else (R203, R243, R317, R323). -/

namespace Sys2Proof.Machine

/-- Nothing differs but what a page walk may leave: translations, errors found and their sites, lost frames, the error log, a pending
bridge failure and the accesses forwarded to other chips. -/
def OnlyWalks (s t : State) : Prop :=
  ∃ tlb lines bad sites frames dsp fwd,
    t = { s with tlb := tlb, lines := lines, bad := bad, sites := sites, frames := frames, dsp := dsp, fab := { s.fab with fwd := fwd } }

theorem OnlyWalks.refl (s : State) : OnlyWalks s s := ⟨s.tlb, s.lines, s.bad, s.sites, s.frames, s.dsp, s.fab.fwd, rfl⟩

theorem OnlyWalks.trans {s t u : State} (h : OnlyWalks s t) (g : OnlyWalks t u) : OnlyWalks s u := by
  obtain ⟨_, _, _, _, _, _, _, rfl⟩ := h
  obtain ⟨a, b, c, d, e, f, g, rfl⟩ := g
  exact ⟨a, b, c, d, e, f, g, rfl⟩

theorem OnlyWalks.mem {s t : State} (h : OnlyWalks s t) : t.mem = s.mem := by
  obtain ⟨_, _, _, _, _, _, _, rfl⟩ := h; rfl
theorem OnlyWalks.teams {s t : State} (h : OnlyWalks s t) : t.teams = s.teams := by
  obtain ⟨_, _, _, _, _, _, _, rfl⟩ := h; rfl
theorem OnlyWalks.grids {s t : State} (h : OnlyWalks s t) : t.grids = s.grids := by
  obtain ⟨_, _, _, _, _, _, _, rfl⟩ := h; rfl
theorem OnlyWalks.ctxs {s t : State} (h : OnlyWalks s t) : t.ctxs = s.ctxs := by
  obtain ⟨_, _, _, _, _, _, _, rfl⟩ := h; rfl
theorem OnlyWalks.turn {s t : State} (h : OnlyWalks s t) : t.turn = s.turn := by
  obtain ⟨_, _, _, _, _, _, _, rfl⟩ := h; rfl

/-- An entry of the error log, or a count of one dropped (R376). -/
theorem logEntry_only (s : State) (kind asid : Nat) (seq : BitVec 32) (a d : Word) : OnlyWalks s (s.logEntry kind asid seq a d) := by
  unfold State.logEntry
  dsimp only
  repeat' first
    | exact ⟨s.tlb, s.lines, s.bad, s.sites, s.frames, _, s.fab.fwd, rfl⟩
    | split

/-- A read finds an error in the stored bits of a line (R243). -/
theorem detect_only (s : State) (w : Who) (l : Loc) (k : Nat) : OnlyWalks s (s.detect w l k) := by
  unfold State.detect
  split
  · exact OnlyWalks.trans (t := { s.setLine k { s.line k with poison := true } with
        bad := SMap.set false s.bad k false, sites := SMap.set .home s.sites k .home })
      ⟨s.tlb, _, _, _, s.frames, s.dsp, s.fab.fwd, rfl⟩ (logEntry_only _ _ _ _ _ _)
  · exact .refl s

theorem detectAt_only (s : State) (w : Who) (l : Loc) : OnlyWalks s (s.detectAt w l) := by
  unfold State.detectAt
  repeat' first
    | exact .refl s
    | exact detect_only ..
    | split

/-- A failure of the bridge is used up (R321, R323). -/
theorem failHost_only (s : State) (l : Loc) (e : BridgeError) : OnlyWalks s (s.failHost l e) := by
  unfold State.failHost
  dsimp only
  repeat' first
    | exact ⟨s.tlb, s.lines, s.bad, s.sites, _, _, s.fab.fwd, rfl⟩
    | split

/-- What a walk leaves when it has finished. -/
theorem afterWalk_only (s : State) (asid : Nat) (o : Walk) : OnlyWalks s (s.afterWalk asid o) := by
  have done (t : State) (f : Forward → Bool) : OnlyWalks t { t with fab := { t.fab with fwd := t.fab.fwd.filter f } } :=
    ⟨t.tlb, t.lines, t.bad, t.sites, t.frames, t.dsp, _, rfl⟩
  unfold State.afterWalk
  dsimp only
  split
  · exact .refl s
  · have h := detectAt_only s ⟨none, 0, asid, 0, 0, 0, false, none, .walk, none⟩ (.pa ‹Nat›)
    split
    · exact (h.trans (failHost_only _ _ _)).trans (done _ _)
    · exact h.trans (done _ _)
  · exact done _ _

/-- A translation fills the quad's TLB, or leaves what its walk leaves (R317, R323). -/
theorem translate_only (s : State) (core asid va : Nat) : OnlyWalks s (s.translate core asid va).2 := by
  unfold State.translate
  dsimp only
  repeat' first
    | exact .refl s
    | exact afterWalk_only ..
    | exact (afterWalk_only s asid _).trans ⟨_, _, _, _, _, _, _, rfl⟩
    | split

/-- What the walk of a regeneration slot's entry leaves is what a walk leaves (R321, R323). -/
theorem walkEntry_only (s : State) (asid a : Nat) : OnlyWalks s (s.walkEntry asid a) := afterWalk_only ..

theorem afterRegen_only (s : State) (asid page slot : Nat) : OnlyWalks s (s.afterRegen asid page slot) := by
  unfold State.afterRegen
  split
  · exact walkEntry_only ..
  · exact .refl s

theorem checkContext_only (s : State) (tk core : Nat) (k : AccKind) (hostOk : Bool) (va n : Nat) :
    OnlyWalks s (s.checkContext tk core k hostOk va n).2 := by
  have h := translate_only s core (s.gridOf tk).asid va
  unfold State.checkContext
  dsimp only
  repeat' first
    | exact h
    | exact h.trans (afterRegen_only ..)
    | split

theorem checkChunk_only (s : State) (tk core : Nat) (k : AccKind) (hostOk engine : Bool) (va0 size : Nat) (c : Nat × Nat) :
    OnlyWalks s (s.checkChunk tk core k hostOk engine va0 size c).2 := by
  unfold State.checkChunk
  dsimp only
  repeat' first
    | exact .refl s
    | exact checkContext_only ..
    | split

theorem checkChunks_only (tk core : Nat) (k : AccKind) (hostOk engine : Bool) (va0 size : Nat) (cs : List (Nat × Nat)) :
    ∀ s : State, OnlyWalks s (s.checkChunks tk core k hostOk engine va0 size cs).2 := by
  induction cs with
  | nil => exact fun s => .refl s
  | cons c r ih =>
    intro s
    exact (checkChunk_only s tk core k hostOk engine va0 size c).trans (ih _)

/-- Checking one access leaves no more than its walks do. -/
theorem checkAccess_only (s : State) (w : Who) (core : Nat) (k : AccKind) (aligned hostOk engine : Bool) (va n : Nat) :
    OnlyWalks s (s.checkAccess w core k aligned hostOk engine va n).2 := by
  have h := checkChunks_only (teamKey w.grid w.ix) core k hostOk engine va n (cutPages (n / 4096 + 2) va n) s
  unfold State.checkAccess
  dsimp only
  repeat' first
    | exact h
    | split

theorem checkReq_only (s : State) (r : Run) (k : AccKind) (q : LaneReq) : OnlyWalks s (s.checkReq r k q).2 := by
  unfold State.checkReq
  repeat' first
    | exact .refl s
    | exact checkAccess_only ..
    | split

/-- Checking the requests of a run changes nothing else either. -/
theorem checkReqs_only (r : Run) (k : AccKind) (qs : List LaneReq) : ∀ s : State, OnlyWalks s (s.checkReqs r k qs).2 := by
  induction qs with
  | nil => exact fun s => .refl s
  | cons q rest ih =>
    intro s
    exact (checkReq_only s r k q).trans (ih _)

end Sys2Proof.Machine
end

