-- ==== Sys2Proof/Laws/SMap.lean ====
section
/-! SUPPORT. The laws of sparse maps: read after write, and that writing keeps the canonical form. -/

namespace Sys2Proof.Machine

variable {β : Type} [DecidableEq β] {d : β}

omit [DecidableEq β] in
theorem SMap.get_erase (m : SMap β) (k j : Nat) :
    SMap.get d (SMap.erase m k) j = if j = k then d else SMap.get d m j := by
  induction m with
  | nil => simp [SMap.erase, SMap.get]
  | cons e r ih =>
    obtain ⟨i, x⟩ := e
    by_cases hik : i = k
    · simp only [SMap.erase, hik, if_true, ih, SMap.get]
      by_cases hj : j = k
      · simp [hj]
      · simp [hj, Ne.symm hj]
    · simp only [SMap.erase, hik, if_false, SMap.get]
      by_cases hij : i = j
      · subst hij; simp [hik]
      · simp [hij, ih]

omit [DecidableEq β] in
theorem SMap.get_insert (m : SMap β) (k j : Nat) (x : β) (hm : ∀ e ∈ m, e.1 ≠ k) :
    SMap.get d (SMap.insert m k x) j = if j = k then x else SMap.get d m j := by
  induction m with
  | nil => simp [SMap.insert, SMap.get, eq_comm]
  | cons e r ih =>
    obtain ⟨i, y⟩ := e
    have hi : i ≠ k := hm (i, y) (by simp)
    have hr : ∀ e ∈ r, e.1 ≠ k := fun e he => hm e (by simp [he])
    by_cases hk : k < i
    · simp only [SMap.insert, hk, if_true, SMap.get]
      by_cases hj : j = k
      · simp [hj]
      · simp [hj, Ne.symm hj]
    · simp only [SMap.insert, hk, if_false, SMap.get]
      by_cases hij : i = j
      · subst hij; simp [hi]
      · simp [hij, ih hr]

omit [DecidableEq β] in
theorem SMap.erase_no_key (m : SMap β) (k : Nat) : ∀ e ∈ SMap.erase m k, e.1 ≠ k := by
  induction m with
  | nil => simp [SMap.erase]
  | cons e r ih =>
    obtain ⟨i, x⟩ := e
    by_cases hik : i = k
    · simpa [SMap.erase, hik] using ih
    · intro e he
      simp only [SMap.erase, hik, if_false, List.mem_cons] at he
      rcases he with rfl | he
      · exact hik
      · exact ih e he

/-- Read after write, on every list. -/
@[simp] theorem SMap.get_set (m : SMap β) (k j : Nat) (x : β) :
    SMap.get d (SMap.set d m k x) j = if j = k then x else SMap.get d m j := by
  unfold SMap.set
  split
  · rename_i h; rw [SMap.get_erase, h]
  · rw [SMap.get_insert _ _ _ _ (SMap.erase_no_key m k), SMap.get_erase]
    by_cases hj : j = k <;> simp [hj]

@[simp] theorem SMap.get_set_same (m : SMap β) (k : Nat) (x : β) : SMap.get d (SMap.set d m k x) k = x := by
  simp

theorem SMap.get_set_other (m : SMap β) {k j : Nat} (x : β) (h : j ≠ k) :
    SMap.get d (SMap.set d m k x) j = SMap.get d m j := by simp [h]

theorem SMap.get_modify (m : SMap β) (k j : Nat) (f : β → β) :
    SMap.get d (SMap.modify d m k f) j = if j = k then f (SMap.get d m k) else SMap.get d m j := by
  simp [SMap.modify]

theorem SMap.wfFrom_mono {m : SMap β} {lo lo' : Nat} (h : lo' ≤ lo) (w : SMap.wfFrom d lo m = true) :
    SMap.wfFrom d lo' m = true := by
  cases m with
  | nil => rfl
  | cons e r =>
    obtain ⟨i, x⟩ := e
    simp only [SMap.wfFrom, Bool.and_eq_true, decide_eq_true_eq] at w ⊢
    exact ⟨⟨by omega, w.1.2⟩, w.2⟩

theorem SMap.wfFrom_erase {m : SMap β} {lo : Nat} (k : Nat) (w : SMap.wfFrom d lo m = true) :
    SMap.wfFrom d lo (SMap.erase m k) = true := by
  induction m generalizing lo with
  | nil => rfl
  | cons e r ih =>
    obtain ⟨i, x⟩ := e
    simp only [SMap.wfFrom, Bool.and_eq_true, decide_eq_true_eq] at w
    simp only [SMap.erase]
    split
    · exact SMap.wfFrom_mono (by omega) (ih w.2)
    · simp only [SMap.wfFrom, Bool.and_eq_true, decide_eq_true_eq]
      exact ⟨w.1, ih w.2⟩

theorem SMap.wfFrom_insert {m : SMap β} {lo k : Nat} {x : β} (hk : lo ≤ k) (hx : x ≠ d)
    (hm : ∀ e ∈ m, e.1 ≠ k) (w : SMap.wfFrom d lo m = true) :
    SMap.wfFrom d lo (SMap.insert m k x) = true := by
  induction m generalizing lo with
  | nil => simp [SMap.insert, SMap.wfFrom, hk, hx]
  | cons e r ih =>
    obtain ⟨i, y⟩ := e
    simp only [SMap.wfFrom, Bool.and_eq_true, decide_eq_true_eq] at w
    have hi : i ≠ k := hm (i, y) (by simp)
    simp only [SMap.insert]
    split
    · simp only [SMap.wfFrom, Bool.and_eq_true, decide_eq_true_eq]
      exact ⟨⟨hk, hx⟩, ⟨by omega, w.1.2⟩, w.2⟩
    · simp only [SMap.wfFrom, Bool.and_eq_true, decide_eq_true_eq]
      exact ⟨w.1, ih (by omega) (fun e he => hm e (by simp [he])) w.2⟩

/-- Writing keeps the canonical form. -/
theorem SMap.wf_set {m : SMap β} (k : Nat) (x : β) (w : SMap.wf d m = true) :
    SMap.wf d (SMap.set d m k x) = true := by
  unfold SMap.wf SMap.set at *
  split
  · exact SMap.wfFrom_erase k w
  · rename_i hx
    exact SMap.wfFrom_insert (Nat.zero_le k) hx (SMap.erase_no_key m k) (SMap.wfFrom_erase k w)

theorem SMap.wfFrom_clear {m : SMap β} {lo : Nat} (a b : Nat) (w : SMap.wfFrom d lo m = true) :
    SMap.wfFrom d lo (SMap.clear m a b) = true := by
  induction m generalizing lo with
  | nil => rfl
  | cons e r ih =>
    obtain ⟨i, x⟩ := e
    simp only [SMap.wfFrom, Bool.and_eq_true, decide_eq_true_eq] at w
    simp only [SMap.clear, List.filter] at ih ⊢
    split
    · simp only [SMap.wfFrom, Bool.and_eq_true, decide_eq_true_eq]
      exact ⟨w.1, ih w.2⟩
    · exact SMap.wfFrom_mono (by omega) (ih w.2)

theorem SMap.wfFrom_filter {m : SMap β} {lo : Nat} (p : Nat × β → Bool) (w : SMap.wfFrom d lo m = true) :
    SMap.wfFrom d lo (m.filter p) = true := by
  induction m generalizing lo with
  | nil => rfl
  | cons e r ih =>
    obtain ⟨i, x⟩ := e
    simp only [SMap.wfFrom, Bool.and_eq_true, decide_eq_true_eq] at w
    simp only [List.filter]
    split
    · simp only [SMap.wfFrom, Bool.and_eq_true, decide_eq_true_eq]
      exact ⟨w.1, ih w.2⟩
    · exact SMap.wfFrom_mono (by omega) (ih w.2)

/-- Keeping some of the entries keeps the canonical form. -/
theorem SMap.wf_filter {m : SMap β} (p : Nat × β → Bool) (w : SMap.wf d m = true) :
    SMap.wf d (m.filter p) = true := SMap.wfFrom_filter p w

theorem SMap.get_ofKeys (f : Nat → β) (ks : List Nat) (k : Nat) :
    SMap.get d (SMap.ofKeys d f ks) k = if k ∈ ks then f k else d := by
  induction ks with
  | nil => simp [SMap.ofKeys, SMap.get]
  | cons i r ih =>
    by_cases h : k = i <;> simp [SMap.ofKeys, ih, h]

omit [DecidableEq β] in
/-- A key that is not listed reads the default. -/
theorem SMap.get_of_not_mem {m : SMap β} {k : Nat} (h : k ∉ m.map (·.1)) : SMap.get d m k = d := by
  induction m with
  | nil => rfl
  | cons e r ih =>
    obtain ⟨i, x⟩ := e
    simp only [List.map_cons, List.mem_cons, not_or] at h
    simp only [SMap.get, if_neg (Ne.symm h.1), ih h.2]

/-- Changing every listed value by a function that keeps the default changes every value, on every list. -/
theorem SMap.get_mapV (m : SMap β) (f : Nat → β → β) (k : Nat) (hf : f k d = d) :
    SMap.get d (SMap.mapV d m f) k = f k (SMap.get d m k) := by
  rw [SMap.mapV, SMap.get_ofKeys]
  split
  · rfl
  · rename_i h; rw [SMap.get_of_not_mem h, hf]

theorem SMap.wf_ofKeys (f : Nat → β) (ks : List Nat) : SMap.wf d (SMap.ofKeys d f ks) = true := by
  induction ks with
  | nil => rfl
  | cons i r ih => exact SMap.wf_set _ _ ih

/-- Changing every listed value gives the canonical form. -/
theorem SMap.wf_mapV (m : SMap β) (f : Nat → β → β) : SMap.wf d (SMap.mapV d m f) = true := SMap.wf_ofKeys _ _

/-- Removing the entries of a range of keys keeps the canonical form. -/
theorem SMap.wf_clear {m : SMap β} (a b : Nat) (w : SMap.wf d m = true) :
    SMap.wf d (SMap.clear m a b) = true := SMap.wfFrom_clear a b w

end Sys2Proof.Machine
end

