-- ==== Sys2Proof/Laws/Device.lean ====
section
/-! SUPPORT. The small lemmas of the device's parts: reading a queue, an object, an image or a tier's victim after writing
one, and what each setter leaves alone. -/

namespace Sys2Proof.Machine

@[simp] theorem State.setQueue_queue (s : State) (q : Nat) (x : HostQueue) (j : Nat) :
    (s.setQueue q x).queue j = if j = q then x else s.queue j := by
  simp [State.setQueue, State.queue]
@[simp] theorem State.setQueue_mem (s : State) (q : Nat) (x : HostQueue) : (s.setQueue q x).mem = s.mem := rfl
@[simp] theorem State.setQueue_teams (s : State) (q : Nat) (x : HostQueue) : (s.setQueue q x).teams = s.teams := rfl
@[simp] theorem State.setQueue_grids (s : State) (q : Nat) (x : HostQueue) : (s.setQueue q x).grids = s.grids := rfl
@[simp] theorem State.setQueue_ctxs (s : State) (q : Nat) (x : HostQueue) : (s.setQueue q x).ctxs = s.ctxs := rfl
@[simp] theorem State.setQueue_fab (s : State) (q : Nat) (x : HostQueue) : (s.setQueue q x).fab = s.fab := rfl

@[simp] theorem State.setObj_obj (s : State) (k : Nat) (o : CodeObj) (j : Nat) :
    (s.setObj k o).obj j = if j = k then o else s.obj j := by
  simp [State.setObj, State.obj]
@[simp] theorem State.setObj_mem (s : State) (k : Nat) (o : CodeObj) : (s.setObj k o).mem = s.mem := rfl
@[simp] theorem State.setObj_teams (s : State) (k : Nat) (o : CodeObj) : (s.setObj k o).teams = s.teams := rfl
@[simp] theorem State.setObj_grids (s : State) (k : Nat) (o : CodeObj) : (s.setObj k o).grids = s.grids := rfl
@[simp] theorem State.setObj_cores (s : State) (k : Nat) (o : CodeObj) : (s.setObj k o).cores = s.cores := rfl

@[simp] theorem State.setKind_kind (s : State) (k : Nat) (x : ImageKind) (j : Nat) :
    (s.setKind k x).kind j = if j = k then x else s.kind j := by
  simp [State.setKind, State.kind]
@[simp] theorem State.setKind_dsp (s : State) (k : Nat) (x : ImageKind) : (s.setKind k x).dsp = s.dsp := rfl
@[simp] theorem State.setKind_mem (s : State) (k : Nat) (x : ImageKind) : (s.setKind k x).mem = s.mem := rfl

@[simp] theorem State.setVictim_mem (s : State) (tier : Nat) (f : Option Nat) : (s.setVictim tier f).mem = s.mem := rfl
@[simp] theorem State.setVictim_frame (s : State) (tier : Nat) (f : Option Nat) (j : Nat) :
    (s.setVictim tier f).frame j = s.frame j := rfl

end Sys2Proof.Machine
end

