-- ==== Sys2Proof/Laws/Exec.lean ====
section
/-! SUPPORT. Each arm of exec, as an equation to rewrite with. -/

namespace Sys2Proof.Machine

variable (σ : State)

@[simp] theorem exec_add (r : BitVec 1) (u : BitVec 1) (t : BitVec 3) (b : BitVec 6) (a : BitVec 6) (d : BitVec 6) : exec (.add r u t b a d) σ = execAdd t b a d σ := rfl
@[simp] theorem exec_sub (r : BitVec 1) (u : BitVec 1) (t : BitVec 3) (b : BitVec 6) (a : BitVec 6) (d : BitVec 6) : exec (.sub r u t b a d) σ = execSub t b a d σ := rfl
@[simp] theorem exec_mul (r : BitVec 1) (u : BitVec 1) (t : BitVec 3) (b : BitVec 6) (a : BitVec 6) (d : BitVec 6) : exec (.mul r u t b a d) σ = execMul t b a d σ := rfl
@[simp] theorem exec_mulh (r : BitVec 1) (u : BitVec 1) (t : BitVec 3) (b : BitVec 6) (a : BitVec 6) (d : BitVec 6) : exec (.mulh r u t b a d) σ = execMulh t b a d σ := rfl
@[simp] theorem exec_min (r : BitVec 1) (u : BitVec 1) (t : BitVec 3) (b : BitVec 6) (a : BitVec 6) (d : BitVec 6) : exec (.min r u t b a d) σ = execMin t b a d σ := rfl
@[simp] theorem exec_max (r : BitVec 1) (u : BitVec 1) (t : BitVec 3) (b : BitVec 6) (a : BitVec 6) (d : BitVec 6) : exec (.max r u t b a d) σ = execMax t b a d σ := rfl
@[simp] theorem exec_adds (r : BitVec 1) (u : BitVec 1) (t : BitVec 3) (b : BitVec 6) (a : BitVec 6) (d : BitVec 6) : exec (.adds r u t b a d) σ = execAdds t b a d σ := rfl
@[simp] theorem exec_subs (r : BitVec 1) (u : BitVec 1) (t : BitVec 3) (b : BitVec 6) (a : BitVec 6) (d : BitVec 6) : exec (.subs r u t b a d) σ = execSubs t b a d σ := rfl
@[simp] theorem exec_and (r : BitVec 1) (u : BitVec 1) (b : BitVec 6) (a : BitVec 6) (d : BitVec 6) : exec (.and r u b a d) σ = execAnd b a d σ := rfl
@[simp] theorem exec_or (r : BitVec 1) (u : BitVec 1) (b : BitVec 6) (a : BitVec 6) (d : BitVec 6) : exec (.or r u b a d) σ = execOr b a d σ := rfl
@[simp] theorem exec_xor (r : BitVec 1) (u : BitVec 1) (b : BitVec 6) (a : BitVec 6) (d : BitVec 6) : exec (.xor r u b a d) σ = execXor b a d σ := rfl
@[simp] theorem exec_andn (r : BitVec 1) (u : BitVec 1) (b : BitVec 6) (a : BitVec 6) (d : BitVec 6) : exec (.andn r u b a d) σ = execAndn b a d σ := rfl
@[simp] theorem exec_shl (r : BitVec 1) (u : BitVec 1) (t : BitVec 3) (b : BitVec 6) (a : BitVec 6) (d : BitVec 6) : exec (.shl r u t b a d) σ = execShl t b a d σ := rfl
@[simp] theorem exec_shr (r : BitVec 1) (u : BitVec 1) (t : BitVec 3) (b : BitVec 6) (a : BitVec 6) (d : BitVec 6) : exec (.shr r u t b a d) σ = execShr t b a d σ := rfl
@[simp] theorem exec_shra (r : BitVec 1) (u : BitVec 1) (t : BitVec 3) (b : BitVec 6) (a : BitVec 6) (d : BitVec 6) : exec (.shra r u t b a d) σ = execShra t b a d σ := rfl
@[simp] theorem exec_rol (r : BitVec 1) (u : BitVec 1) (t : BitVec 3) (b : BitVec 6) (a : BitVec 6) (d : BitVec 6) : exec (.rol r u t b a d) σ = execRol t b a d σ := rfl
@[simp] theorem exec_sel (r : BitVec 1) (u : BitVec 1) (p : BitVec 3) (b : BitVec 6) (a : BitVec 6) (d : BitVec 6) : exec (.sel r u p b a d) σ = execSel p b a d σ := rfl
@[simp] theorem exec_div (r : BitVec 1) (u : BitVec 1) (t : BitVec 3) (b : BitVec 6) (a : BitVec 6) (d : BitVec 6) : exec (.div r u t b a d) σ = execDiv t b a d σ := rfl
@[simp] theorem exec_rem (r : BitVec 1) (u : BitVec 1) (t : BitVec 3) (b : BitVec 6) (a : BitVec 6) (d : BitVec 6) : exec (.rem r u t b a d) σ = execRem t b a d σ := rfl
@[simp] theorem exec_clz (r : BitVec 1) (u : BitVec 1) (t : BitVec 3) (a : BitVec 6) (d : BitVec 6) : exec (.clz r u t a d) σ = execClz t a d σ := rfl
@[simp] theorem exec_popc (r : BitVec 1) (u : BitVec 1) (t : BitVec 3) (a : BitVec 6) (d : BitVec 6) : exec (.popc r u t a d) σ = execPopc t a d σ := rfl
@[simp] theorem exec_brev (r : BitVec 1) (u : BitVec 1) (t : BitVec 3) (a : BitVec 6) (d : BitVec 6) : exec (.brev r u t a d) σ = execBrev t a d σ := rfl
@[simp] theorem exec_abs (r : BitVec 1) (u : BitVec 1) (t : BitVec 2) (a : BitVec 6) (d : BitVec 6) : exec (.abs r u t a d) σ = execAbs t a d σ := rfl
@[simp] theorem exec_absd (r : BitVec 1) (u : BitVec 1) (t : BitVec 3) (b : BitVec 6) (a : BitVec 6) (d : BitVec 6) : exec (.absd r u t b a d) σ = execAbsd t b a d σ := rfl
@[simp] theorem exec_cmp (r : BitVec 1) (u : BitVec 1) (t : BitVec 3) (b : BitVec 6) (a : BitVec 6) (c : BitVec 3) (p : BitVec 3) : exec (.cmp r u t b a c p) σ = execCmp t b a c p σ := rfl
@[simp] theorem exec_addi (w : BitVec 2) (i : BitVec 12) (a : BitVec 6) (d : BitVec 6) : exec (.addi w i a d) σ = execAddi w i a d σ := rfl
@[simp] theorem exec_logiAnd (i : BitVec 12) (a : BitVec 6) (d : BitVec 6) : exec (.logiAnd i a d) σ = execLogiAnd i a d σ := rfl
@[simp] theorem exec_logiOr (i : BitVec 12) (a : BitVec 6) (d : BitVec 6) : exec (.logiOr i a d) σ = execLogiOr i a d σ := rfl
@[simp] theorem exec_logiXor (i : BitVec 12) (a : BitVec 6) (d : BitVec 6) : exec (.logiXor i a d) σ = execLogiXor i a d σ := rfl
@[simp] theorem exec_logiAndn (i : BitVec 12) (a : BitVec 6) (d : BitVec 6) : exec (.logiAndn i a d) σ = execLogiAndn i a d σ := rfl
@[simp] theorem exec_shfiShl (w : BitVec 2) (n : BitVec 6) (a : BitVec 6) (d : BitVec 6) : exec (.shfiShl w n a d) σ = execShfiShl w n a d σ := rfl
@[simp] theorem exec_shfiShr (w : BitVec 2) (n : BitVec 6) (a : BitVec 6) (d : BitVec 6) : exec (.shfiShr w n a d) σ = execShfiShr w n a d σ := rfl
@[simp] theorem exec_shfiShra (w : BitVec 2) (n : BitVec 6) (a : BitVec 6) (d : BitVec 6) : exec (.shfiShra w n a d) σ = execShfiShra w n a d σ := rfl
@[simp] theorem exec_shfiRol (w : BitVec 2) (n : BitVec 6) (a : BitVec 6) (d : BitVec 6) : exec (.shfiRol w n a d) σ = execShfiRol w n a d σ := rfl
@[simp] theorem exec_cmpi (w : BitVec 2) (i : BitVec 12) (a : BitVec 6) (c : BitVec 3) (p : BitVec 3) : exec (.cmpi w i a c p) σ = execCmpi w i a c p σ := rfl
@[simp] theorem exec_fahAdd (r : BitVec 1) (u : BitVec 1) (s : BitVec 1) (m : BitVec 2) (b : BitVec 6) (a : BitVec 6) (d : BitVec 6) : exec (.fahAdd r u s m b a d) σ = execFahAdd s m b a d σ := rfl
@[simp] theorem exec_fahSub (r : BitVec 1) (u : BitVec 1) (s : BitVec 1) (m : BitVec 2) (b : BitVec 6) (a : BitVec 6) (d : BitVec 6) : exec (.fahSub r u s m b a d) σ = execFahSub s m b a d σ := rfl
@[simp] theorem exec_fahMul (r : BitVec 1) (u : BitVec 1) (s : BitVec 1) (m : BitVec 2) (b : BitVec 6) (a : BitVec 6) (d : BitVec 6) : exec (.fahMul r u s m b a d) σ = execFahMul s m b a d σ := rfl
@[simp] theorem exec_fahDiv (r : BitVec 1) (u : BitVec 1) (s : BitVec 1) (m : BitVec 2) (b : BitVec 6) (a : BitVec 6) (d : BitVec 6) : exec (.fahDiv r u s m b a d) σ = execFahDiv s m b a d σ := rfl
@[simp] theorem exec_fahMin (r : BitVec 1) (u : BitVec 1) (s : BitVec 1) (b : BitVec 6) (a : BitVec 6) (d : BitVec 6) : exec (.fahMin r u s b a d) σ = execFahMin s b a d σ := rfl
@[simp] theorem exec_fahMax (r : BitVec 1) (u : BitVec 1) (s : BitVec 1) (b : BitVec 6) (a : BitVec 6) (d : BitVec 6) : exec (.fahMax r u s b a d) σ = execFahMax s b a d σ := rfl
@[simp] theorem exec_fahSqrt (r : BitVec 1) (u : BitVec 1) (s : BitVec 1) (m : BitVec 2) (a : BitVec 6) (d : BitVec 6) : exec (.fahSqrt r u s m a d) σ = execFahSqrt s m a d σ := rfl
@[simp] theorem exec_fahCpsgn (r : BitVec 1) (u : BitVec 1) (s : BitVec 1) (b : BitVec 6) (a : BitVec 6) (d : BitVec 6) : exec (.fahCpsgn r u s b a d) σ = execFahCpsgn s b a d σ := rfl
@[simp] theorem exec_fawAdd (r : BitVec 1) (u : BitVec 1) (s : BitVec 1) (m : BitVec 2) (b : BitVec 6) (a : BitVec 6) (d : BitVec 6) : exec (.fawAdd r u s m b a d) σ = execFawAdd s m b a d σ := rfl
@[simp] theorem exec_fawSub (r : BitVec 1) (u : BitVec 1) (s : BitVec 1) (m : BitVec 2) (b : BitVec 6) (a : BitVec 6) (d : BitVec 6) : exec (.fawSub r u s m b a d) σ = execFawSub s m b a d σ := rfl
@[simp] theorem exec_fawMul (r : BitVec 1) (u : BitVec 1) (s : BitVec 1) (m : BitVec 2) (b : BitVec 6) (a : BitVec 6) (d : BitVec 6) : exec (.fawMul r u s m b a d) σ = execFawMul s m b a d σ := rfl
@[simp] theorem exec_fawDiv (r : BitVec 1) (u : BitVec 1) (s : BitVec 1) (m : BitVec 2) (b : BitVec 6) (a : BitVec 6) (d : BitVec 6) : exec (.fawDiv r u s m b a d) σ = execFawDiv s m b a d σ := rfl
@[simp] theorem exec_fawMin (r : BitVec 1) (u : BitVec 1) (s : BitVec 1) (b : BitVec 6) (a : BitVec 6) (d : BitVec 6) : exec (.fawMin r u s b a d) σ = execFawMin s b a d σ := rfl
@[simp] theorem exec_fawMax (r : BitVec 1) (u : BitVec 1) (s : BitVec 1) (b : BitVec 6) (a : BitVec 6) (d : BitVec 6) : exec (.fawMax r u s b a d) σ = execFawMax s b a d σ := rfl
@[simp] theorem exec_fawSqrt (r : BitVec 1) (u : BitVec 1) (s : BitVec 1) (m : BitVec 2) (a : BitVec 6) (d : BitVec 6) : exec (.fawSqrt r u s m a d) σ = execFawSqrt s m a d σ := rfl
@[simp] theorem exec_fawCpsgn (r : BitVec 1) (u : BitVec 1) (s : BitVec 1) (b : BitVec 6) (a : BitVec 6) (d : BitVec 6) : exec (.fawCpsgn r u s b a d) σ = execFawCpsgn s b a d σ := rfl
@[simp] theorem exec_rcp (r : BitVec 1) (u : BitVec 1) (t : BitVec 2) (a : BitVec 6) (d : BitVec 6) : exec (.rcp r u t a d) σ = execRcp t a d σ := rfl
@[simp] theorem exec_rsq (r : BitVec 1) (u : BitVec 1) (t : BitVec 2) (a : BitVec 6) (d : BitVec 6) : exec (.rsq r u t a d) σ = execRsq t a d σ := rfl
@[simp] theorem exec_exp2 (r : BitVec 1) (u : BitVec 1) (t : BitVec 2) (a : BitVec 6) (d : BitVec 6) : exec (.exp2 r u t a d) σ = execExp2 t a d σ := rfl
@[simp] theorem exec_log2 (r : BitVec 1) (u : BitVec 1) (t : BitVec 2) (a : BitVec 6) (d : BitVec 6) : exec (.log2 r u t a d) σ = execLog2 t a d σ := rfl
@[simp] theorem exec_sin (r : BitVec 1) (u : BitVec 1) (t : BitVec 2) (a : BitVec 6) (d : BitVec 6) : exec (.sin r u t a d) σ = execSin t a d σ := rfl
@[simp] theorem exec_cos (r : BitVec 1) (u : BitVec 1) (t : BitVec 2) (a : BitVec 6) (d : BitVec 6) : exec (.cos r u t a d) σ = execCos t a d σ := rfl
@[simp] theorem exec_tanh (r : BitVec 1) (u : BitVec 1) (t : BitVec 2) (a : BitVec 6) (d : BitVec 6) : exec (.tanh r u t a d) σ = execTanh t a d σ := rfl
@[simp] theorem exec_fspecCmp (r : BitVec 1) (u : BitVec 1) (t : BitVec 2) (b : BitVec 6) (a : BitVec 6) (c : BitVec 3) (p : BitVec 3) : exec (.fspecCmp r u t b a c p) σ = execFspecCmp t b a c p σ := rfl
@[simp] theorem exec_fma (m : BitVec 2) (s : BitVec 1) (c : BitVec 5) (b : BitVec 6) (a : BitVec 6) (d : BitVec 6) : exec (.fma m s c b a d) σ = execFma m s c b a d σ := rfl
@[simp] theorem exec_cvt (r : BitVec 1) (u : BitVec 1) (t : BitVec 3) (e : BitVec 1) (m : BitVec 2) (s : BitVec 4) (a : BitVec 6) (d : BitVec 6) : exec (.cvt r u t e m s a d) σ = execCvt t e m s a d σ := rfl
@[simp] theorem exec_cvts (r : BitVec 1) (u : BitVec 1) (t : BitVec 3) (s : BitVec 4) (a : BitVec 6) (d : BitVec 6) : exec (.cvts r u t s a d) σ = execCvts t s a d σ := rfl
@[simp] theorem exec_cvtw (r : BitVec 1) (u : BitVec 1) (t : BitVec 3) (s : BitVec 4) (a : BitVec 6) (d : BitVec 6) : exec (.cvtw r u t s a d) σ = execCvtw t s a d σ := rfl
@[simp] theorem exec_npk (r : BitVec 1) (u : BitVec 1) (s : BitVec 1) (m : BitVec 2) (f : BitVec 5) (a : BitVec 6) (d : BitVec 6) : exec (.npk r u s m f a d) σ = execNpk s m f a d σ := rfl
@[simp] theorem exec_nunp (r : BitVec 1) (u : BitVec 1) (s : BitVec 1) (f : BitVec 5) (a : BitVec 6) (d : BitVec 6) : exec (.nunp r u s f a d) σ = execNunp s f a d σ := rfl
@[simp] theorem exec_qnt (r : BitVec 1) (u : BitVec 1) (s : BitVec 1) (b : BitVec 6) (a : BitVec 6) (d : BitVec 6) : exec (.qnt r u s b a d) σ = execQnt s b a d σ := rfl
@[simp] theorem exec_dqnt (r : BitVec 1) (u : BitVec 1) (s : BitVec 1) (m : BitVec 2) (b : BitVec 6) (a : BitVec 6) (d : BitVec 6) : exec (.dqnt r u s m b a d) σ = execDqnt s m b a d σ := rfl
@[simp] theorem exec_toe8 (r : BitVec 1) (u : BitVec 1) (s : BitVec 1) (a : BitVec 6) (d : BitVec 6) : exec (.toe8 r u s a d) σ = execToe8 s a d σ := rfl
@[simp] theorem exec_fre8 (r : BitVec 1) (u : BitVec 1) (s : BitVec 1) (m : BitVec 2) (a : BitVec 6) (d : BitVec 6) : exec (.fre8 r u s m a d) σ = execFre8 s m a d σ := rfl
@[simp] theorem exec_shfl (r : BitVec 1) (u : BitVec 1) (w : BitVec 2) (b : BitVec 6) (a : BitVec 6) (d : BitVec 6) : exec (.shfl r u w b a d) σ = execShfl w b a d σ := rfl
@[simp] theorem exec_shflx (r : BitVec 1) (u : BitVec 1) (w : BitVec 2) (b : BitVec 6) (a : BitVec 6) (d : BitVec 6) : exec (.shflx r u w b a d) σ = execShflx w b a d σ := rfl
@[simp] theorem exec_shflu (r : BitVec 1) (u : BitVec 1) (w : BitVec 2) (b : BitVec 6) (a : BitVec 6) (d : BitVec 6) : exec (.shflu r u w b a d) σ = execShflu w b a d σ := rfl
@[simp] theorem exec_shfld (r : BitVec 1) (u : BitVec 1) (w : BitVec 2) (b : BitVec 6) (a : BitVec 6) (d : BitVec 6) : exec (.shfld r u w b a d) σ = execShfld w b a d σ := rfl
@[simp] theorem exec_voteAny (r : BitVec 1) (u : BitVec 1) (s : BitVec 3) (p : BitVec 3) : exec (.voteAny r u s p) σ = execVoteAny s p σ := rfl
@[simp] theorem exec_voteAll (r : BitVec 1) (u : BitVec 1) (s : BitVec 3) (p : BitVec 3) : exec (.voteAll r u s p) σ = execVoteAll s p σ := rfl
@[simp] theorem exec_voteBallot (r : BitVec 1) (u : BitVec 1) (s : BitVec 3) (d : BitVec 6) : exec (.voteBallot r u s d) σ = execVoteBallot s d σ := rfl
@[simp] theorem exec_matchLanes (r : BitVec 1) (u : BitVec 1) (w : BitVec 2) (b : BitVec 6) (a : BitVec 6) (d : BitVec 6) : exec (.matchLanes r u w b a d) σ = execMatchLanes w b a d σ := rfl
@[simp] theorem exec_rdc (r : BitVec 1) (u : BitVec 1) (o : BitVec 3) (t : BitVec 4) (a : BitVec 6) (d : BitVec 6) : exec (.rdc r u o t a d) σ = execRdc o t a d σ := rfl
@[simp] theorem exec_scan (r : BitVec 1) (u : BitVec 1) (o : BitVec 3) (t : BitVec 4) (a : BitVec 6) (d : BitVec 6) : exec (.scan r u o t a d) σ = execScan o t a d σ := rfl
@[simp] theorem exec_xiShfl (w : BitVec 2) (l : BitVec 6) (s : BitVec 3) (a : BitVec 6) (d : BitVec 6) : exec (.xiShfl w l s a d) σ = execXiShfl w l s a d σ := rfl
@[simp] theorem exec_xiShflx (w : BitVec 2) (l : BitVec 6) (a : BitVec 6) (d : BitVec 6) : exec (.xiShflx w l a d) σ = execXiShflx w l a d σ := rfl
@[simp] theorem exec_xiShflu (w : BitVec 2) (l : BitVec 6) (a : BitVec 6) (d : BitVec 6) : exec (.xiShflu w l a d) σ = execXiShflu w l a d σ := rfl
@[simp] theorem exec_xiShfld (w : BitVec 2) (l : BitVec 6) (a : BitVec 6) (d : BitVec 6) : exec (.xiShfld w l a d) σ = execXiShfld w l a d σ := rfl
@[simp] theorem exec_lu (i : BitVec 20) (d : BitVec 6) : exec (.lu i d) σ = execLu i d σ := rfl
@[simp] theorem exec_atom (r : BitVec 1) (u : BitVec 1) (t : BitVec 3) (o : BitVec 3) (b : BitVec 6) (a : BitVec 6) (d : BitVec 6) : exec (.atom r u t o b a d) σ = execAtom t o b a d σ := rfl
@[simp] theorem exec_redD (r : BitVec 1) (u : BitVec 1) (t : BitVec 3) (o : BitVec 3) (b : BitVec 6) (a : BitVec 6) : exec (.redD r u t o b a) σ = execRedD t o b a σ := rfl
@[simp] theorem exec_ld8 (h : BitVec 2) (o : BitVec 12) (b : BitVec 6) (d : BitVec 6) : exec (.ld8 h o b d) σ = execLd8 o b d σ := rfl
@[simp] theorem exec_ld16 (h : BitVec 2) (o : BitVec 12) (b : BitVec 6) (d : BitVec 6) : exec (.ld16 h o b d) σ = execLd16 o b d σ := rfl
@[simp] theorem exec_ld32 (h : BitVec 2) (o : BitVec 12) (b : BitVec 6) (d : BitVec 6) : exec (.ld32 h o b d) σ = execLd32 o b d σ := rfl
@[simp] theorem exec_ld64 (h : BitVec 2) (o : BitVec 12) (b : BitVec 6) (d : BitVec 6) : exec (.ld64 h o b d) σ = execLd64 o b d σ := rfl
@[simp] theorem exec_ldv128 (h : BitVec 2) (o : BitVec 12) (b : BitVec 6) (d : BitVec 5) : exec (.ldv128 h o b d) σ = execLdv128 o b d σ := rfl
@[simp] theorem exec_ldv256 (h : BitVec 2) (o : BitVec 12) (b : BitVec 6) (d : BitVec 4) : exec (.ldv256 h o b d) σ = execLdv256 o b d σ := rfl
@[simp] theorem exec_ldv512 (h : BitVec 2) (o : BitVec 12) (b : BitVec 6) (d : BitVec 3) : exec (.ldv512 h o b d) σ = execLdv512 o b d σ := rfl
@[simp] theorem exec_st8 (h : BitVec 2) (o : BitVec 12) (b : BitVec 6) (d : BitVec 6) : exec (.st8 h o b d) σ = execSt8 o b d σ := rfl
@[simp] theorem exec_st16 (h : BitVec 2) (o : BitVec 12) (b : BitVec 6) (d : BitVec 6) : exec (.st16 h o b d) σ = execSt16 o b d σ := rfl
@[simp] theorem exec_st32 (h : BitVec 2) (o : BitVec 12) (b : BitVec 6) (d : BitVec 6) : exec (.st32 h o b d) σ = execSt32 o b d σ := rfl
@[simp] theorem exec_st64 (h : BitVec 2) (o : BitVec 12) (b : BitVec 6) (d : BitVec 6) : exec (.st64 h o b d) σ = execSt64 o b d σ := rfl
@[simp] theorem exec_stv128 (h : BitVec 2) (o : BitVec 12) (b : BitVec 6) (d : BitVec 5) : exec (.stv128 h o b d) σ = execStv128 o b d σ := rfl
@[simp] theorem exec_stv256 (h : BitVec 2) (o : BitVec 12) (b : BitVec 6) (d : BitVec 4) : exec (.stv256 h o b d) σ = execStv256 o b d σ := rfl
@[simp] theorem exec_stv512 (h : BitVec 2) (o : BitVec 12) (b : BitVec 6) (d : BitVec 3) : exec (.stv512 h o b d) σ = execStv512 o b d σ := rfl
@[simp] theorem exec_movs (s : BitVec 12) (d : BitVec 6) : exec (.movs s d) σ = execMovs s d σ := rfl
@[simp] theorem exec_setsStklim (a : BitVec 6) : exec (.setsStklim a) σ = execSetsStklim a σ := rfl
@[simp] theorem exec_setsLepc (a : BitVec 6) : exec (.setsLepc a) σ = execSetsLepc a σ := rfl
@[simp] theorem exec_setsLflags (a : BitVec 6) : exec (.setsLflags a) σ = execSetsLflags a σ := rfl
@[simp] theorem exec_setsBmode (a : BitVec 6) : exec (.setsBmode a) σ = execSetsBmode a σ := rfl
@[simp] theorem exec_trap (n : BitVec 6) : exec (.trap n) σ = execTrap n σ := rfl
@[simp] theorem exec_jmpr (a : BitVec 6) : exec (.jmpr a) σ = execJmpr a σ := rfl
@[simp] theorem exec_ret (a : BitVec 6) : exec (.ret a) σ = execRet a σ := rfl
@[simp] theorem exec_enter (n : BitVec 6) : exec (.enter n) σ = execEnter n σ := rfl
@[simp] theorem exec_leave (n : BitVec 6) : exec (.leave n) σ = execLeave n σ := rfl
@[simp] theorem exec_ppack (d : BitVec 6) : exec (.ppack d) σ = execPpack d σ := rfl
@[simp] theorem exec_punpk (a : BitVec 6) : exec (.punpk a) σ = execPunpk a σ := rfl
@[simp] theorem exec_pfi (o : BitVec 6) : exec (.pfi o) σ = execPfi o σ := rfl
@[simp] theorem exec_prfL1 (a : BitVec 6) : exec (.prfL1 a) σ = execPrfL1 a σ := rfl
@[simp] theorem exec_prfMsc (a : BitVec 6) : exec (.prfMsc a) σ = execPrfMsc a σ := rfl
@[simp] theorem exec_stp (f : BitVec 5) (a : BitVec 6) (d : BitVec 6) : exec (.stp f a d) σ = execStp f a d σ := rfl
@[simp] theorem exec_pushCe (p : BitVec 3) (d : BitVec 6) : exec (.pushCe p d) σ = execPushCe p d σ := rfl
@[simp] theorem exec_pushXe (p : BitVec 3) (d : BitVec 6) : exec (.pushXe p d) σ = execPushXe p d σ := rfl
@[simp] theorem exec_pushPg (p : BitVec 3) (d : BitVec 6) : exec (.pushPg p d) σ = execPushPg p d σ := rfl
@[simp] theorem exec_bara (b : BitVec 4) : exec (.bara b) σ = execBara b σ := rfl
@[simp] theorem exec_barw (b : BitVec 4) : exec (.barw b) σ = execBarw b σ := rfl
@[simp] theorem exec_baraw (b : BitVec 4) : exec (.baraw b) σ = execBaraw b σ := rfl
@[simp] theorem exec_vget (n : BitVec 3) (d : BitVec 6) : exec (.vget n d) σ = execVget n d σ := rfl
@[simp] theorem exec_vput (n : BitVec 3) (a : BitVec 6) : exec (.vput n a) σ = execVput n a σ := rfl
@[simp] theorem exec_bra (o : BitVec 22) : exec (.bra o) σ = execBra o σ := rfl
@[simp] theorem exec_brc (o : BitVec 22) (p : BitVec 3) : exec (.brc o p) σ = execBrc o p σ := rfl
@[simp] theorem exec_brcF (o : BitVec 22) (p : BitVec 3) : exec (.brcF o p) σ = execBrcF o p σ := rfl
@[simp] theorem exec_call (o : BitVec 22) : exec (.call o) σ = execCall o σ := rfl
@[simp] theorem exec_qrn (r : BitVec 1) (u : BitVec 1) (b : BitVec 6) (a : BitVec 6) (d : BitVec 6) : exec (.qrn r u b a d) σ = execQrn b a d σ := rfl
@[simp] theorem exec_qrnf (r : BitVec 1) (u : BitVec 1) (b : BitVec 6) (a : BitVec 6) (d : BitVec 6) : exec (.qrnf r u b a d) σ = execQrnf b a d σ := rfl
@[simp] theorem exec_qrseed (r : BitVec 1) (u : BitVec 1) (b : BitVec 6) (a : BitVec 6) (d : BitVec 6) : exec (.qrseed r u b a d) σ = execQrseed b a d σ := rfl
@[simp] theorem exec_lcMov (b : BitVec 5) (d : BitVec 6) : exec (.lcMov b d) σ = execLcMov b d σ := rfl
@[simp] theorem exec_lcAddI32 (b : BitVec 5) (d : BitVec 6) : exec (.lcAddI32 b d) σ = execLcAddI32 b d σ := rfl
@[simp] theorem exec_lcSubI32 (b : BitVec 5) (d : BitVec 6) : exec (.lcSubI32 b d) σ = execLcSubI32 b d σ := rfl
@[simp] theorem exec_lcAnd (b : BitVec 5) (d : BitVec 6) : exec (.lcAnd b d) σ = execLcAnd b d σ := rfl
@[simp] theorem exec_lcOr (b : BitVec 5) (d : BitVec 6) : exec (.lcOr b d) σ = execLcOr b d σ := rfl
@[simp] theorem exec_lcXor (b : BitVec 5) (d : BitVec 6) : exec (.lcXor b d) σ = execLcXor b d σ := rfl
@[simp] theorem exec_lcShlI32 (b : BitVec 5) (d : BitVec 6) : exec (.lcShlI32 b d) σ = execLcShlI32 b d σ := rfl
@[simp] theorem exec_lcShrN32 (b : BitVec 5) (d : BitVec 6) : exec (.lcShrN32 b d) σ = execLcShrN32 b d σ := rfl
@[simp] theorem exec_lcShraI32 (b : BitVec 5) (d : BitVec 6) : exec (.lcShraI32 b d) σ = execLcShraI32 b d σ := rfl
@[simp] theorem exec_lcAddF32 (b : BitVec 5) (d : BitVec 6) : exec (.lcAddF32 b d) σ = execLcAddF32 b d σ := rfl
@[simp] theorem exec_lcSubF32 (b : BitVec 5) (d : BitVec 6) : exec (.lcSubF32 b d) σ = execLcSubF32 b d σ := rfl
@[simp] theorem exec_lcMulF32 (b : BitVec 5) (d : BitVec 6) : exec (.lcMulF32 b d) σ = execLcMulF32 b d σ := rfl
@[simp] theorem exec_lcMinF32 (b : BitVec 5) (d : BitVec 6) : exec (.lcMinF32 b d) σ = execLcMinF32 b d σ := rfl
@[simp] theorem exec_lcMaxF32 (b : BitVec 5) (d : BitVec 6) : exec (.lcMaxF32 b d) σ = execLcMaxF32 b d σ := rfl
@[simp] theorem exec_lcAddI64 (b : BitVec 5) (d : BitVec 6) : exec (.lcAddI64 b d) σ = execLcAddI64 b d σ := rfl
@[simp] theorem exec_lcNegF32 (b : BitVec 5) (d : BitVec 6) : exec (.lcNegF32 b d) σ = execLcNegF32 b d σ := rfl
@[simp] theorem exec_saluAdd (b : BitVec 5) (a : BitVec 5) (d : BitVec 5) : exec (.saluAdd b a d) σ = execSaluAdd b a d σ := rfl
@[simp] theorem exec_saluSub (b : BitVec 5) (a : BitVec 5) (d : BitVec 5) : exec (.saluSub b a d) σ = execSaluSub b a d σ := rfl
@[simp] theorem exec_saluAnd (b : BitVec 5) (a : BitVec 5) (d : BitVec 5) : exec (.saluAnd b a d) σ = execSaluAnd b a d σ := rfl
@[simp] theorem exec_saluOr (b : BitVec 5) (a : BitVec 5) (d : BitVec 5) : exec (.saluOr b a d) σ = execSaluOr b a d σ := rfl
@[simp] theorem exec_saluXor (b : BitVec 5) (a : BitVec 5) (d : BitVec 5) : exec (.saluXor b a d) σ = execSaluXor b a d σ := rfl
@[simp] theorem exec_saluShl (b : BitVec 5) (a : BitVec 5) (d : BitVec 5) : exec (.saluShl b a d) σ = execSaluShl b a d σ := rfl
@[simp] theorem exec_saluShr (b : BitVec 5) (a : BitVec 5) (d : BitVec 5) : exec (.saluShr b a d) σ = execSaluShr b a d σ := rfl
@[simp] theorem exec_saluShra (b : BitVec 5) (a : BitVec 5) (d : BitVec 5) : exec (.saluShra b a d) σ = execSaluShra b a d σ := rfl
@[simp] theorem exec_smulMul (b : BitVec 5) (a : BitVec 5) (d : BitVec 5) : exec (.smulMul b a d) σ = execSmulMul b a d σ := rfl
@[simp] theorem exec_smulMulhs (b : BitVec 5) (a : BitVec 5) (d : BitVec 5) : exec (.smulMulhs b a d) σ = execSmulMulhs b a d σ := rfl
@[simp] theorem exec_smulMulhu (b : BitVec 5) (a : BitVec 5) (d : BitVec 5) : exec (.smulMulhu b a d) σ = execSmulMulhu b a d σ := rfl
@[simp] theorem exec_smulDiv (b : BitVec 5) (a : BitVec 5) (d : BitVec 5) : exec (.smulDiv b a d) σ = execSmulDiv b a d σ := rfl
@[simp] theorem exec_smulDivu (b : BitVec 5) (a : BitVec 5) (d : BitVec 5) : exec (.smulDivu b a d) σ = execSmulDivu b a d σ := rfl
@[simp] theorem exec_smulRem (b : BitVec 5) (a : BitVec 5) (d : BitVec 5) : exec (.smulRem b a d) σ = execSmulRem b a d σ := rfl
@[simp] theorem exec_smulRemu (b : BitVec 5) (a : BitVec 5) (d : BitVec 5) : exec (.smulRemu b a d) σ = execSmulRemu b a d σ := rfl
@[simp] theorem exec_scmpMin (b : BitVec 5) (a : BitVec 5) (d : BitVec 5) : exec (.scmpMin b a d) σ = execScmpMin b a d σ := rfl
@[simp] theorem exec_scmpMax (b : BitVec 5) (a : BitVec 5) (d : BitVec 5) : exec (.scmpMax b a d) σ = execScmpMax b a d σ := rfl
@[simp] theorem exec_scmpMinu (b : BitVec 5) (a : BitVec 5) (d : BitVec 5) : exec (.scmpMinu b a d) σ = execScmpMinu b a d σ := rfl
@[simp] theorem exec_scmpMaxu (b : BitVec 5) (a : BitVec 5) (d : BitVec 5) : exec (.scmpMaxu b a d) σ = execScmpMaxu b a d σ := rfl
@[simp] theorem exec_scmpSlt (b : BitVec 5) (a : BitVec 5) (d : BitVec 5) : exec (.scmpSlt b a d) σ = execScmpSlt b a d σ := rfl
@[simp] theorem exec_scmpSltu (b : BitVec 5) (a : BitVec 5) (d : BitVec 5) : exec (.scmpSltu b a d) σ = execScmpSltu b a d σ := rfl
@[simp] theorem exec_scmpSeq (b : BitVec 5) (a : BitVec 5) (d : BitVec 5) : exec (.scmpSeq b a d) σ = execScmpSeq b a d σ := rfl
@[simp] theorem exec_sld (i : BitVec 8) (f : BitVec 3) (a : BitVec 5) (d : BitVec 5) : exec (.sld i f a d) σ = execSld i f a d σ := rfl
@[simp] theorem exec_sst (i : BitVec 8) (w : BitVec 2) (b : BitVec 5) (a : BitVec 5) : exec (.sst i w b a) σ = execSst i w b a σ := rfl
@[simp] theorem exec_siAdd (i : BitVec 16) (a : BitVec 5) (d : BitVec 5) : exec (.siAdd i a d) σ = execSiAdd i a d σ := rfl
@[simp] theorem exec_siAnd (i : BitVec 16) (a : BitVec 5) (d : BitVec 5) : exec (.siAnd i a d) σ = execSiAnd i a d σ := rfl
@[simp] theorem exec_siOr (i : BitVec 16) (a : BitVec 5) (d : BitVec 5) : exec (.siOr i a d) σ = execSiOr i a d σ := rfl
@[simp] theorem exec_siXor (i : BitVec 16) (a : BitVec 5) (d : BitVec 5) : exec (.siXor i a d) σ = execSiXor i a d σ := rfl
@[simp] theorem exec_shiftShl (n : BitVec 6) (a : BitVec 5) (d : BitVec 5) : exec (.shiftShl n a d) σ = execShiftShl n a d σ := rfl
@[simp] theorem exec_shiftShr (n : BitVec 6) (a : BitVec 5) (d : BitVec 5) : exec (.shiftShr n a d) σ = execShiftShr n a d σ := rfl
@[simp] theorem exec_shiftShra (n : BitVec 6) (a : BitVec 5) (d : BitVec 5) : exec (.shiftShra n a d) σ = execShiftShra n a d σ := rfl
@[simp] theorem exec_shiftRol (n : BitVec 6) (a : BitVec 5) (d : BitVec 5) : exec (.shiftRol n a d) σ = execShiftRol n a d σ := rfl
@[simp] theorem exec_addhi (i : BitVec 16) (a : BitVec 5) (d : BitVec 5) : exec (.addhi i a d) σ = execAddhi i a d σ := rfl
@[simp] theorem exec_bz (i : BitVec 16) (a : BitVec 5) : exec (.bz i a) σ = execBz i a σ := rfl
@[simp] theorem exec_bnz (i : BitVec 16) (a : BitVec 5) : exec (.bnz i a) σ = execBnz i a σ := rfl
@[simp] theorem exec_bltz (i : BitVec 16) (a : BitVec 5) : exec (.bltz i a) σ = execBltz i a σ := rfl
@[simp] theorem exec_bgez (i : BitVec 16) (a : BitVec 5) : exec (.bgez i a) σ = execBgez i a σ := rfl
@[simp] theorem exec_bgtz (i : BitVec 16) (a : BitVec 5) : exec (.bgtz i a) σ = execBgtz i a σ := rfl
@[simp] theorem exec_blez (i : BitVec 16) (a : BitVec 5) : exec (.blez i a) σ = execBlez i a σ := rfl
@[simp] theorem exec_jmp (o : BitVec 22) : exec (.jmp o) σ = execJmp o σ := rfl
@[simp] theorem exec_jumpCall (o : BitVec 22) : exec (.jumpCall o) σ = execJumpCall o σ := rfl
@[simp] theorem exec_sctlJmpr (a : BitVec 5) : exec (.sctlJmpr a) σ = execSctlJmpr a σ := rfl
@[simp] theorem exec_sctlMovs (s : BitVec 8) (d : BitVec 5) : exec (.sctlMovs s d) σ = execSctlMovs s d σ := rfl
@[simp] theorem exec_movsTflagsc (d : BitVec 5) : exec (.movsTflagsc d) σ = execMovsTflagsc d σ := rfl
@[simp] theorem exec_sctlTrap (n : BitVec 8) : exec (.sctlTrap n) σ = execSctlTrap n σ := rfl
@[simp] theorem exec_sctlTret (a : BitVec 5) : exec (.sctlTret a) σ = execSctlTret a σ := rfl
@[simp] theorem exec_loop (n : BitVec 5) (b : BitVec 5) (a : BitVec 5) : exec (.loop n b a) σ = execLoop n b a σ := rfl
@[simp] theorem exec_bari (c : BitVec 11) (b : BitVec 4) : exec (.bari c b) σ = execBari c b σ := rfl
@[simp] theorem exec_barBara (f : BitVec 1) (b : BitVec 4) : exec (.barBara f b) σ = execBarBara f b σ := rfl
@[simp] theorem exec_barBarw (f : BitVec 1) (b : BitVec 4) : exec (.barBarw f b) σ = execBarBarw f b σ := rfl
@[simp] theorem exec_barBaraw (f : BitVec 1) (b : BitVec 4) : exec (.barBaraw f b) σ = execBarBaraw f b σ := rfl
@[simp] theorem exec_sxPushCe (f : BitVec 3) (d : BitVec 5) : exec (.sxPushCe f d) σ = execSxPushCe f d σ := rfl
@[simp] theorem exec_sxPushXe (f : BitVec 3) (d : BitVec 5) : exec (.sxPushXe f d) σ = execSxPushXe f d σ := rfl
@[simp] theorem exec_sxPushPg (f : BitVec 3) (d : BitVec 5) : exec (.sxPushPg f d) σ = execSxPushPg f d σ := rfl
@[simp] theorem exec_tmul (c : BitVec 2) (m : BitVec 5) (b : BitVec 4) (a : BitVec 4) (d : BitVec 4) : exec (.tmul c m b a d) σ = execTmul c m b a d σ := rfl
@[simp] theorem exec_tmac (c : BitVec 2) (m : BitVec 5) (x : BitVec 4) (b : BitVec 4) (a : BitVec 4) (d : BitVec 4) : exec (.tmac c m x b a d) σ = execTmac c m x b a d σ := rfl
@[simp] theorem exec_tcmul (c : BitVec 2) (m : BitVec 5) (b : BitVec 4) (a : BitVec 4) (d : BitVec 4) : exec (.tcmul c m b a d) σ = execTcmul c m b a d σ := rfl
@[simp] theorem exec_tcmulAddend (c : BitVec 2) (m : BitVec 5) (x : BitVec 4) (b : BitVec 4) (a : BitVec 4) (d : BitVec 4) : exec (.tcmulAddend c m x b a d) σ = execTcmulAddend c m x b a d σ := rfl
@[simp] theorem exec_tbp (c : BitVec 2) (m : BitVec 5) (b : BitVec 4) (a : BitVec 4) (d : BitVec 4) : exec (.tbp c m b a d) σ = execTbp c m b a d σ := rfl
@[simp] theorem exec_tsca (c : BitVec 2) (m : BitVec 5) (x : BitVec 4) (b : BitVec 4) (a : BitVec 4) (d : BitVec 4) : exec (.tsca c m x b a d) σ = execTsca c m x b a d σ := rfl
@[simp] theorem exec_tadd (c : BitVec 2) (m : BitVec 5) (b : BitVec 4) (a : BitVec 4) (d : BitVec 4) : exec (.tadd c m b a d) σ = execTadd c m b a d σ := rfl
@[simp] theorem exec_tsub (c : BitVec 2) (m : BitVec 5) (b : BitVec 4) (a : BitVec 4) (d : BitVec 4) : exec (.tsub c m b a d) σ = execTsub c m b a d σ := rfl
@[simp] theorem exec_ttr (c : BitVec 2) (m : BitVec 5) (a : BitVec 4) (d : BitVec 4) : exec (.ttr c m a d) σ = execTtr c m a d σ := rfl
@[simp] theorem exec_thad (c : BitVec 2) (m : BitVec 5) (b : BitVec 4) (a : BitVec 4) (d : BitVec 4) : exec (.thad c m b a d) σ = execThad c m b a d σ := rfl
@[simp] theorem exec_tcvt (m : BitVec 5) (a : BitVec 4) (d : BitVec 4) : exec (.tcvt m a d) σ = execTcvt m a d σ := rfl
@[simp] theorem exec_tforce (a : BitVec 4) : exec (.tforce a) σ = execTforce a σ := rfl
@[simp] theorem exec_tdrop (d : BitVec 4) : exec (.tdrop d) σ = execTdrop d σ := rfl
@[simp] theorem exec_tld (m : BitVec 5) (b : BitVec 4) (a : BitVec 4) (d : BitVec 4) : exec (.tld m b a d) σ = execTld m b a d σ := rfl
@[simp] theorem exec_tst (m : BitVec 5) (b : BitVec 4) (a : BitVec 4) (d : BitVec 4) : exec (.tst m b a d) σ = execTst m b a d σ := rfl
@[simp] theorem exec_acq (n : BitVec 4) (a : BitVec 4) : exec (.acq n a) σ = execAcq n a σ := rfl
@[simp] theorem exec_rel (a : BitVec 4) : exec (.rel a) σ = execRel a σ := rfl
@[simp] theorem exec_tstat (a : BitVec 4) (d : BitVec 4) : exec (.tstat a d) σ = execTstat a d σ := rfl
@[simp] theorem exec_tzero (m : BitVec 5) (b : BitVec 4) (d : BitVec 4) : exec (.tzero m b d) σ = execTzero m b d σ := rfl
@[simp] theorem exec_tfill (m : BitVec 5) (b : BitVec 4) (a : BitVec 4) (d : BitVec 4) : exec (.tfill m b a d) σ = execTfill m b a d σ := rfl
@[simp] theorem exec_view (a : BitVec 5) (d : BitVec 5) : exec (.view a d) σ = execView a d σ := rfl
@[simp] theorem exec_join (a : BitVec 5) : exec (.join a) σ = execJoin a σ := rfl
@[simp] theorem exec_vwait (a : BitVec 5) : exec (.vwait a) σ = execVwait a σ := rfl
@[simp] theorem exec_scMov (b : BitVec 5) (d : BitVec 5) : exec (.scMov b d) σ = execScMov b d σ := rfl
@[simp] theorem exec_scAdd (b : BitVec 5) (d : BitVec 5) : exec (.scAdd b d) σ = execScAdd b d σ := rfl
@[simp] theorem exec_scSub (b : BitVec 5) (d : BitVec 5) : exec (.scSub b d) σ = execScSub b d σ := rfl
@[simp] theorem exec_scAnd (b : BitVec 5) (d : BitVec 5) : exec (.scAnd b d) σ = execScAnd b d σ := rfl
@[simp] theorem exec_scOr (b : BitVec 5) (d : BitVec 5) : exec (.scOr b d) σ = execScOr b d σ := rfl
@[simp] theorem exec_scXor (b : BitVec 5) (d : BitVec 5) : exec (.scXor b d) σ = execScXor b d σ := rfl
@[simp] theorem exec_scShl (b : BitVec 5) (d : BitVec 5) : exec (.scShl b d) σ = execScShl b d σ := rfl
@[simp] theorem exec_scShr (b : BitVec 5) (d : BitVec 5) : exec (.scShr b d) σ = execScShr b d σ := rfl
@[simp] theorem exec_scShra (b : BitVec 5) (d : BitVec 5) : exec (.scShra b d) σ = execScShra b d σ := rfl
@[simp] theorem exec_scMul (b : BitVec 5) (d : BitVec 5) : exec (.scMul b d) σ = execScMul b d σ := rfl
@[simp] theorem exec_scMin (b : BitVec 5) (d : BitVec 5) : exec (.scMin b d) σ = execScMin b d σ := rfl
@[simp] theorem exec_scMax (b : BitVec 5) (d : BitVec 5) : exec (.scMax b d) σ = execScMax b d σ := rfl
@[simp] theorem exec_scMinu (b : BitVec 5) (d : BitVec 5) : exec (.scMinu b d) σ = execScMinu b d σ := rfl
@[simp] theorem exec_scMaxu (b : BitVec 5) (d : BitVec 5) : exec (.scMaxu b d) σ = execScMaxu b d σ := rfl
@[simp] theorem exec_scNeg (b : BitVec 5) (d : BitVec 5) : exec (.scNeg b d) σ = execScNeg b d σ := rfl
@[simp] theorem exec_scNot (b : BitVec 5) (d : BitVec 5) : exec (.scNot b d) σ = execScNot b d σ := rfl
@[simp] theorem exec_nop : exec .nop σ = execNop σ := rfl
@[simp] theorem exec_yld : exec .yld σ = execYld σ := rfl
@[simp] theorem exec_exit : exec .exit σ = execExit σ := rfl
@[simp] theorem exec_fenceC : exec .fenceC σ = execFenceC σ := rfl
@[simp] theorem exec_fenceD : exec .fenceD σ = execFenceD σ := rfl
@[simp] theorem exec_fenceS : exec .fenceS σ = execFenceS σ := rfl
@[simp] theorem exec_tret : exec .tret σ = execTret σ := rfl
@[simp] theorem exec_sctlRet : exec .sctlRet σ = execSctlRet σ := rfl
@[simp] theorem exec_sctlExit : exec .sctlExit σ = execSctlExit σ := rfl
@[simp] theorem exec_sctlNop : exec .sctlNop σ = execSctlNop σ := rfl
@[simp] theorem exec_sctlFenceC : exec .sctlFenceC σ = execSctlFenceC σ := rfl
@[simp] theorem exec_sctlFenceD : exec .sctlFenceD σ = execSctlFenceD σ := rfl
@[simp] theorem exec_sctlFenceS : exec .sctlFenceS σ = execSctlFenceS σ := rfl
@[simp] theorem exec_cbar : exec .cbar σ = execCbar σ := rfl
@[simp] theorem exec_gbar : exec .gbar σ = execGbar σ := rfl
@[simp] theorem exec_breakpointMatch : exec .breakpointMatch σ = execBreakpointMatch σ := rfl
@[simp] theorem exec_releaseWaitEnd : exec .releaseWaitEnd σ = execReleaseWaitEnd σ := rfl
@[simp] theorem exec_launch : exec .launch σ = execLaunch σ := rfl
@[simp] theorem exec_create : exec .create σ = execCreate σ := rfl
@[simp] theorem exec_update : exec .update σ = execUpdate σ := rfl
@[simp] theorem exec_move : exec .move σ = execMove σ := rfl
@[simp] theorem exec_resume : exec .resume σ = execResume σ := rfl
@[simp] theorem exec_destroy : exec .destroy σ = execDestroy σ := rfl
@[simp] theorem exec_capstart : exec .capstart σ = execCapstart σ := rfl
@[simp] theorem exec_capstop : exec .capstop σ = execCapstop σ := rfl
@[simp] theorem exec_capstopComplete : exec .capstopComplete σ = execCapstopComplete σ := rfl
@[simp] theorem exec_ethernetFrame : exec .ethernetFrame σ = execEthernetFrame σ := rfl
@[simp] theorem exec_qtailWrite : exec .qtailWrite σ = execQtailWrite σ := rfl
@[simp] theorem exec_queueEnable : exec .queueEnable σ = execQueueEnable σ := rfl
@[simp] theorem exec_queueDisable : exec .queueDisable σ = execQueueDisable σ := rfl
@[simp] theorem exec_errClear : exec .errClear σ = execErrClear σ := rfl
@[simp] theorem exec_vectorUnmask : exec .vectorUnmask σ = execVectorUnmask σ := rfl
@[simp] theorem exec_tlbinv : exec .tlbinv σ = execTlbinv σ := rfl
@[simp] theorem exec_mbdoor : exec .mbdoor σ = execMbdoor σ := rfl
@[simp] theorem exec_registerWrite : exec .registerWrite σ = execRegisterWrite σ := rfl
@[simp] theorem exec_stopSlotFree : exec .stopSlotFree σ = execStopSlotFree σ := rfl
@[simp] theorem exec_stopSlotScan : exec .stopSlotScan σ = execStopSlotScan σ := rfl
@[simp] theorem exec_dependenceReread : exec .dependenceReread σ = execDependenceReread σ := rfl
@[simp] theorem exec_teamPlacement : exec .teamPlacement σ = execTeamPlacement σ := rfl
@[simp] theorem exec_loadingComplete : exec .loadingComplete σ = execLoadingComplete σ := rfl
@[simp] theorem exec_quantumExpiry : exec .quantumExpiry σ = execQuantumExpiry σ := rfl
@[simp] theorem exec_swapOut : exec .swapOut σ = execSwapOut σ := rfl
@[simp] theorem exec_exitActions : exec .exitActions σ = execExitActions σ := rfl
@[simp] theorem exec_gridEnd : exec .gridEnd σ = execGridEnd σ := rfl
@[simp] theorem exec_contextLoaded : exec .contextLoaded σ = execContextLoaded σ := rfl
@[simp] theorem exec_erasureComplete : exec .erasureComplete σ = execErasureComplete σ := rfl
@[simp] theorem exec_forceEvaluation : exec .forceEvaluation σ = execForceEvaluation σ := rfl
@[simp] theorem exec_acqGrant : exec .acqGrant σ = execAcqGrant σ := rfl
@[simp] theorem exec_waitingAccessPerform : exec .waitingAccessPerform σ = execWaitingAccessPerform σ := rfl
@[simp] theorem exec_bankModeSwitch : exec .bankModeSwitch σ = execBankModeSwitch σ := rfl
@[simp] theorem exec_copy : exec .copy σ = execCopy σ := rfl
@[simp] theorem exec_copy2d : exec .copy2d σ = execCopy2d σ := rfl
@[simp] theorem exec_gather : exec .gather σ = execGather σ := rfl
@[simp] theorem exec_scatter : exec .scatter σ = execScatter σ := rfl
@[simp] theorem exec_fill : exec .fill σ = execFill σ := rfl
@[simp] theorem exec_planes : exec .planes σ = execPlanes σ := rfl
@[simp] theorem exec_pgMove : exec .pgMove σ = execPgMove σ := rfl
@[simp] theorem exec_pgPin : exec .pgPin σ = execPgPin σ := rfl
@[simp] theorem exec_pgClrcnt : exec .pgClrcnt σ = execPgClrcnt σ := rfl
@[simp] theorem exec_demotion : exec .demotion σ = execDemotion σ := rfl
@[simp] theorem exec_pageReadback : exec .pageReadback σ = execPageReadback σ := rfl
@[simp] theorem exec_forwardedAccess : exec .forwardedAccess σ = execForwardedAccess σ := rfl
@[simp] theorem exec_regenerationComplete : exec .regenerationComplete σ = execRegenerationComplete σ := rfl
@[simp] theorem exec_allred : exec .allred σ = execAllred σ := rfl
@[simp] theorem exec_redscat : exec .redscat σ = execRedscat σ := rfl
@[simp] theorem exec_allgath : exec .allgath σ = execAllgath σ := rfl
@[simp] theorem exec_bcast : exec .bcast σ = execBcast σ := rfl
@[simp] theorem exec_send : exec .send σ = execSend σ := rfl
@[simp] theorem exec_recv : exec .recv σ = execRecv σ := rfl
@[simp] theorem exec_collectiveBegin : exec .collectiveBegin σ = execCollectiveBegin σ := rfl
@[simp] theorem exec_collectiveComplete : exec .collectiveComplete σ = execCollectiveComplete σ := rfl
@[simp] theorem exec_tickBoundary : exec .tickBoundary σ = execTickBoundary σ := rfl
@[simp] theorem exec_raiseSuspicion : exec .raiseSuspicion σ = execRaiseSuspicion σ := rfl
@[simp] theorem exec_viewInstallation : exec .viewInstallation σ = execViewInstallation σ := rfl
@[simp] theorem exec_joinNotice : exec .joinNotice σ = execJoinNotice σ := rfl
@[simp] theorem exec_viewrec : exec .viewrec σ = execViewrec σ := rfl
@[simp] theorem exec_servoOffsetExceeded : exec .servoOffsetExceeded σ = execServoOffsetExceeded σ := rfl
@[simp] theorem exec_portEnable : exec .portEnable σ = execPortEnable σ := rfl
@[simp] theorem exec_portUp : exec .portUp σ = execPortUp σ := rfl
@[simp] theorem exec_trainingTimeout : exec .trainingTimeout σ = execTrainingTimeout σ := rfl
@[simp] theorem exec_lossOfSignal : exec .lossOfSignal σ = execLossOfSignal σ := rfl
@[simp] theorem exec_portDisable : exec .portDisable σ = execPortDisable σ := rfl
@[simp] theorem exec_chipStop : exec .chipStop σ = execChipStop σ := rfl
@[simp] theorem exec_moduleReset : exec .moduleReset σ = execModuleReset σ := rfl
@[simp] theorem exec_warmReset : exec .warmReset σ = execWarmReset σ := rfl
@[simp] theorem exec_lifeCycleChange : exec .lifeCycleChange σ = execLifeCycleChange σ := rfl
@[simp] theorem exec_hostAccess : exec .hostAccess σ = execHostAccess σ := rfl
@[simp] theorem exec_rollback : exec .rollback σ = execRollback σ := rfl
@[simp] theorem exec_auditReplay : exec .auditReplay σ = execAuditReplay σ := rfl
@[simp] theorem exec_softRepair : exec .softRepair σ = execSoftRepair σ := rfl
@[simp] theorem exec_repairQuiesceEnd : exec .repairQuiesceEnd σ = execRepairQuiesceEnd σ := rfl
@[simp] theorem exec_hardRepair : exec .hardRepair σ = execHardRepair σ := rfl
@[simp] theorem exec_ageingThreshold : exec .ageingThreshold σ = execAgeingThreshold σ := rfl
@[simp] theorem exec_loadRequest : exec .loadRequest σ = execLoadRequest σ := rfl
@[simp] theorem exec_translation : exec .translation σ = execTranslation σ := rfl
@[simp] theorem exec_unloadRequest : exec .unloadRequest σ = execUnloadRequest σ := rfl
@[simp] theorem exec_stageImage : exec .stageImage σ = execStageImage σ := rfl
@[simp] theorem exec_handOver : exec .handOver σ = execHandOver σ := rfl
@[simp] theorem exec_heartbeat : exec .heartbeat σ = execHeartbeat σ := rfl
@[simp] theorem exec_heartbeatWindowEnd : exec .heartbeatWindowEnd σ = execHeartbeatWindowEnd σ := rfl
@[simp] theorem exec_undefinedInstruction : exec .undefinedInstruction σ = execUndefinedInstruction σ := rfl
@[simp] theorem exec_hostBridgeError : exec .hostBridgeError σ = execHostBridgeError σ := rfl
@[simp] theorem exec_indirectionEntryWrite : exec .indirectionEntryWrite σ = execIndirectionEntryWrite σ := rfl
@[simp] theorem exec_firmwareViewInstall : exec .firmwareViewInstall σ = execFirmwareViewInstall σ := rfl
@[simp] theorem exec_servoOffsetRestored : exec .servoOffsetRestored σ = execServoOffsetRestored σ := rfl

end Sys2Proof.Machine
end

