-- ==== Sys2Proof/Laws/State.lean ====
section
/-! SUPPORT. The small lemmas of State: reading a component after writing one, and what each setter leaves alone. -/

namespace Sys2Proof.Machine

/-! ## setTeam -/

@[simp] theorem State.setTeam_mem (s : State) (k : Nat) (x : Team) : (s.setTeam k x).mem = s.mem := rfl
@[simp] theorem State.setTeam_lines (s : State) (k : Nat) (x : Team) : (s.setTeam k x).lines = s.lines := rfl
@[simp] theorem State.setTeam_bad (s : State) (k : Nat) (x : Team) : (s.setTeam k x).bad = s.bad := rfl
@[simp] theorem State.setTeam_sites (s : State) (k : Nat) (x : Team) : (s.setTeam k x).sites = s.sites := rfl
@[simp] theorem State.setTeam_frames (s : State) (k : Nat) (x : Team) : (s.setTeam k x).frames = s.frames := rfl
@[simp] theorem State.setTeam_tlb (s : State) (k : Nat) (x : Team) : (s.setTeam k x).tlb = s.tlb := rfl
@[simp] theorem State.setTeam_cores (s : State) (k : Nat) (x : Team) : (s.setTeam k x).cores = s.cores := rfl
@[simp] theorem State.setTeam_grids (s : State) (k : Nat) (x : Team) : (s.setTeam k x).grids = s.grids := rfl
@[simp] theorem State.setTeam_ctxs (s : State) (k : Nat) (x : Team) : (s.setTeam k x).ctxs = s.ctxs := rfl
@[simp] theorem State.setTeam_parked (s : State) (k : Nat) (x : Team) : (s.setTeam k x).parked = s.parked := rfl
@[simp] theorem State.setTeam_releases (s : State) (k : Nat) (x : Team) : (s.setTeam k x).releases = s.releases := rfl
@[simp] theorem State.setTeam_dsp (s : State) (k : Nat) (x : Team) : (s.setTeam k x).dsp = s.dsp := rfl
@[simp] theorem State.setTeam_fab (s : State) (k : Nat) (x : Team) : (s.setTeam k x).fab = s.fab := rfl
@[simp] theorem State.setTeam_fw (s : State) (k : Nat) (x : Team) : (s.setTeam k x).fw = s.fw := rfl
@[simp] theorem State.setTeam_nextPush (s : State) (k : Nat) (x : Team) : (s.setTeam k x).nextPush = s.nextPush := rfl
@[simp] theorem State.setTeam_chipStopped (s : State) (k : Nat) (x : Team) : (s.setTeam k x).chipStopped = s.chipStopped := rfl
@[simp] theorem State.setTeam_schedule (s : State) (k : Nat) (x : Team) : (s.setTeam k x).schedule = s.schedule := rfl
@[simp] theorem State.setTeam_turn (s : State) (k : Nat) (x : Team) : (s.setTeam k x).turn = s.turn := rfl
@[simp] theorem State.setTeam_clock (s : State) (k : Nat) (x : Team) : (s.setTeam k x).clock = s.clock := rfl
@[simp] theorem State.setTeam_freeCtr (s : State) (k : Nat) (x : Team) : (s.setTeam k x).freeCtr = s.freeCtr := rfl
@[simp] theorem State.setTeam_pace (s : State) (k : Nat) (x : Team) : (s.setTeam k x).pace = s.pace := rfl
@[simp] theorem State.setTeam_seen (s : State) (k : Nat) (x : Team) : (s.setTeam k x).seen = s.seen := rfl
@[simp] theorem State.setTeam_team (s : State) (k : Nat) (x : Team) (j : Nat) :
    (s.setTeam k x).team j = if j = k then x else s.team j := by
  simp [State.setTeam, State.team]
@[simp] theorem State.setTeam_grid (s : State) (k : Nat) (x : Team) (j : Nat) : (s.setTeam k x).grid j = s.grid j := rfl
@[simp] theorem State.setTeam_ctx (s : State) (k : Nat) (x : Team) (j : Nat) : (s.setTeam k x).ctx j = s.ctx j := rfl
@[simp] theorem State.setTeam_coreAt (s : State) (k : Nat) (x : Team) (j : Nat) : (s.setTeam k x).coreAt j = s.coreAt j := rfl
@[simp] theorem State.setTeam_line (s : State) (k : Nat) (x : Team) (j : Nat) : (s.setTeam k x).line j = s.line j := rfl
@[simp] theorem State.setTeam_frame (s : State) (k : Nat) (x : Team) (j : Nat) : (s.setTeam k x).frame j = s.frame j := rfl
@[simp] theorem State.setTeam_byte (s : State) (k : Nat) (x : Team) (j : Nat) : (s.setTeam k x).byte j = s.byte j := rfl
@[simp] theorem State.setTeam_gridOf (s : State) (k : Nat) (x : Team) (j : Nat) : (s.setTeam k x).gridOf j = s.gridOf j := rfl

/-! ## setGrid -/

@[simp] theorem State.setGrid_mem (s : State) (k : Nat) (x : Grid) : (s.setGrid k x).mem = s.mem := rfl
@[simp] theorem State.setGrid_lines (s : State) (k : Nat) (x : Grid) : (s.setGrid k x).lines = s.lines := rfl
@[simp] theorem State.setGrid_bad (s : State) (k : Nat) (x : Grid) : (s.setGrid k x).bad = s.bad := rfl
@[simp] theorem State.setGrid_sites (s : State) (k : Nat) (x : Grid) : (s.setGrid k x).sites = s.sites := rfl
@[simp] theorem State.setGrid_frames (s : State) (k : Nat) (x : Grid) : (s.setGrid k x).frames = s.frames := rfl
@[simp] theorem State.setGrid_tlb (s : State) (k : Nat) (x : Grid) : (s.setGrid k x).tlb = s.tlb := rfl
@[simp] theorem State.setGrid_cores (s : State) (k : Nat) (x : Grid) : (s.setGrid k x).cores = s.cores := rfl
@[simp] theorem State.setGrid_teams (s : State) (k : Nat) (x : Grid) : (s.setGrid k x).teams = s.teams := rfl
@[simp] theorem State.setGrid_ctxs (s : State) (k : Nat) (x : Grid) : (s.setGrid k x).ctxs = s.ctxs := rfl
@[simp] theorem State.setGrid_parked (s : State) (k : Nat) (x : Grid) : (s.setGrid k x).parked = s.parked := rfl
@[simp] theorem State.setGrid_releases (s : State) (k : Nat) (x : Grid) : (s.setGrid k x).releases = s.releases := rfl
@[simp] theorem State.setGrid_dsp (s : State) (k : Nat) (x : Grid) : (s.setGrid k x).dsp = s.dsp := rfl
@[simp] theorem State.setGrid_fab (s : State) (k : Nat) (x : Grid) : (s.setGrid k x).fab = s.fab := rfl
@[simp] theorem State.setGrid_fw (s : State) (k : Nat) (x : Grid) : (s.setGrid k x).fw = s.fw := rfl
@[simp] theorem State.setGrid_nextPush (s : State) (k : Nat) (x : Grid) : (s.setGrid k x).nextPush = s.nextPush := rfl
@[simp] theorem State.setGrid_chipStopped (s : State) (k : Nat) (x : Grid) : (s.setGrid k x).chipStopped = s.chipStopped := rfl
@[simp] theorem State.setGrid_schedule (s : State) (k : Nat) (x : Grid) : (s.setGrid k x).schedule = s.schedule := rfl
@[simp] theorem State.setGrid_turn (s : State) (k : Nat) (x : Grid) : (s.setGrid k x).turn = s.turn := rfl
@[simp] theorem State.setGrid_clock (s : State) (k : Nat) (x : Grid) : (s.setGrid k x).clock = s.clock := rfl
@[simp] theorem State.setGrid_freeCtr (s : State) (k : Nat) (x : Grid) : (s.setGrid k x).freeCtr = s.freeCtr := rfl
@[simp] theorem State.setGrid_pace (s : State) (k : Nat) (x : Grid) : (s.setGrid k x).pace = s.pace := rfl
@[simp] theorem State.setGrid_seen (s : State) (k : Nat) (x : Grid) : (s.setGrid k x).seen = s.seen := rfl
@[simp] theorem State.setGrid_grid (s : State) (k : Nat) (x : Grid) (j : Nat) :
    (s.setGrid k x).grid j = if j = k then x else s.grid j := by
  simp [State.setGrid, State.grid]
@[simp] theorem State.setGrid_team (s : State) (k : Nat) (x : Grid) (j : Nat) : (s.setGrid k x).team j = s.team j := rfl
@[simp] theorem State.setGrid_ctx (s : State) (k : Nat) (x : Grid) (j : Nat) : (s.setGrid k x).ctx j = s.ctx j := rfl
@[simp] theorem State.setGrid_coreAt (s : State) (k : Nat) (x : Grid) (j : Nat) : (s.setGrid k x).coreAt j = s.coreAt j := rfl
@[simp] theorem State.setGrid_line (s : State) (k : Nat) (x : Grid) (j : Nat) : (s.setGrid k x).line j = s.line j := rfl
@[simp] theorem State.setGrid_frame (s : State) (k : Nat) (x : Grid) (j : Nat) : (s.setGrid k x).frame j = s.frame j := rfl
@[simp] theorem State.setGrid_byte (s : State) (k : Nat) (x : Grid) (j : Nat) : (s.setGrid k x).byte j = s.byte j := rfl

/-! ## setCtx -/

@[simp] theorem State.setCtx_mem (s : State) (k : Nat) (x : Context) : (s.setCtx k x).mem = s.mem := rfl
@[simp] theorem State.setCtx_lines (s : State) (k : Nat) (x : Context) : (s.setCtx k x).lines = s.lines := rfl
@[simp] theorem State.setCtx_bad (s : State) (k : Nat) (x : Context) : (s.setCtx k x).bad = s.bad := rfl
@[simp] theorem State.setCtx_sites (s : State) (k : Nat) (x : Context) : (s.setCtx k x).sites = s.sites := rfl
@[simp] theorem State.setCtx_frames (s : State) (k : Nat) (x : Context) : (s.setCtx k x).frames = s.frames := rfl
@[simp] theorem State.setCtx_tlb (s : State) (k : Nat) (x : Context) : (s.setCtx k x).tlb = s.tlb := rfl
@[simp] theorem State.setCtx_cores (s : State) (k : Nat) (x : Context) : (s.setCtx k x).cores = s.cores := rfl
@[simp] theorem State.setCtx_teams (s : State) (k : Nat) (x : Context) : (s.setCtx k x).teams = s.teams := rfl
@[simp] theorem State.setCtx_grids (s : State) (k : Nat) (x : Context) : (s.setCtx k x).grids = s.grids := rfl
@[simp] theorem State.setCtx_parked (s : State) (k : Nat) (x : Context) : (s.setCtx k x).parked = s.parked := rfl
@[simp] theorem State.setCtx_releases (s : State) (k : Nat) (x : Context) : (s.setCtx k x).releases = s.releases := rfl
@[simp] theorem State.setCtx_dsp (s : State) (k : Nat) (x : Context) : (s.setCtx k x).dsp = s.dsp := rfl
@[simp] theorem State.setCtx_fab (s : State) (k : Nat) (x : Context) : (s.setCtx k x).fab = s.fab := rfl
@[simp] theorem State.setCtx_fw (s : State) (k : Nat) (x : Context) : (s.setCtx k x).fw = s.fw := rfl
@[simp] theorem State.setCtx_nextPush (s : State) (k : Nat) (x : Context) : (s.setCtx k x).nextPush = s.nextPush := rfl
@[simp] theorem State.setCtx_chipStopped (s : State) (k : Nat) (x : Context) : (s.setCtx k x).chipStopped = s.chipStopped := rfl
@[simp] theorem State.setCtx_schedule (s : State) (k : Nat) (x : Context) : (s.setCtx k x).schedule = s.schedule := rfl
@[simp] theorem State.setCtx_turn (s : State) (k : Nat) (x : Context) : (s.setCtx k x).turn = s.turn := rfl
@[simp] theorem State.setCtx_clock (s : State) (k : Nat) (x : Context) : (s.setCtx k x).clock = s.clock := rfl
@[simp] theorem State.setCtx_freeCtr (s : State) (k : Nat) (x : Context) : (s.setCtx k x).freeCtr = s.freeCtr := rfl
@[simp] theorem State.setCtx_pace (s : State) (k : Nat) (x : Context) : (s.setCtx k x).pace = s.pace := rfl
@[simp] theorem State.setCtx_seen (s : State) (k : Nat) (x : Context) : (s.setCtx k x).seen = s.seen := rfl
@[simp] theorem State.setCtx_ctx (s : State) (k : Nat) (x : Context) (j : Nat) :
    (s.setCtx k x).ctx j = if j = k then x else s.ctx j := by
  simp [State.setCtx, State.ctx]
@[simp] theorem State.setCtx_team (s : State) (k : Nat) (x : Context) (j : Nat) : (s.setCtx k x).team j = s.team j := rfl
@[simp] theorem State.setCtx_grid (s : State) (k : Nat) (x : Context) (j : Nat) : (s.setCtx k x).grid j = s.grid j := rfl
@[simp] theorem State.setCtx_coreAt (s : State) (k : Nat) (x : Context) (j : Nat) : (s.setCtx k x).coreAt j = s.coreAt j := rfl
@[simp] theorem State.setCtx_line (s : State) (k : Nat) (x : Context) (j : Nat) : (s.setCtx k x).line j = s.line j := rfl
@[simp] theorem State.setCtx_frame (s : State) (k : Nat) (x : Context) (j : Nat) : (s.setCtx k x).frame j = s.frame j := rfl
@[simp] theorem State.setCtx_byte (s : State) (k : Nat) (x : Context) (j : Nat) : (s.setCtx k x).byte j = s.byte j := rfl
@[simp] theorem State.setCtx_gridOf (s : State) (k : Nat) (x : Context) (j : Nat) : (s.setCtx k x).gridOf j = s.gridOf j := rfl

/-! ## setCore -/

@[simp] theorem State.setCore_mem (s : State) (k : Nat) (x : Core) : (s.setCore k x).mem = s.mem := rfl
@[simp] theorem State.setCore_lines (s : State) (k : Nat) (x : Core) : (s.setCore k x).lines = s.lines := rfl
@[simp] theorem State.setCore_bad (s : State) (k : Nat) (x : Core) : (s.setCore k x).bad = s.bad := rfl
@[simp] theorem State.setCore_sites (s : State) (k : Nat) (x : Core) : (s.setCore k x).sites = s.sites := rfl
@[simp] theorem State.setCore_frames (s : State) (k : Nat) (x : Core) : (s.setCore k x).frames = s.frames := rfl
@[simp] theorem State.setCore_tlb (s : State) (k : Nat) (x : Core) : (s.setCore k x).tlb = s.tlb := rfl
@[simp] theorem State.setCore_teams (s : State) (k : Nat) (x : Core) : (s.setCore k x).teams = s.teams := rfl
@[simp] theorem State.setCore_grids (s : State) (k : Nat) (x : Core) : (s.setCore k x).grids = s.grids := rfl
@[simp] theorem State.setCore_ctxs (s : State) (k : Nat) (x : Core) : (s.setCore k x).ctxs = s.ctxs := rfl
@[simp] theorem State.setCore_parked (s : State) (k : Nat) (x : Core) : (s.setCore k x).parked = s.parked := rfl
@[simp] theorem State.setCore_releases (s : State) (k : Nat) (x : Core) : (s.setCore k x).releases = s.releases := rfl
@[simp] theorem State.setCore_dsp (s : State) (k : Nat) (x : Core) : (s.setCore k x).dsp = s.dsp := rfl
@[simp] theorem State.setCore_fab (s : State) (k : Nat) (x : Core) : (s.setCore k x).fab = s.fab := rfl
@[simp] theorem State.setCore_fw (s : State) (k : Nat) (x : Core) : (s.setCore k x).fw = s.fw := rfl
@[simp] theorem State.setCore_nextPush (s : State) (k : Nat) (x : Core) : (s.setCore k x).nextPush = s.nextPush := rfl
@[simp] theorem State.setCore_chipStopped (s : State) (k : Nat) (x : Core) : (s.setCore k x).chipStopped = s.chipStopped := rfl
@[simp] theorem State.setCore_schedule (s : State) (k : Nat) (x : Core) : (s.setCore k x).schedule = s.schedule := rfl
@[simp] theorem State.setCore_turn (s : State) (k : Nat) (x : Core) : (s.setCore k x).turn = s.turn := rfl
@[simp] theorem State.setCore_clock (s : State) (k : Nat) (x : Core) : (s.setCore k x).clock = s.clock := rfl
@[simp] theorem State.setCore_freeCtr (s : State) (k : Nat) (x : Core) : (s.setCore k x).freeCtr = s.freeCtr := rfl
@[simp] theorem State.setCore_pace (s : State) (k : Nat) (x : Core) : (s.setCore k x).pace = s.pace := rfl
@[simp] theorem State.setCore_seen (s : State) (k : Nat) (x : Core) : (s.setCore k x).seen = s.seen := rfl
@[simp] theorem State.setCore_coreAt (s : State) (k : Nat) (x : Core) (j : Nat) :
    (s.setCore k x).coreAt j = if j = k then x else s.coreAt j := by
  simp [State.setCore, State.coreAt]
@[simp] theorem State.setCore_team (s : State) (k : Nat) (x : Core) (j : Nat) : (s.setCore k x).team j = s.team j := rfl
@[simp] theorem State.setCore_grid (s : State) (k : Nat) (x : Core) (j : Nat) : (s.setCore k x).grid j = s.grid j := rfl
@[simp] theorem State.setCore_ctx (s : State) (k : Nat) (x : Core) (j : Nat) : (s.setCore k x).ctx j = s.ctx j := rfl
@[simp] theorem State.setCore_line (s : State) (k : Nat) (x : Core) (j : Nat) : (s.setCore k x).line j = s.line j := rfl
@[simp] theorem State.setCore_frame (s : State) (k : Nat) (x : Core) (j : Nat) : (s.setCore k x).frame j = s.frame j := rfl
@[simp] theorem State.setCore_byte (s : State) (k : Nat) (x : Core) (j : Nat) : (s.setCore k x).byte j = s.byte j := rfl
@[simp] theorem State.setCore_gridOf (s : State) (k : Nat) (x : Core) (j : Nat) : (s.setCore k x).gridOf j = s.gridOf j := rfl

/-! ## setLine -/

@[simp] theorem State.setLine_mem (s : State) (k : Nat) (x : LineState) : (s.setLine k x).mem = s.mem := rfl
@[simp] theorem State.setLine_bad (s : State) (k : Nat) (x : LineState) : (s.setLine k x).bad = s.bad := rfl
@[simp] theorem State.setLine_sites (s : State) (k : Nat) (x : LineState) : (s.setLine k x).sites = s.sites := rfl
@[simp] theorem State.setLine_frames (s : State) (k : Nat) (x : LineState) : (s.setLine k x).frames = s.frames := rfl
@[simp] theorem State.setLine_tlb (s : State) (k : Nat) (x : LineState) : (s.setLine k x).tlb = s.tlb := rfl
@[simp] theorem State.setLine_cores (s : State) (k : Nat) (x : LineState) : (s.setLine k x).cores = s.cores := rfl
@[simp] theorem State.setLine_teams (s : State) (k : Nat) (x : LineState) : (s.setLine k x).teams = s.teams := rfl
@[simp] theorem State.setLine_grids (s : State) (k : Nat) (x : LineState) : (s.setLine k x).grids = s.grids := rfl
@[simp] theorem State.setLine_ctxs (s : State) (k : Nat) (x : LineState) : (s.setLine k x).ctxs = s.ctxs := rfl
@[simp] theorem State.setLine_parked (s : State) (k : Nat) (x : LineState) : (s.setLine k x).parked = s.parked := rfl
@[simp] theorem State.setLine_releases (s : State) (k : Nat) (x : LineState) : (s.setLine k x).releases = s.releases := rfl
@[simp] theorem State.setLine_dsp (s : State) (k : Nat) (x : LineState) : (s.setLine k x).dsp = s.dsp := rfl
@[simp] theorem State.setLine_fab (s : State) (k : Nat) (x : LineState) : (s.setLine k x).fab = s.fab := rfl
@[simp] theorem State.setLine_fw (s : State) (k : Nat) (x : LineState) : (s.setLine k x).fw = s.fw := rfl
@[simp] theorem State.setLine_nextPush (s : State) (k : Nat) (x : LineState) : (s.setLine k x).nextPush = s.nextPush := rfl
@[simp] theorem State.setLine_chipStopped (s : State) (k : Nat) (x : LineState) : (s.setLine k x).chipStopped = s.chipStopped := rfl
@[simp] theorem State.setLine_schedule (s : State) (k : Nat) (x : LineState) : (s.setLine k x).schedule = s.schedule := rfl
@[simp] theorem State.setLine_turn (s : State) (k : Nat) (x : LineState) : (s.setLine k x).turn = s.turn := rfl
@[simp] theorem State.setLine_clock (s : State) (k : Nat) (x : LineState) : (s.setLine k x).clock = s.clock := rfl
@[simp] theorem State.setLine_freeCtr (s : State) (k : Nat) (x : LineState) : (s.setLine k x).freeCtr = s.freeCtr := rfl
@[simp] theorem State.setLine_pace (s : State) (k : Nat) (x : LineState) : (s.setLine k x).pace = s.pace := rfl
@[simp] theorem State.setLine_seen (s : State) (k : Nat) (x : LineState) : (s.setLine k x).seen = s.seen := rfl
@[simp] theorem State.setLine_line (s : State) (k : Nat) (x : LineState) (j : Nat) :
    (s.setLine k x).line j = if j = k then x else s.line j := by
  simp [State.setLine, State.line]
@[simp] theorem State.setLine_team (s : State) (k : Nat) (x : LineState) (j : Nat) : (s.setLine k x).team j = s.team j := rfl
@[simp] theorem State.setLine_grid (s : State) (k : Nat) (x : LineState) (j : Nat) : (s.setLine k x).grid j = s.grid j := rfl
@[simp] theorem State.setLine_ctx (s : State) (k : Nat) (x : LineState) (j : Nat) : (s.setLine k x).ctx j = s.ctx j := rfl
@[simp] theorem State.setLine_coreAt (s : State) (k : Nat) (x : LineState) (j : Nat) : (s.setLine k x).coreAt j = s.coreAt j := rfl
@[simp] theorem State.setLine_frame (s : State) (k : Nat) (x : LineState) (j : Nat) : (s.setLine k x).frame j = s.frame j := rfl
@[simp] theorem State.setLine_byte (s : State) (k : Nat) (x : LineState) (j : Nat) : (s.setLine k x).byte j = s.byte j := rfl
@[simp] theorem State.setLine_gridOf (s : State) (k : Nat) (x : LineState) (j : Nat) : (s.setLine k x).gridOf j = s.gridOf j := rfl

/-! ## setFrame -/

@[simp] theorem State.setFrame_mem (s : State) (k : Nat) (x : Word) : (s.setFrame k x).mem = s.mem := rfl
@[simp] theorem State.setFrame_lines (s : State) (k : Nat) (x : Word) : (s.setFrame k x).lines = s.lines := rfl
@[simp] theorem State.setFrame_bad (s : State) (k : Nat) (x : Word) : (s.setFrame k x).bad = s.bad := rfl
@[simp] theorem State.setFrame_sites (s : State) (k : Nat) (x : Word) : (s.setFrame k x).sites = s.sites := rfl
@[simp] theorem State.setFrame_tlb (s : State) (k : Nat) (x : Word) : (s.setFrame k x).tlb = s.tlb := rfl
@[simp] theorem State.setFrame_cores (s : State) (k : Nat) (x : Word) : (s.setFrame k x).cores = s.cores := rfl
@[simp] theorem State.setFrame_teams (s : State) (k : Nat) (x : Word) : (s.setFrame k x).teams = s.teams := rfl
@[simp] theorem State.setFrame_grids (s : State) (k : Nat) (x : Word) : (s.setFrame k x).grids = s.grids := rfl
@[simp] theorem State.setFrame_ctxs (s : State) (k : Nat) (x : Word) : (s.setFrame k x).ctxs = s.ctxs := rfl
@[simp] theorem State.setFrame_parked (s : State) (k : Nat) (x : Word) : (s.setFrame k x).parked = s.parked := rfl
@[simp] theorem State.setFrame_releases (s : State) (k : Nat) (x : Word) : (s.setFrame k x).releases = s.releases := rfl
@[simp] theorem State.setFrame_dsp (s : State) (k : Nat) (x : Word) : (s.setFrame k x).dsp = s.dsp := rfl
@[simp] theorem State.setFrame_fab (s : State) (k : Nat) (x : Word) : (s.setFrame k x).fab = s.fab := rfl
@[simp] theorem State.setFrame_fw (s : State) (k : Nat) (x : Word) : (s.setFrame k x).fw = s.fw := rfl
@[simp] theorem State.setFrame_nextPush (s : State) (k : Nat) (x : Word) : (s.setFrame k x).nextPush = s.nextPush := rfl
@[simp] theorem State.setFrame_chipStopped (s : State) (k : Nat) (x : Word) : (s.setFrame k x).chipStopped = s.chipStopped := rfl
@[simp] theorem State.setFrame_schedule (s : State) (k : Nat) (x : Word) : (s.setFrame k x).schedule = s.schedule := rfl
@[simp] theorem State.setFrame_turn (s : State) (k : Nat) (x : Word) : (s.setFrame k x).turn = s.turn := rfl
@[simp] theorem State.setFrame_clock (s : State) (k : Nat) (x : Word) : (s.setFrame k x).clock = s.clock := rfl
@[simp] theorem State.setFrame_freeCtr (s : State) (k : Nat) (x : Word) : (s.setFrame k x).freeCtr = s.freeCtr := rfl
@[simp] theorem State.setFrame_pace (s : State) (k : Nat) (x : Word) : (s.setFrame k x).pace = s.pace := rfl
@[simp] theorem State.setFrame_seen (s : State) (k : Nat) (x : Word) : (s.setFrame k x).seen = s.seen := rfl
@[simp] theorem State.setFrame_frame (s : State) (k : Nat) (x : Word) (j : Nat) :
    (s.setFrame k x).frame j = if j = k then x else s.frame j := by
  simp [State.setFrame, State.frame]
@[simp] theorem State.setFrame_team (s : State) (k : Nat) (x : Word) (j : Nat) : (s.setFrame k x).team j = s.team j := rfl
@[simp] theorem State.setFrame_grid (s : State) (k : Nat) (x : Word) (j : Nat) : (s.setFrame k x).grid j = s.grid j := rfl
@[simp] theorem State.setFrame_ctx (s : State) (k : Nat) (x : Word) (j : Nat) : (s.setFrame k x).ctx j = s.ctx j := rfl
@[simp] theorem State.setFrame_coreAt (s : State) (k : Nat) (x : Word) (j : Nat) : (s.setFrame k x).coreAt j = s.coreAt j := rfl
@[simp] theorem State.setFrame_line (s : State) (k : Nat) (x : Word) (j : Nat) : (s.setFrame k x).line j = s.line j := rfl
@[simp] theorem State.setFrame_byte (s : State) (k : Nat) (x : Word) (j : Nat) : (s.setFrame k x).byte j = s.byte j := rfl
@[simp] theorem State.setFrame_gridOf (s : State) (k : Nat) (x : Word) (j : Nat) : (s.setFrame k x).gridOf j = s.gridOf j := rfl

/-! ## setByte -/

@[simp] theorem State.setByte_lines (s : State) (k : Nat) (x : Byte) : (s.setByte k x).lines = s.lines := rfl
@[simp] theorem State.setByte_bad (s : State) (k : Nat) (x : Byte) : (s.setByte k x).bad = s.bad := rfl
@[simp] theorem State.setByte_sites (s : State) (k : Nat) (x : Byte) : (s.setByte k x).sites = s.sites := rfl
@[simp] theorem State.setByte_frames (s : State) (k : Nat) (x : Byte) : (s.setByte k x).frames = s.frames := rfl
@[simp] theorem State.setByte_tlb (s : State) (k : Nat) (x : Byte) : (s.setByte k x).tlb = s.tlb := rfl
@[simp] theorem State.setByte_cores (s : State) (k : Nat) (x : Byte) : (s.setByte k x).cores = s.cores := rfl
@[simp] theorem State.setByte_teams (s : State) (k : Nat) (x : Byte) : (s.setByte k x).teams = s.teams := rfl
@[simp] theorem State.setByte_grids (s : State) (k : Nat) (x : Byte) : (s.setByte k x).grids = s.grids := rfl
@[simp] theorem State.setByte_ctxs (s : State) (k : Nat) (x : Byte) : (s.setByte k x).ctxs = s.ctxs := rfl
@[simp] theorem State.setByte_parked (s : State) (k : Nat) (x : Byte) : (s.setByte k x).parked = s.parked := rfl
@[simp] theorem State.setByte_releases (s : State) (k : Nat) (x : Byte) : (s.setByte k x).releases = s.releases := rfl
@[simp] theorem State.setByte_dsp (s : State) (k : Nat) (x : Byte) : (s.setByte k x).dsp = s.dsp := rfl
@[simp] theorem State.setByte_fab (s : State) (k : Nat) (x : Byte) : (s.setByte k x).fab = s.fab := rfl
@[simp] theorem State.setByte_fw (s : State) (k : Nat) (x : Byte) : (s.setByte k x).fw = s.fw := rfl
@[simp] theorem State.setByte_nextPush (s : State) (k : Nat) (x : Byte) : (s.setByte k x).nextPush = s.nextPush := rfl
@[simp] theorem State.setByte_chipStopped (s : State) (k : Nat) (x : Byte) : (s.setByte k x).chipStopped = s.chipStopped := rfl
@[simp] theorem State.setByte_schedule (s : State) (k : Nat) (x : Byte) : (s.setByte k x).schedule = s.schedule := rfl
@[simp] theorem State.setByte_turn (s : State) (k : Nat) (x : Byte) : (s.setByte k x).turn = s.turn := rfl
@[simp] theorem State.setByte_clock (s : State) (k : Nat) (x : Byte) : (s.setByte k x).clock = s.clock := rfl
@[simp] theorem State.setByte_freeCtr (s : State) (k : Nat) (x : Byte) : (s.setByte k x).freeCtr = s.freeCtr := rfl
@[simp] theorem State.setByte_pace (s : State) (k : Nat) (x : Byte) : (s.setByte k x).pace = s.pace := rfl
@[simp] theorem State.setByte_seen (s : State) (k : Nat) (x : Byte) : (s.setByte k x).seen = s.seen := rfl
@[simp] theorem State.setByte_byte (s : State) (k : Nat) (x : Byte) (j : Nat) :
    (s.setByte k x).byte j = if j = k then x else s.byte j := by
  simp [State.setByte, State.byte]
@[simp] theorem State.setByte_team (s : State) (k : Nat) (x : Byte) (j : Nat) : (s.setByte k x).team j = s.team j := rfl
@[simp] theorem State.setByte_grid (s : State) (k : Nat) (x : Byte) (j : Nat) : (s.setByte k x).grid j = s.grid j := rfl
@[simp] theorem State.setByte_ctx (s : State) (k : Nat) (x : Byte) (j : Nat) : (s.setByte k x).ctx j = s.ctx j := rfl
@[simp] theorem State.setByte_coreAt (s : State) (k : Nat) (x : Byte) (j : Nat) : (s.setByte k x).coreAt j = s.coreAt j := rfl
@[simp] theorem State.setByte_line (s : State) (k : Nat) (x : Byte) (j : Nat) : (s.setByte k x).line j = s.line j := rfl
@[simp] theorem State.setByte_frame (s : State) (k : Nat) (x : Byte) (j : Nat) : (s.setByte k x).frame j = s.frame j := rfl
@[simp] theorem State.setByte_gridOf (s : State) (k : Nat) (x : Byte) (j : Nat) : (s.setByte k x).gridOf j = s.gridOf j := rfl

/-! ## Lanes and sequencers -/

@[simp] theorem Team.lane_setLane (t : Team) (n m : Nat) (l : Lane) :
    (t.setLane n l).lane m = if m = n then l else t.lane m := by simp [Team.setLane, Team.lane]

@[simp] theorem State.setSeq_team (s : State) (tk : Nat) (q : Sequencer) (j : Nat) :
    (s.setSeq tk q).team j = if j = tk then { s.team tk with seq := q } else s.team j := by
  simp [State.setSeq]

/-- Every lane of a run is replaced by the same function of itself; the others stay. -/
theorem Team.lane_updateLanes (t : Team) (ns : List Nat) (f : Nat → Lane → Lane) (n : Nat) :
    (t.updateLanes ns f).lane n = if n ∈ ns then f n (t.lane n) else t.lane n := by
  unfold Team.updateLanes
  suffices h : ∀ (a : Team), (ns.foldl (fun a n => a.setLane n (f n (t.lane n))) a).lane n =
      if n ∈ ns then f n (t.lane n) else a.lane n from h t
  induction ns with
  | nil => intro a; simp
  | cons m r ih =>
    intro a
    rw [List.foldl_cons, ih, Team.lane_setLane]
    by_cases hr : n ∈ r
    · simp [hr]
    · by_cases hm : n = m
      · subst hm; simp
      · simp [hr, hm]

/-- Replacing lanes changes nothing else of the team. -/
theorem Team.updateLanes_rest (t : Team) (ns : List Nat) (f : Nat → Lane → Lane) :
    t.updateLanes ns f = { t with lanes := (t.updateLanes ns f).lanes } := by
  unfold Team.updateLanes
  suffices h : ∀ (a : Team), ns.foldl (fun a n => a.setLane n (f n (t.lane n))) a =
      { a with lanes := (ns.foldl (fun a n => a.setLane n (f n (t.lane n))) a).lanes } from h t
  induction ns with
  | nil => intro a; rfl
  | cons m r ih =>
    intro a
    rw [List.foldl_cons, ih]
    simp [Team.setLane]

end Sys2Proof.Machine
end

