-- ==== Sys2Proof/Laws/Lane.lean ====
section
/-! SUPPORT. What the shared operations of lane instructions do: reading and writing registers and predicates, and
the completion of an instruction that changes only its lanes. -/

namespace Sys2Proof.Machine

/-! ## Registers and predicates -/

theorem Lane.reg_absGet (l : Lane) (trap : Bool) {f : Nat} (h : f < 64) : l.reg trap f = l.absGet (absReg trap f) := by
  unfold Lane.reg Lane.absGet absReg
  by_cases ht : trap = true <;> by_cases hf : 56 ≤ f <;> simp [ht, hf] <;> omega

theorem Lane.absGet_setReg (l : Lane) (trap : Bool) {f : Nat} (h : f < 64) (x : VReg) (k : Nat) :
    (l.setReg trap f x).absGet k = if k = absReg trap f then x else l.absGet k := by
  unfold Lane.setReg Lane.absGet absReg
  by_cases ht : trap = true ∧ 56 ≤ f
  · simp only [ht.1, ht.2, decide_true, Bool.and_self, if_true]
    by_cases hk : 64 ≤ k
    · have : (k - 64 = f - 56) ↔ (k = f + 8) := by omega
      simp [hk, this]
    · have : k ≠ f + 8 := by omega
      simp [hk, this]
  · have hc : (trap && decide (56 ≤ f)) = false := by cases trap <;> simp_all
    simp only [hc, Bool.false_eq_true, if_false]
    by_cases hk : 64 ≤ k
    · have : k ≠ f := by omega
      simp [hk, this]
    · simp [hk]

/-- A register reads what was written to it. -/
theorem Lane.reg_setReg_same (l : Lane) (trap : Bool) {f : Nat} (h : f < 64) (x : VReg) :
    (l.setReg trap f x).reg trap f = x := by
  rw [Lane.reg_absGet _ _ h, Lane.absGet_setReg _ _ h, if_pos rfl]

/-- Writing a register changes registers alone. -/
theorem Lane.setReg_rest (l : Lane) (trap : Bool) (f : Nat) (x : VReg) :
    l.setReg trap f x = { l with v := (l.setReg trap f x).v, h := (l.setReg trap f x).h } := by
  unfold Lane.setReg; split <;> rfl

theorem getLsbD_setBit8 (b : BitVec 8) (i j : Nat) (x : Bool) (hj : j < 8) :
    (setBit8 b i x).getLsbD j = if j = i then x else b.getLsbD j := by
  have hp : (BitVec.ofNat 8 (2 ^ i)).getLsbD j = decide (j = i) := by
    rw [BitVec.getLsbD_ofNat, Nat.testBit_two_pow]
    simp [hj, eq_comm]
  unfold setBit8
  cases x
  · rw [if_neg (by simp), BitVec.getLsbD_and, BitVec.getLsbD_not, hp]
    by_cases h : j = i <;> simp [h, hj]
  · rw [if_pos rfl, BitVec.getLsbD_or, hp]
    by_cases h : j = i <;> simp [h]

/-- Predicates after a write (R166): p0 ignores it, and a poisoned one reads false. -/
theorem Lane.pred_setPred (l : Lane) {p : Nat} (hp : p < 8) (v q : Bool) (j : Nat) :
    (l.setPred p v q).pred j = if j = p then decide (j = 0) || (v && !q) else l.pred j := by
  unfold Lane.setPred Lane.pred
  by_cases h0 : p = 0
  · subst h0
    by_cases hj : j = 0
    · simp [hj]
    · simp [hj]
  · by_cases hj : j < 8
    · simp only [h0, if_false, getLsbD_setBit8 _ _ _ _ hj]
      by_cases h : j = p
      · subst h; cases v <;> cases q <;> simp [h0]
      · simp [h]
    · have h : j ≠ p := by omega
      have e1 : ∀ b : BitVec 8, b.getLsbD j = false := fun b => BitVec.getLsbD_of_ge _ _ (by omega)
      simp [h0, h, e1]

theorem Lane.predPoison_setPred (l : Lane) {p : Nat} (hp : p < 8) (v q : Bool) (j : Nat) :
    (l.setPred p v q).predPoison j = if j = p then decide (j ≠ 0) && q else l.predPoison j := by
  unfold Lane.setPred Lane.predPoison
  by_cases h0 : p = 0
  · subst h0
    by_cases hj : j = 0
    · simp [hj]
    · simp [hj]
  · by_cases hj : j < 8
    · simp only [h0, if_false, getLsbD_setBit8 _ _ _ _ hj]
      by_cases h : j = p
      · subst h; simp [h0]
      · simp [h]
    · have h : j ≠ p := by omega
      have e1 : ∀ b : BitVec 8, b.getLsbD j = false := fun b => BitVec.getLsbD_of_ge _ _ (by omega)
      simp [h0, h, e1]

/-! ## Instructions that change only their lanes -/

theorem onRun_of_issuing {s s1 : State} {r : Run} (h : s.issuing = some (r, s1)) (f : Run → State → Out) :
    onRun s f = f r s1 := by simp [onRun, h]

theorem onRunRegs_of_issues {s s1 : State} {r : Run} {fields : List Nat} (h : LaneIssues s fields r s1)
    (f : Run → State → Out) : onRunRegs s fields f = f r s1 := by
  rw [onRunRegs, onRun_of_issuing h.1, h.2, if_neg (by simp)]

/-- Replacing lanes of the run changes nothing else. -/
theorem onlyRunLanes_update (s : State) (r : Run) (f : Nat → Lane → Lane) :
    OnlyRunLanes s (s.setTeam r.team ((s.team r.team).updateLanes r.lanes f)) r := by
  refine ⟨rfl, fun k hk => by simp [hk], ?_, fun n hn => ?_⟩
  · simpa using Team.updateLanes_rest (s.team r.team) r.lanes f
  · simp [Team.lane_updateLanes, hn]

/-- The lanes after replacing those of the run. -/
theorem lane_after_update (s : State) (r : Run) (f : Nat → Lane → Lane) {n : Nat} (hn : n ∈ r.lanes) :
    ((s.setTeam r.team ((s.team r.team).updateLanes r.lanes f)).team r.team).lane n = f n ((s.team r.team).lane n) := by
  simp [Team.lane_updateLanes, hn]

/-- A lane after an instruction that writes one register. -/
theorem laneKeeps_one_reg (l : Lane) (trap : Bool) {d : Nat} (hd : d < 64) (x : VReg) (fl : Flags) (len : Nat) :
    LaneKeeps l (l.apply trap len { regs := [(d, x)], flags := fl }) [absReg trap d] [] ∧
    (l.apply trap len { regs := [(d, x)], flags := fl }).pc = l.pc + BitVec.ofNat 64 len ∧
    (l.apply trap len { regs := [(d, x)], flags := fl }).reg trap d = x ∧
    (l.apply trap len { regs := [(d, x)], flags := fl }).lflags = l.lflags ||| fl := by
  have hr := Lane.setReg_rest l trap d x
  have ha : l.apply trap len { regs := [(d, x)], flags := fl } =
      { l with v := (l.setReg trap d x).v, h := (l.setReg trap d x).h, lflags := l.lflags ||| fl, pc := l.pc + BitVec.ofNat 64 len } := by
    simp only [Lane.apply, List.foldl_cons, List.foldl_nil]
    rw [hr]
  have hg : ∀ k, (l.apply trap len { regs := [(d, x)], flags := fl }).absGet k = (l.setReg trap d x).absGet k := by
    intro k; rw [ha]; rfl
  refine ⟨⟨fun k hk => ?_, fun p _ => ?_, ?_, ?_⟩, ?_, ?_, ?_⟩
  · rw [hg, Lane.absGet_setReg l trap hd, if_neg (by simpa using hk)]
  · rw [ha]; exact ⟨rfl, rfl⟩
  · rw [ha]
    ext i hi
    simp only [BitVec.getElem_and, BitVec.getElem_or]
    cases l.lflags[i] <;> simp
  · rw [ha]
  · rw [ha]
  · rw [Lane.reg_absGet _ _ hd, hg, Lane.absGet_setReg l trap hd, if_pos rfl]
  · rw [ha]

/-- What completing an instruction that writes one register does: its frame, the register, the flags. -/
theorem finishLanes_one_reg (s : State) (r : Run) (len : Nat) {d : Nat} (hd : d < 64) (x : Nat → Lane → VReg)
    (fl : Nat → Lane → Flags) :
    ∃ t, finishLanes s r len (fun n l => { regs := [(d, x n l)], flags := fl n l }) = .next t ∧
      LaneFrame s t r len [d] [] ∧ ∀ n ∈ r.lanes,
        (laneAt t r n).reg r.trap d = x n (laneAt s r n) ∧
        (laneAt t r n).lflags = (laneAt s r n).lflags ||| fl n (laneAt s r n) := by
  refine ⟨_, rfl, ⟨onlyRunLanes_update _ _ _, fun n hn => ?_⟩, fun n hn => ?_⟩ <;>
    simp only [laneAt, lane_after_update _ _ _ hn]
  · have h := laneKeeps_one_reg ((s.team r.team).lane n) r.trap hd (x n ((s.team r.team).lane n)) (fl n ((s.team r.team).lane n)) len
    exact ⟨h.1, h.2.1⟩
  · have h := laneKeeps_one_reg ((s.team r.team).lane n) r.trap hd (x n ((s.team r.team).lane n)) (fl n ((s.team r.team).lane n)) len
    exact h.2.2

end Sys2Proof.Machine
end

