-- ==== Sys2Proof/Laws/Mem.lean ====
section
/-! SUPPORT. The laws of memory: what is written is read back, every other byte stays, the effects on a line beside its
bytes leave all bytes as they are, and every operation that writes memory keeps its canonical form. -/

namespace Sys2Proof.Machine

/-! ## Read after write -/

theorem State.byte_setByte (s : State) (k j : Nat) (b : Byte) : (s.setByte k b).byte j = if j = k then b else s.byte j :=
  SMap.get_set ..

/-- Bytes outside a written stretch stay. -/
theorem State.byte_putBytes_out {s : State} {k j : Nat} {bs : List Byte} (h : j < k ∨ k + bs.length ≤ j) :
    (s.putBytes k bs).byte j = s.byte j := by
  induction bs generalizing s k with
  | nil => rfl
  | cons b r ih =>
    rw [List.length_cons] at h
    rw [State.putBytes, ih (by omega), State.byte_setByte, if_neg (by omega)]

/-- Byte i of a written stretch is the i-th that was written. -/
theorem State.byte_putBytes {s : State} {k i : Nat} {bs : List Byte} {b : Byte} (h : bs[i]? = some b) :
    (s.putBytes k bs).byte (k + i) = b := by
  induction bs generalizing s k i with
  | nil => cases h
  | cons x r ih =>
    rw [State.putBytes]
    cases i with
    | zero =>
      rw [State.byte_putBytes_out (.inl (by omega)), State.byte_setByte, Nat.add_zero, if_pos rfl]
      simpa using h
    | succ n =>
      rw [show k + (n + 1) = k + 1 + n by omega]
      exact ih (by simpa using h)

/-- Writing bytes changes memory and nothing else. -/
theorem State.putBytes_only (s : State) (k : Nat) (bs : List Byte) : s.putBytes k bs = { s with mem := (s.putBytes k bs).mem } := by
  induction bs generalizing s k with
  | nil => rfl
  | cons b r ih => rw [State.putBytes, ih]; rfl

/-! ## Effects that leave every byte -/

theorem State.logEntry_mem (s : State) (kind asid : Nat) (seq : BitVec 32) (addr detail : Word) :
    (s.logEntry kind asid seq addr detail).mem = s.mem := by
  unfold State.logEntry
  split <;> rfl

theorem State.raisePts_mem (s : State) (w : Who) (ts : Nat) : (s.raisePts w ts).mem = s.mem := by
  unfold State.raisePts
  split <;> rfl

theorem State.countAcc_mem (s : State) (l : Loc) : (s.countAcc l).mem = s.mem := by
  unfold State.countAcc
  dsimp only
  repeat' first
    | rfl
    | split

theorem State.detect_mem (s : State) (w : Who) (l : Loc) (k : Nat) : (s.detect w l k).mem = s.mem := by
  unfold State.detect
  split
  · exact State.logEntry_mem ..
  · rfl

theorem State.touchLoad_mem (s : State) (w : Who) (l : Loc) : (s.touchLoad w l).mem = s.mem := by
  unfold State.touchLoad
  dsimp only
  split
  · exact State.countAcc_mem ..
  · split
    · exact State.countAcc_mem ..
    · rw [State.countAcc_mem, State.raisePts_mem]
      exact State.detect_mem ..

theorem State.touchStore_mem (s : State) (w : Who) (l : Loc) : (s.touchStore w l).mem = s.mem := by
  unfold State.touchStore
  dsimp only
  split
  · exact State.countAcc_mem ..
  · split
    · exact State.countAcc_mem ..
    · rw [State.countAcc_mem, State.raisePts_mem]
      rfl

theorem State.setPoison_mem (s : State) (l : Loc) (p : Bool) : (s.setPoison l p).mem = s.mem := by
  unfold State.setPoison
  dsimp only
  repeat' first
    | rfl
    | split

theorem State.setTag_mem (s : State) (w : Who) (store : Bool) (l : Loc) : (s.setTag w store l).mem = s.mem := by
  unfold State.setTag
  dsimp only
  repeat' first
    | rfl
    | split

theorem State.undoLog_mem (s : State) (w : Who) (l : Loc) : (s.undoLog w l).mem = s.mem := by
  unfold State.undoLog
  dsimp only
  repeat' first
    | rfl
    | split

theorem State.failHost_mem (s : State) (l : Loc) (e : BridgeError) : (s.failHost l e).mem = s.mem := by
  unfold State.failHost
  cases l with
  | spad => rfl
  | pa a =>
    dsimp only
    split
    · rw [State.setLoc, State.setFrame_mem]
    · rfl

theorem State.discardWrite_mem (s : State) (w : Who) (l : Loc) : (s.discardWrite w l).mem = s.mem := State.logEntry_mem ..

theorem State.enqueue_mem (s : State) (dst : Nat) (b : FlitBody) : (s.enqueue dst b).mem = s.mem := by
  unfold State.enqueue
  generalize b.flits = fs
  induction fs generalizing s with
  | nil => rfl
  | cons x r ih =>
    refine (ih _).trans ?_
    dsimp only
    split <;> rfl

/-- Asking another chip changes no byte here (R322). -/
theorem State.sendFor_mem (s : State) (x : Forward) (b : Nat → FlitBody) : (s.sendFor x b).mem = s.mem := State.enqueue_mem ..

theorem State.forward_mem (s : State) (w : Who) (l : Loc) (n : Nat) (write : Bool) (b : Nat → Nat → FlitBody) :
    (s.forward w l n write b).mem = s.mem := by
  unfold State.forward
  split
  · exact State.sendFor_mem ..
  · rfl

/-- A load changes no byte of memory (R202). -/
theorem State.loadPiece_mem (s : State) (w : Who) (l : Loc) (n : Nat) : (s.loadPiece w l n).2.mem = s.mem := by
  have h : ((s.touchLoad w l).setTag w false l).mem = s.mem := by rw [State.setTag_mem, State.touchLoad_mem]
  unfold State.loadPiece
  dsimp only
  split
  · exact h
  · split
    · rw [State.failHost_mem, h]
    · exact h

theorem State.loadRuns_mem (w : Who) (ps : List (Loc × Nat)) (s : State) : (s.loadRuns w ps).2.mem = s.mem := by
  induction ps generalizing w s with
  | nil => rfl
  | cons p r ih => rw [State.loadRuns]; exact (ih _ _).trans (State.loadPiece_mem ..)

/-! ## The canonical form -/

theorem memWf_of_mem {s t : State} (h : t.mem = s.mem) (w : s.memWf = true) : t.memWf = true := by
  unfold State.memWf at *
  rw [h, w]

theorem memWf_setByte {s : State} (k : Nat) (b : Byte) (w : s.memWf = true) : (s.setByte k b).memWf = true := SMap.wf_set k b w

theorem memWf_putBytes {s : State} (k : Nat) (bs : List Byte) (w : s.memWf = true) : (s.putBytes k bs).memWf = true := by
  induction bs generalizing s k with
  | nil => exact w
  | cons b r ih => exact ih _ (memWf_setByte _ _ w)

/-- A store of one piece keeps memory canonical. -/
theorem memWf_storePiece {s : State} (w : Who) (l : Loc) (bs : List Byte) (poison clears : Bool) (h : s.memWf = true) :
    (s.storePiece w l bs poison clears).memWf = true := by
  unfold State.storePiece
  dsimp only
  split
  · exact memWf_of_mem ((State.discardWrite_mem ..).trans ((State.failHost_mem ..).trans (State.touchStore_mem ..))) h
  · split
    · have h1 := memWf_putBytes (s := (s.undoLog w l).touchStore w l) (by assumption) bs
        (memWf_of_mem ((State.touchStore_mem ..).trans (State.undoLog_mem ..)) h)
      apply memWf_of_mem (State.setTag_mem ..)
      split
      · exact memWf_of_mem (State.setPoison_mem ..) h1
      · split
        · exact memWf_of_mem (State.setPoison_mem ..) h1
        · exact h1
    · exact memWf_of_mem
        ((State.forward_mem ..).trans ((State.setTag_mem ..).trans ((State.touchStore_mem ..).trans (State.undoLog_mem ..)))) h
    · exact memWf_putBytes _ _ h
    · exact memWf_of_mem (State.discardWrite_mem ..) h

theorem memWf_storeRuns (w : Who) (done : Nat) (ps : List (Loc × Nat)) {s : State} (bs : List Byte) (poison full : Bool)
    (h : s.memWf = true) : (s.storeRuns w done ps bs poison full).memWf = true := by
  induction ps generalizing w done s bs with
  | nil => exact h
  | cons p r ih => exact ih _ _ _ (memWf_storePiece _ _ _ _ _ h)

theorem memWf_zeroBank {s : State} (tk bank : Nat) (h : s.memWf = true) : (s.zeroBank tk bank).memWf = true := SMap.wf_clear _ _ h

theorem memWf_wipeSpad {s : State} (tk : Nat) (h : s.memWf = true) : (s.wipeSpad tk).memWf = true := SMap.wf_clear _ _ h

theorem memWf_wipe {s : State} (h : s.memWf = true) : s.wipe.memWf = true := SMap.wf_clear _ _ (SMap.wf_clear _ _ h)

theorem memWf_restoreLine {s : State} (k : Nat) (u : UndoEntry) (h : s.memWf = true) : (s.restoreLine k u).memWf = true := by
  unfold State.restoreLine
  dsimp only
  refine memWf_of_mem (State.setGrid_mem ..) ?_
  split
  · exact memWf_of_mem (s := (s.touchStore (dispWho noAsid) (.pa (u.line * 64))).putBytes _ u.bytes) (State.setPoison_mem ..)
      (memWf_putBytes _ _ (memWf_of_mem (State.touchStore_mem ..) h))
  · split
    · exact h
    · exact memWf_of_mem ((State.forward_mem ..).trans (State.touchStore_mem ..)) h
  · exact memWf_putBytes _ _ h
  · exact h

/-- A checkpoint's bytes are written one by one. -/
theorem wf_foldl_set (es : List (Nat × Byte)) {m : SMap Byte} (h : SMap.wf 0 m = true) :
    SMap.wf 0 (es.foldl (fun m e => SMap.set 0 m e.1 e.2) m) = true := by
  induction es generalizing m with
  | nil => exact h
  | cons e r ih => exact ih (SMap.wf_set e.1 e.2 h)

theorem memWf_restoreTeam {s : State} (c : Checkpoint) (h : s.memWf = true) : (s.restoreTeam c).memWf = true := by
  have hl : ∀ (ls : List Nat) (t : State), t.memWf = true →
      (ls.foldl (fun s l => s.setLine l { s.line l with poison := true }) t).memWf = true := by
    intro ls
    induction ls with
    | nil => exact fun _ w => w
    | cons l r ih => exact fun t w => ih _ w
  exact hl _ _ (wf_foldl_set _ h)

end Sys2Proof.Machine
end

