-- ==== Sys2Proof/Machine/Order.lean ====
section
/-! DEFINITION. The global order as R230 defines it: by the timestamps of R229, then by its three rules for equal ones. The machine
performs the events of each line in this order (Sys2Proof.Laws.Order), which decides what loads return (DEDUCED log 69). -/

namespace Sys2Proof.Machine

/-- An event of the global order (R226, R229): its timestamp, its line, whether it stores, its agent's number, and its place among
the agent's events. -/
structure MemEvent where
  ts : Nat
  line : Nat
  store : Bool
  agent : List Nat
  place : Nat
  deriving DecidableEq, Repr

/-- The order of agent numbers: the first part in which they differ decides. -/
def agentLess (a b : List Nat) : Bool :=
  match a, b with
  | [], [] => false
  | [], _ :: _ => true
  | _ :: _, [] => false
  | x :: r, y :: t => decide (x < y) || (decide (x = y) && agentLess r t)

/-- Whether one event stands before another (R230): by timestamps; of one agent in its own order; a store before the loads of its
line, which return its value; the rest in ascending agent number. -/
def globalBefore (a b : MemEvent) : Bool :=
  decide (a.ts < b.ts) ||
    (decide (a.ts = b.ts) &&
      (if a.agent = b.agent then decide (a.place < b.place)
       else if a.line = b.line ∧ a.store ≠ b.store then a.store
       else agentLess a.agent b.agent))

/-- The core in whose queue a copy-engine command stands. -/
def State.engineCore (s : State) (num : Nat) : Option Nat :=
  (s.cores.find? (fun c => c.2.ce.any (fun d => decide (d.num = num)))).map (·.1)

/-- Where a page-engine command is served: 0 HBM4E, 1 LPDDR6, 2 host. -/
def State.engineTier (s : State) (num : Nat) : Option Nat :=
  (s.dsp.pg.find? (fun d => decide (d.num = num))).map (fun d => d.tier - 1)

/-- A team's place on its core, among the teams there. -/
def State.corePlace (s : State) (tk : Nat) : Nat :=
  (s.teams.filter (fun e => decide (e.2.core = (s.team tk).core ∧ e.1 < tk) && e.2.placed)).length

/-- The number of an agent (R230): its chip, its kind, and its place among its kind. A deferred reduction is its lane's, and what
the device does for itself goes with the host bridge. -/
def State.agentNumber (s : State) (w : Who) : List Nat :=
  match w.owner with
  | .agent (.lane tk n) =>
    let width := (s.gridOf tk).launch.width
    let slot := (s.team tk).slots.getD (n / width) (0, 0)
    [s.fab.chip, 0, (s.team tk).core, slot.1 / 16, slot.1 % 16, slot.2 + n % width]
  | .agent (.seq tk) =>
    if w.claim then [s.fab.chip, 2, (s.team tk).core] else [s.fab.chip, 1, (s.team tk).core, s.corePlace tk]
  | .red => [s.fab.chip, 0, w.core.getD 0]
  | .engine num =>
    match s.engineCore num, s.engineTier num with
    | some c, _ => [s.fab.chip, 3, c]
    | none, some t => [s.fab.chip, 5, t]
    | none, none => [s.fab.chip, 4]
  | .flit src _ => [src]
  | _ =>
    match w.core with
    | some c => [s.fab.chip, 1, c, s.corePlace (teamKey w.grid w.ix)]
    | none => [s.fab.chip, 6]

/-- The event that a piece of an access is, made now (R229). -/
def State.eventOf (s : State) (w : Who) (l : Loc) (store : Bool) (place : Nat) : MemEvent :=
  let x := (s.lineKey l).map s.line |>.getD {}
  { ts := if store then storeTs (s.ptsOf w) w.claim x else loadTs (s.ptsOf w) x, line := tagKey l, store := store,
    agent := s.agentNumber w, place := place }

end Sys2Proof.Machine
end

