-- ==== Sys2Proof/Laws/Order.lean ====
section
/-! SUPPORT. On one line the order of steps is the order of R230. -/

namespace Sys2Proof.Laws

open Sys2Proof.Machine

/-- A line after a load of it. -/
def afterLoad (pts lease : Nat) (x : LineState) : LineState := { x with rts := Nat.max x.rts (loadTs pts x + lease) }

/-- A line after a store to it. -/
def afterStore (pts : Nat) (claim : Bool) (x : LineState) : LineState :=
  { x with wts := storeTs pts claim x, rts := storeTs pts claim x }

/-- A store never takes the timestamp of a load of its line before it. -/
theorem store_after_load (p q lease : Nat) (c : Bool) (x : LineState) : loadTs p x < storeTs q c (afterLoad p lease x) := by
  cases c <;> simp [storeTs, afterLoad, Nat.max_def] <;> split <;> (try split) <;> omega

/-- A second store to a line takes a timestamp above the first. -/
theorem store_after_store (p q : Nat) (c d : Bool) (x : LineState) : storeTs p c x < storeTs q d (afterStore p c x) := by
  cases d <;> simp only [storeTs, afterStore, if_true, Bool.false_eq_true, if_false]
  · exact Nat.lt_of_lt_of_le (Nat.lt_succ_self _) (Nat.le_max_right _ _)
  · exact Nat.lt_succ_self _

/-- A load that returns a store's value stands at its timestamp or above. -/
theorem load_after_store (p q : Nat) (c : Bool) (x : LineState) : storeTs p c x ≤ loadTs q (afterStore p c x) := by
  simp [loadTs, afterStore, Nat.max_def]; split <;> omega

/-- A store and a later load of its line by another agent stand in that order. -/
theorem store_before_load (a b : MemEvent) (ha : a.store = true) (hb : b.store = false) (hl : a.line = b.line)
    (hn : a.agent ≠ b.agent) (ht : a.ts ≤ b.ts) : globalBefore a b = true := by
  rcases Nat.lt_or_eq_of_le ht with h | h
  · simp [globalBefore, h]
  · simp [globalBefore, h, hn, hl, ha, hb]

end Sys2Proof.Laws
end

