-- ==== Sys2Proof/Laws/Seq.lean ====
section
/-! SUPPORT. What the shared operations of sequencer instructions do. -/

namespace Sys2Proof.Machine

/-- An instruction of a sequencer that issues runs in the state in which its own wait has ended. -/
theorem onSeq_of_issues {s s1 : State} {tk : Nat} (h : SeqIssues s tk s1) (f : Nat → Sequencer → State → Out) :
    onSeq s f = f tk (s1.team tk).seq s1 := by
  obtain ⟨h1, h2, rfl⟩ := h
  simp [onSeq, h1, h2, State.setSeq]

/-- Replacing a sequencer changes it alone. -/
theorem onlySeq_setSeq (s : State) (tk : Nat) (q : Sequencer) : OnlySeq s (s.setSeq tk q) tk := by
  refine ⟨rfl, fun k hk => by simp [State.setSeq, hk], by simp [State.setSeq]⟩

/-- A sequencer instruction that only changes sequencer registers. -/
theorem seqOp_of_issues {s s1 : State} {tk : Nat} (h : SeqIssues s tk s1) (len : Nat) (f : Sequencer → Sequencer) :
    ∃ t, seqOp s len f = .next t ∧ OnlySeq s1 t tk ∧ (t.team tk).seq = (f (s1.team tk).seq).advance len := by
  refine ⟨_, by rw [seqOp, onSeq_of_issues h], onlySeq_setSeq _ _ _, by simp [State.setSeq]⟩

/-- Register 0 of a sequencer reads zero. -/
theorem Sequencer.reg_zero (q : Sequencer) : q.reg 0 = 0 := by simp [Sequencer.reg]

/-- A register reads what was written to it, and every other as before; a write to s0 does nothing. -/
theorem Sequencer.reg_setReg (q : Sequencer) {k n : Nat} (hk : k < 32) (hn : n < 32) (x : Word) :
    (q.setReg k x).reg n = if n = k then (if k = 0 then 0 else x) else q.reg n := by
  by_cases h0 : k = 0
  · subst h0
    by_cases hn0 : n = 0 <;> simp [Sequencer.setReg, Sequencer.reg, hn0]
  · by_cases hn0 : n = 0
    · have hnk : ¬ (0 = k) := fun h => h0 h.symm
      simp [Sequencer.reg, hn0, hnk]
    · by_cases hnk : n = k
      · subst hnk
        by_cases ht : (q.trap && decide (24 ≤ n)) = true
        · simp [Sequencer.setReg, Sequencer.reg, hn0, ht]
        · simp [Sequencer.setReg, Sequencer.reg, hn0, ht]
      · have hd : 24 ≤ n → 24 ≤ k → ¬ (n - 24 = k - 24) := by omega
        cases ht : q.trap <;> by_cases hk2 : 24 ≤ k <;> by_cases hn2 : 24 ≤ n <;>
          simp [Sequencer.setReg, Sequencer.reg, h0, hn0, hk2, hn2, hnk, ht, hd]

end Sys2Proof.Machine
end

