-- ==== Sys2Proof/Machine/TeamImage.lean ====
section
/-! DEFINITION. What system software reads in the image of a stopped team (R145, R283, R312): its sections as bytes,
in the order of R145's table, each from a 4 KiB boundary. Where R145 names what a section holds and not where, the
fields stand in the order it names them, a doubleword each (DESIGN CHOICE log 68). -/

namespace Sys2Proof.Machine

/-- The special state of one lane, 384 bytes (R145). Fields not listed read zero. -/
def Lane.stateEntry (l : Lane) : List Byte :=
  let w := l.wait.getD (0, 0)
  leBytes 8 (l.lflags.toNat + (if l.trap then 2 ^ 8 else 0) + (if l.wait.isSome then 2 ^ 9 else 0) + w.1 % 16 * 2 ^ 10 +
      w.2 % 2 ^ 24 * 2 ^ 14) ++
    leBytes 8 l.arrived.toNat ++ leBytes 8 l.stklim.toNat ++ leBytes 8 l.lcause.toNat ++ leBytes 8 l.lepc.toNat ++
    leBytes 8 l.laddr.toNat ++ leBytes 8 l.lnrec.toNat ++ leBytes 8 0 ++
    (List.range 32).flatMap (fun i => leBytes 8 (SMap.get 0 l.lprec i).toNat) ++ leBytes 64 0

/-- The lane-state section of a team of n lanes. -/
def Team.laneState (t : Team) (n : Nat) : List Byte := (List.range n).flatMap (fun i => (t.lane i).stateEntry)

/-- The predicate section: one byte a lane, p0 in bit 0, which reads true. -/
def Team.predicates (t : Team) (n : Nat) : List Byte :=
  (List.range n).map (fun i => (t.lane i).pv ||| 1)

/-- The vector registers below the cap of every lane, a doubleword each. -/
def Team.vectors (t : Team) (n cap : Nat) : List Byte :=
  (List.range n).flatMap (fun i => (List.range cap).flatMap (fun k => leBytes 8 (SMap.get {} (t.lane i).v k).val.toNat))

/-- The poison of those registers, in their order: the section's 8 bytes a register have no place for it (R145). -/
def Team.vectorPoison (t : Team) (n cap : Nat) : List Bool :=
  (List.range n).flatMap (fun i => (List.range cap).map (fun k => (SMap.get {} (t.lane i).v k).poison))

/-- The handler registers of every lane. -/
def Team.handlers (t : Team) (n : Nat) : List Byte :=
  (List.range n).flatMap (fun i => (List.range 8).flatMap (fun k => leBytes 8 (SMap.get {} (t.lane i).h k).val.toNat))

/-- The entry index of a node in an image, 0xFF where it has none (R283). -/
def Manifest.entryIndex (m : Manifest) (k : Nat) : Nat := (m.nodes.findIdx? (fun e => decide (e.1 = k))).getD 0xFF

/-- Operand fields of live nodes that name a node. -/
def Manifest.uses (m : Manifest) (k : Nat) : Nat := (m.nodes.flatMap (fun e => e.2.refs.filter (fun o => decide (o = k)))).length

/-- A node entry, 48 bytes (R283); a node that is not present is free. A node refers to its operands until its value is
materialized (R278), and the addend of a TSCA stands in SCAL (R293). -/
def Manifest.nodeEntry (m : Manifest) (e : Option (Nat × Node)) : List Byte :=
  match e with
  | none => leBytes 48 0
  | some (k, n) =>
    let o (i : Nat) : Nat := match n.refs[i]? with
      | some x => m.entryIndex x
      | none => 0xFF
    leBytes 8 (m.uses k % 2 ^ 8 + m.depth 17 k % 2 ^ 5 * 2 ^ 10 + n.contract % 4 * 2 ^ 15 + n.fmt % 32 * 2 ^ 17 +
        n.op % 64 * 2 ^ 22 + n.st.code * 2 ^ 28 + k % 2 ^ 32 * 2 ^ 32) ++
      leBytes 8 (n.creator.toNat % 2 ^ 56 + Nat.min n.ncre 255 * 2 ^ 56) ++
      leBytes 8 (o 0 + o 1 * 2 ^ 8 + o 2 * 2 ^ 16 + n.flags.toNat * 2 ^ 24 + n.fcode % 256 * 2 ^ 32) ++
      leBytes 8 (n.rows % 512 + n.cols % 512 * 2 ^ 9 + n.kdim % 512 * 2 ^ 18 +
        (if n.holds then n.gran % 256 * 2 ^ 40 + n.ngran % 256 * 2 ^ 48 else 0)) ++
      leBytes 8 (if n.op = opTsca then o 3 else (n.scal.getD 0 0).toNat) ++ leBytes 8 (n.scal.getD 1 0).toNat

/-- A force entry, 32 bytes (R283). -/
def Manifest.forceEntry (m : Manifest) (f : Option Force) : List Byte :=
  match f with
  | none => leBytes 32 0
  | some f =>
    let x : Nat × Word × Word := match f.kind with
      | .tst _ base desc => (1, base, desc)
      | .tforce => (2, 0, 0)
      | .insertion => (3, 0, 0)
      | .exit => (4, 0, 0)
    leBytes 8 (m.entryIndex f.root + x.1 * 2 ^ 8 + (if f.suspended then 2 ^ 16 else 0)) ++ leBytes 8 f.faddr.toNat ++
      leBytes 8 x.2.1.toNat ++ leBytes 8 x.2.2.toNat

/-- The manifest section, 4,096 bytes (R283). -/
def Manifest.section_ (m : Manifest) : List Byte :=
  (List.range 16).flatMap (fun r => leBytes 8 (match m.named r with
    | some k => m.entryIndex k
    | none => 0xFF)) ++
    leBytes 8 m.create ++
    [m.tflags, m.tfcre, m.tffor, m.toerr, m.tocre, m.tcreat, m.tforcr, 0].flatMap (fun (w : Word) => leBytes 8 w.toNat) ++
    leBytes 56 0 ++
    (List.range 16).flatMap (fun i => m.forceEntry m.forces[i]?) ++ leBytes 256 0 ++
    (List.range 64).flatMap (fun i => m.nodeEntry m.nodes[i]?)

/-- The scratchpad section of a team: its banks in ascending order. -/
def State.scratchpad (s : State) (tk : Nat) : List Byte :=
  (List.range ((s.gridOf tk).launch.sbanks * 32768)).map (fun i => s.byte (spadKey tk 0 0 + i))

/-! ## The sections whose places R145 leaves open -/

/-- The doubleword of a numbered barrier (R312). -/
def Barrier.word (b : Barrier) : Nat :=
  let st : Nat := match b.st with
    | .idle => 0
    | .arriving => 1
    | .arming => 2
  b.arr % 2 ^ 11 * 2 ^ 4 + b.pend % 2 ^ 11 * 2 ^ 15 + b.expected % 2 ^ 11 * 2 ^ 26 + (if b.seqArr then 2 ^ 37 else 0) +
    st * 2 ^ 38 + b.phase % 2 ^ 24 * 2 ^ 40

/-- Doublewords, filled up with zero to n of them. -/
def doublewords (n : Nat) (ws : List Nat) : List Byte := (List.range n).flatMap (fun i => leBytes 8 (ws.getD i 0))

/-- The header: coordinates, SEQ of the grid, stopped mark, phase count, b0 to b15 and %bmode. -/
def State.imageHeader (s : State) (tk : Nat) : List Byte :=
  let t := s.team tk
  let g := s.gridOf tk
  doublewords 32 ([g.coords (keyIx tk), g.launch.seq.toNat, if t.stopped then 1 else 0, t.phases.toNat] ++
    (List.range 16).map (fun b => (t.bar b).word) ++ [t.bmode.toNat])

/-- A held loop in five doublewords: passes, current pass, body and step word (R154). -/
def LoopState.words (l : Option LoopState) : List Nat :=
  match l with
  | none => [0, 0, 0, 0, 0]
  | some l => [l.count.toNat, l.pass.toNat, l.lo.toNat, l.hi.toNat, l.step.toNat]

/-- An interrupted wait in two doublewords: which wait with its barrier and phase, and the address (R396). -/
def SeqWait.words (w : Option (SeqWait × Word)) : List Nat :=
  match w with
  | none => [0, 0]
  | some (.bar b p, a) => [1 + b * 2 ^ 4 + p * 2 ^ 8, a.toNat]
  | some (.cbar p, a) => [2 + p * 2 ^ 8, a.toNat]
  | some (.gbar p, a) => [3 + p * 2 ^ 8, a.toNat]
  | some (.acq, a) => [4, a.toNat]
  | some (.vwait, a) => [5, a.toNat]
  | some (.force, a) => [6, a.toNat]
  | some (.page _ _, a) => [7, a.toNat]

/-- The sequencer section: s1 to s31, pc, trap mode, handler bank, %scause, %sepc, %saddr, the loops, the
interrupted wait and the wait in progress (R308). -/
def Sequencer.section_ (q : Sequencer) : List Byte :=
  doublewords 64 ((List.range 31).map (fun i => (SMap.get 0 q.s (i + 1)).toNat) ++
    [q.pc.toNat, if q.trap then 1 else 0] ++ (List.range 8).map (fun i => (SMap.get 0 q.hs i).toNat) ++
    [q.scause.toNat, q.sepc.toNat, q.saddr.toNat] ++ LoopState.words q.loop ++ LoopState.words q.hloop ++ SeqWait.words q.held ++
    SeqWait.words (q.wait.map (fun w => (w, q.pc))))

/-- The groups section: the width, the slot of the group and its first lane's place, and the masks of its lanes that
carry the deferred mark and that are in trap mode. -/
def Team.groupSection (t : Team) (width groups : Nat) : List Byte :=
  let mask (f : Lane → Bool) (k : Nat) : Nat :=
    ((List.range width).filter (fun i => f (t.lane (k * width + i)))).foldl (fun a i => a + 2 ^ i) 0
  (List.range groups).flatMap (fun k => doublewords 8
    [width, (t.slots.getD k (0, 0)).1 + (t.slots.getD k (0, 0)).2 * 2 ^ 32, mask (fun l => l.deferred) k, mask (fun l => l.trap) k])

/-- The counters section: an address has 56 bits (R201), active is bit 62 and exited bit 63. -/
def Team.counters (t : Team) (n : Nat) : List Byte :=
  (List.range n).flatMap (fun i =>
    leBytes 8 ((t.lane i).pc.toNat % 2 ^ 56 + (if (t.lane i).exited then 2 ^ 63 else 2 ^ 62)))

/-- A deferred reduction in 16 bytes: address, operation and type, then the operand (R210). -/
def RedEntry.bytes (r : RedEntry) : List Byte :=
  leBytes 8 (r.va.toNat % 2 ^ 56 + r.op % 2 ^ 4 * 2 ^ 56 + r.t % 2 ^ 4 * 2 ^ 60) ++ leBytes 8 r.y.toNat

/-- Numbers of so many bits each, one after another in whole granules. -/
def packGranules (bits ngran : Nat) (xs : List Nat) : List Byte :=
  leBytes (4096 * ngran) (xs.foldr (fun x a => x % 2 ^ bits + 2 ^ bits * a) 0)

/-- Bits of each number of a value in accumulator memory (R277). -/
def numberBits (vfmt vkind : Nat) : Nat := storeBits vfmt vkind / (if vkind = 2 then 1 else compsOf vfmt)

/-- What lies in a team's accumulator banks: values of nodes, and those that forces under way hold, each from its first granule
on (R277, R279). -/
def Manifest.stored (m : Manifest) : List (Nat × List Byte) :=
  m.nodes.filterMap (fun e =>
      if e.2.holds then some (e.2.gran, packGranules (numberBits e.2.vfmt e.2.vkind) e.2.ngran e.2.val) else none) ++
    m.forces.flatMap (fun f => match f.work with
      | none => []
      | some w => w.temps.filterMap (fun t => (w.copy.get t.1).map (fun n =>
          (t.2.1, packGranules (numberBits n.vfmt n.vkind) t.2.2 (w.val t.1)))))

/-- The numbers of the banks that a team holds, in ascending order (R258). -/
def Team.banksHeld (t : Team) : List Nat := (List.range 16).filter (fun j => decide (SMap.get 0 t.acc j ≠ 0))

/-- The accumulator section: the held banks in ascending number; granules in which no value lies are free values, as the spec
says nothing of what they read (DESIGN CHOICE log 68). -/
def State.imageAcc (s : State) (tk : Nat) : List Byte :=
  let t := s.team tk
  let vs := t.mf.stored
  t.banksHeld.flatMap (fun j => (List.range 16).flatMap (fun i =>
    let g := 16 * j + i
    match vs.find? (fun v => decide (v.1 ≤ g ∧ (g - v.1) * 4096 < v.2.length)) with
    | some v => (v.2.drop ((g - v.1) * 4096)).take 4096
    | none => (List.range 512).flatMap (fun k => leBytes 8 (Config.freeWord (s.freeCtr + g * 512 + k)).toNat)))

/-- A section filled up to the next 4 KiB boundary. -/
def toBoundary (bs : List Byte) : List Byte := bs ++ List.replicate ((4096 - bs.length % 4096) % 4096) 0

/-- The sections of a team's image, in the order of R145. -/
def State.imageSections (s : State) (tk : Nat) : List (List Byte) :=
  let t := s.team tk
  let g := s.gridOf tk
  let n := g.launch.lanes
  [s.imageHeader tk, t.seq.section_, t.mf.section_, t.groupSection g.launch.width ((n + g.launch.width - 1) / g.launch.width),
    t.counters n, t.predicates n, t.vectors n g.launch.cap, t.handlers n, t.laneState n, t.red.flatMap RedEntry.bytes,
    s.imageAcc tk, s.scratchpad tk]

/-- A team's image (R145): its bytes, and what its sections hold beside them: the poison of the vector registers, and the
numbers of the accumulator banks. -/
structure TeamImage where
  bytes : List Byte
  poison : List Bool
  banks : List Nat
  deriving DecidableEq, Repr

/-- The image of a team, as system software reads it (R145). -/
def State.teamImage (s : State) (tk : Nat) : TeamImage :=
  let t := s.team tk
  let l := (s.gridOf tk).launch
  { bytes := (s.imageSections tk).flatMap toBoundary, poison := t.vectorPoison l.lanes l.cap, banks := t.banksHeld }

end Sys2Proof.Machine
end

