-- ==== Sys2Proof/Laws/TeamImage.lean ====
section
/-! SUPPORT. The sections of a team image have the sizes of their table (R145, R283). -/

namespace Sys2Proof.Machine

theorem length_flatMap_of {α : Type} (l : List α) (f : α → List Byte) (k : Nat) (h : ∀ a, (f a).length = k) :
    (l.flatMap f).length = l.length * k := by
  induction l with
  | nil => simp
  | cons a r ih => simp [List.flatMap_cons, ih, h, Nat.add_mul, Nat.add_comm]

theorem length_stateEntry (l : Lane) : l.stateEntry.length = 384 := by
  simp only [Lane.stateEntry, List.length_append, length_leBytes,
    length_flatMap_of _ _ 8 (fun (_ : Nat) => length_leBytes _ _), List.length_range]

theorem length_laneState (t : Team) (n : Nat) : (t.laneState n).length = n * 384 := by
  simp [Team.laneState, length_flatMap_of _ _ 384 (fun (i : Nat) => length_stateEntry (t.lane i))]

theorem length_nodeEntry (m : Manifest) (e : Option (Nat × Node)) : (m.nodeEntry e).length = 48 := by
  cases e with
  | none => exact length_leBytes _ _
  | some p => simp only [Manifest.nodeEntry, List.length_append, length_leBytes]

theorem length_forceEntry (m : Manifest) (f : Option Force) : (m.forceEntry f).length = 32 := by
  cases f with
  | none => exact length_leBytes _ _
  | some f => simp only [Manifest.forceEntry, List.length_append, length_leBytes]

theorem length_section (m : Manifest) : m.section_.length = 4096 := by
  simp only [Manifest.section_, List.length_append, length_leBytes, List.length_range, List.length_cons, List.length_nil,
    length_flatMap_of _ _ 8 (fun (_ : Nat) => length_leBytes _ _), length_flatMap_of _ _ 8 (fun (_ : Word) => length_leBytes _ _),
    length_flatMap_of _ _ 32 (fun (i : Nat) => length_forceEntry m m.forces[i]?),
    length_flatMap_of _ _ 48 (fun (i : Nat) => length_nodeEntry m m.nodes[i]?)]

end Sys2Proof.Machine
end

