-- ==== Sys2Proof/Laws/Trap.lean ====
section
/-! SUPPORT. What taking a lane trap does when it is handled (R171). -/

namespace Sys2Proof.Machine

/-- Replacing lanes one after another by a function that gives the same when applied twice. -/
theorem foldl_setLane (g : Nat → Lane → Lane) (hg : ∀ n l, g n (g n l) = g n l) (ns : List Nat) (t : Team) :
    (∀ n, (ns.foldl (fun t n => t.setLane n (g n (t.lane n))) t).lane n = if n ∈ ns then g n (t.lane n) else t.lane n) ∧
    ns.foldl (fun t n => t.setLane n (g n (t.lane n))) t =
      { t with lanes := (ns.foldl (fun t n => t.setLane n (g n (t.lane n))) t).lanes } := by
  induction ns generalizing t with
  | nil => simp
  | cons k r ih =>
    obtain ⟨h1, h2⟩ := ih (t.setLane k (g k (t.lane k)))
    refine ⟨fun n => ?_, ?_⟩
    · rw [List.foldl_cons, h1]
      by_cases hk : n = k
      · subst hk; by_cases hr : n ∈ r <;> simp [hr, hg]
      · simp [hk]
    · rw [List.foldl_cons, h2]
      rfl

theorem pageRecords_nil (w g : Nat) (fs : List LaneFault) (h : ∀ f ∈ fs, f.cls = 4 → f.pages = []) :
    pageRecords w g fs = [] := by
  have : ((fs.filter (fun f => decide (f.cls = 4 ∧ f.lane / w = g))).flatMap (fun f => f.pages.map (fun a => (a, f)))) = [] := by
    rw [List.flatMap_eq_nil_iff]
    intro f hf
    simp only [List.mem_filter, decide_eq_true_eq] at hf
    simp [h f hf.1 hf.2.1]
  unfold pageRecords
  rw [this]
  rfl

/-- A handled trap whose faults make no page records: every lane of the run enters trap mode at LVEC with the cause and
address of its own fault, or none. -/
theorem laneTrap_handled {s : State} {r : Run} (h : Handled s r) (epc : Word) (fs : List LaneFault)
    (hp : ∀ f ∈ fs, f.cls = 4 → f.pages = []) :
    TrapEntered s (laneTrap s r epc fs) r epc
      (fun n => match lowestFault fs n with
        | some f => f.cls * 256 + f.code
        | none => 0)
      (fun n => match lowestFault fs n with
        | some f => f.addr
        | none => 0) := by
  obtain ⟨ht, hv⟩ := h
  have hu : (decide ((s.gridOf r.team).rcd.lvec = 0) || r.trap) = false := by
    rw [ht, decide_eq_false hv]; rfl
  unfold laneTrap
  simp only [hu, pageRecords_nil _ _ fs hp, Bool.false_eq_true, if_false]
  let g : Nat → Lane → Lane := fun n l => { l with
    lcause := (match lowestFault fs n with
      | some f => BitVec.ofNat 64 (f.cls * 256 + f.code)
      | none => 0)
    lepc := epc
    laddr := (match lowestFault fs n with
      | some f => f.addr
      | none => 0)
    lnrec := 0, lprec := [], trap := true, h := [], pc := (s.gridOf r.team).rcd.lvec }
  obtain ⟨h1, h2⟩ := foldl_setLane g (fun n l => rfl) r.lanes (s.team r.team)
  refine ⟨⟨rfl, fun k hk => by simp [hk], ?_, fun n hn => ?_⟩, fun n hn => ?_⟩
  · simp only [State.setTeam_team, if_true]
    exact h2
  · simp only [State.setTeam_team, if_true]
    have := h1 n
    rw [if_neg hn] at this
    exact this
  · simp only [laneAt, State.setTeam_team, if_true]
    have := h1 n
    rw [if_pos hn] at this
    refine this.trans ?_
    simp only [g]
    cases lowestFault fs n <;> rfl

/-- The fault of a lane in a list that has one fault for each of some lanes. -/
theorem lowestFault_map (ns : List Nat) (f : Nat → LaneFault) (hf : ∀ n, (f n).lane = n) (n : Nat) :
    lowestFault (ns.map f) n = if n ∈ ns then some (f n) else none := by
  have hfil : (ns.map f).filter (fun x => decide (x.lane = n)) = (ns.filter (fun k => decide (k = n))).map (fun _ => f n) := by
    rw [List.filter_map]
    have : ((fun x : LaneFault => decide (x.lane = n)) ∘ f) = (fun k => decide (k = n)) := by
      funext k; simp [hf]
    rw [this]
    apply List.map_congr_left
    intro k hk
    simp only [List.mem_filter, decide_eq_true_eq] at hk
    rw [hk.2]
  unfold lowestFault
  rw [hfil]
  by_cases hn : n ∈ ns
  · rw [if_pos hn]
    have hne : ns.filter (fun k => decide (k = n)) ≠ [] := by
      intro he
      have := List.filter_eq_nil_iff.mp he n hn
      simp at this
    cases hc : ns.filter (fun k => decide (k = n)) with
    | nil => exact absurd hc hne
    | cons a r =>
      have hl : ∀ l : List LaneFault, (∀ x ∈ l, x = f n) →
          l.foldl (fun m x => if x.cls < m.cls then x else m) (f n) = f n := by
        intro l hl
        induction l with
        | nil => rfl
        | cons b t ih =>
          rw [List.foldl_cons, hl b (by simp), if_neg (by omega)]
          exact ih (fun x hx => hl x (by simp [hx]))
      simp only [List.map_cons]
      rw [hl _ (by simp)]
  · rw [if_neg hn]
    have : ns.filter (fun k => decide (k = n)) = [] := by
      rw [List.filter_eq_nil_iff]; intro a ha; simp; rintro rfl; exact hn ha
    rw [this]; rfl

end Sys2Proof.Machine
end

