-- ==== Sys2Proof/Tests/Slice0.lean ====
section
/-! SUPPORT. Tests: words that the spec prints, ill-formed terms, single steps with results taken from the spec, and for
every statement with hypotheses a concrete state and operands that meet them. -/

namespace Sys2Proof.Tests

set_option Elab.async false

open Sys2Proof Sys2Proof.Machine

/-! ## Decoding (03_encoding "Worked encodings", R92, R150, R288, R303, R341, R368) -/

/-- The worked encodings of lane code in 03_encoding.md. -/
theorem test_decode_lane :
    (decodeLane 0x0000007B).toOption = some (.movs 0 1) ∧ (decodeLane 0xFF0000A1).toOption = some (.lu 0xFF000 2) ∧
    (decodeLane 0x800810CD).toOption = some (.shfiShl 2 2 1 3) ∧ (decodeLane 0x180C2103).toOption = some (.add 0 0 3 3 2 4) ∧
    (decodeLane 0x0000416B).toOption = some (.ld32 0 0 4 5) ∧ (decodeLane 0x28E0).toOption = some (.lcMov 5 7) ∧
    (decodeLane 0x38C2).toOption = some (.lcAddI32 7 6) ∧ (decodeLane 0x8000784F).toOption = some (.cmpi 2 0 7 4 1) ∧
    (decodeLane 0xFFFFEC7D).toOption = some (.brc 0x3FFFFB 1) ∧ (decodeLane 0x0100B271).toOption = some (.st8 0 64 11 9) ∧
    (decodeLane 0x580422C3).toOption = some (.add 0 1 3 1 2 11) ∧ (decodeLane 0x0608629D).toOption = some (.rdc 0 0 0 2 6 10) ∧
    (decodeLane 0x8700631F).toOption = some (.xiShfl 2 7 0 6 12) ∧ (decodeLane 0x8200003B).toOption = some .exit := by decide +kernel

/-- Floating point, conversion, voting and control words (R167, R168, R169, R187 to R196, R341). -/
theorem test_decode_lane_more :
    (decodeLane 0x0B289217).toOption = some (.fma 0 0 11 10 9 8) ∧ (decodeLane 0x10005115).toOption = some (.rcp 0 0 2 5 4) ∧
    (decodeLane 0x171444D5).toOption = some (.fspecCmp 0 0 2 5 4 2 3) ∧ (decodeLane 0x10683099).toOption = some (.cvt 0 0 2 0 1 10 3 2) ∧
    (decodeLane 0x001840DB).toOption = some (.npk 0 0 0 0 6 4 3) ∧ (decodeLane 0x0728629D).toOption = some (.scan 0 0 0 10 6 10) ∧
    (decodeLane 0x1408051D).toOption = some (.voteBallot 0 0 2 20) ∧ (decodeLane 0x860C003B).toOption = some (.enter 3) ∧
    (decodeLane 0x870C003B).toOption = some (.leave 3) ∧ (decodeLane 0x8400703B).toOption = some (.jmpr 7) ∧ (decodeLane 0x8500703B).toOption = some (.ret 7) ∧
    (decodeLane 0x0000803D).toOption = some (.bra 32) ∧ (decodeLane 0x0000823D).toOption = some (.call 32) ∧ (decodeLane 0x000C213F).toOption = some (.qrn 0 0 3 2 4) ∧
    (decodeLane 0x021C51BF).toOption = some (.qrseed 0 0 7 5 6) ∧ (decodeLane 0x8F04003B).toOption = some (.bara 1) := by decide +kernel

/-- Sequencer arithmetic, memory, barriers, queues and control (R86 to R89, R147 to R151, R307, R368). -/
theorem test_decode_sequencer :
    (decodeSeq 0xFF00008D).toOption = some (.siAdd 0xFF00 0 2) ∧ (decodeSeq 0x00000861).toOption = some (.barBarw 0 1) ∧
    (decodeSeq 0x12401149).toOption = some (.sld 18 2 2 5) ∧ (decodeSeq 0x00030223).toOption = some (.sxPushCe 3 8) ∧
    (decodeSeq 0x0040001D).toOption = some .sctlExit ∧ (decodeSeq 0x0060001D).toOption = some .sctlNop ∧ (decodeSeq 0x0080001D).toOption = some .sctlFenceC ∧
    (decodeSeq 0x11A0061D).toOption = some (.sctlMovs 0x11 24) ∧ (decodeSeq 0x05C0001D).toOption = some (.sctlTrap 5) ∧
    (decodeSeq 0x00E0C01D).toOption = some (.sctlTret 24) ∧ (decodeSeq 0x0000292B).toOption = some (.view 5 4) ∧
    (decodeSeq 0x0020302B).toOption = some (.join 6) ∧ (decodeSeq 0x0040382B).toOption = some (.vwait 7) ∧ (decodeSeq 0x000A00E1).toOption = some (.bari 40 3) ∧
    (decodeSeq 0x000024A1).toOption = some (.barBara 1 2) ∧ (decodeSeq 0x00001021).toOption = some .cbar ∧ (decodeSeq 0x00001421).toOption = some .gbar := by
  decide +kernel

/-- The encodings that 14_tile_instructions.md prints. -/
theorem test_decode_tile :
    (decodeSeq 0x00815029).toOption = some (.tld 2 5 4 0) ∧ (decodeSeq 0x2041D8E9).toOption = some (.tst 1 7 6 3) ∧
    (decodeSeq 0x018040A5).toOption = some (.tmul 0 6 1 0 2) ∧ (decodeSeq 0x29904165).toOption = some (.tmac 1 6 4 1 0 5) ∧
    (decodeSeq 0x450041A5).toOption = some (.tcmul 0 0x14 1 0 6) ∧ (decodeSeq 0x651C41A5).toOption = some (.tcmulAddend 0 0x14 7 1 0 6) ∧
    (decodeSeq 0x81804125).toOption = some (.tbp 0 6 1 0 4) ∧ (decodeSeq 0xA19951E5).toOption = some (.tsca 0 6 6 5 4 7) ∧
    (decodeSeq 0xC041DA25).toOption = some (.tadd 0 1 7 6 8) ∧ (decodeSeq 0xE041DA25).toOption = some (.tsub 0 1 7 6 8) ∧
    (decodeSeq 0x00800067).toOption = some (.ttr 0 2 0 1) ∧ (decodeSeq 0x2041DA67).toOption = some (.thad 0 1 7 6 9) ∧
    (decodeSeq 0x40802267).toOption = some (.tcvt 2 8 9) ∧ (decodeSeq 0x60002427).toOption = some (.tforce 9) ∧ (decodeSeq 0x80000267).toOption = some (.tdrop 9) ∧
    (decodeSeq 0x800020E9).toOption = some (.tstat 8 3) ∧ (decodeSeq 0xA04141E9).toOption = some (.tzero 1 5 7) ∧
    (decodeSeq 0xC1815869).toOption = some (.tfill 6 5 6 1) := by decide +kernel

/-- The halfword 0x0000 decodes in neither map (R95), and an unassigned lane major does not decode (R94). -/
theorem test_undefined_words :
    (decodeLane 0).toOption = none ∧ (decodeSeq 0).toOption = none ∧ (decodeLane 0xFFFFFFFF).toOption = none := by decide +kernel

/-! ## Well-formedness: an ill-formed term for each check -/

/-- The checks on lane fields (R73 to R82). -/
theorem test_ill_formed_lane :
    (Instr.shr 0 0 3 1 2 3).wf = false ∧ (Instr.shra 0 0 4 1 2 3).wf = false ∧ (Instr.cmp 0 0 2 1 2 6 3).wf = false ∧
    (Instr.shfiShl 0 8 1 2).wf = false ∧ (Instr.shfiShr 1 16 1 2).wf = false ∧ (Instr.shfiShra 2 32 1 2).wf = false ∧
    (Instr.shfiRol 0 8 1 2).wf = false ∧ (Instr.rcp 0 0 3 1 2).wf = false ∧ (Instr.rsq 0 0 3 1 2).wf = false ∧
    (Instr.exp2 0 0 3 1 2).wf = false ∧ (Instr.log2 0 0 3 1 2).wf = false ∧ (Instr.sin 0 0 3 1 2).wf = false ∧
    (Instr.cos 0 0 3 1 2).wf = false ∧ (Instr.tanh 0 0 3 1 2).wf = false ∧ (Instr.fspecCmp 0 0 2 1 2 7 3).wf = false ∧
    (Instr.cvt 0 0 2 0 0 2 1 2).wf = false ∧ (Instr.cvts 0 0 2 1 1 2).wf = false ∧ (Instr.cvtw 0 0 2 10 1 2).wf = false ∧
    (Instr.npk 0 0 0 0 0x0A 1 2).wf = false ∧ (Instr.nunp 0 0 0 0x12 1 2).wf = false ∧ (Instr.rdc 0 0 3 10 1 2).wf = false ∧
    (Instr.scan 0 0 6 2 1 2).wf = false ∧ (Instr.xiShfl 3 0 1 1 2).wf = false ∧ (Instr.atom 0 0 4 3 1 2 3).wf = false ∧
    (Instr.redD 0 0 0 6 1 2).wf = false ∧ (Instr.movs 0x24 1).wf = false ∧ (Instr.stp 0x13 1 2).wf = false ∧
    (Instr.brc 1 0).wf = false ∧ (Instr.brcF 1 0).wf = false ∧ (Instr.lcMov 0 0).wf = false := by decide +kernel

/-- The checks on sequencer and tile fields (R85 to R91). -/
theorem test_ill_formed_sequencer :
    (Instr.sld 0 7 1 2).wf = false ∧ (Instr.sctlMovs 0x1E 1).wf = false ∧ (Instr.sxPushCe 0 25).wf = false ∧
    (Instr.sxPushXe 0 25).wf = false ∧ (Instr.sxPushPg 0 25).wf = false ∧ (Instr.tmul 2 0 1 2 3).wf = false ∧
    (Instr.tmac 0 0x13 1 2 3 4).wf = false ∧ (Instr.tcmul 0 0x12 1 2 3).wf = false ∧ (Instr.tcmulAddend 0 0x18 1 2 3 4).wf = false ∧
    (Instr.tbp 0 0x0A 1 2 3).wf = false ∧ (Instr.tsca 0 0x0D 1 2 3 4).wf = false ∧ (Instr.tadd 0 2 1 2 3).wf = false ∧
    (Instr.tsub 2 1 1 2 3).wf = false ∧ (Instr.ttr 0 0x18 1 2).wf = false ∧ (Instr.thad 0 0x17 1 2 3).wf = false ∧
    (Instr.tcvt 0x18 1 2).wf = false ∧ (Instr.tld 0x18 1 2 3).wf = false ∧ (Instr.tst 0x1F 1 2 3).wf = false ∧
    (Instr.tzero 0x18 1 2).wf = false ∧ (Instr.tfill 0x18 1 2 3).wf = false ∧ (Instr.scMov 0 0).wf = false := by decide +kernel

/-! ## Small states -/

/-- Team 0 of grid 1. -/
def tk1 : Nat := teamKey 1 0

/-- After the load of one instruction: eight lanes on core 0, two scratchpad banks, both trap vectors, a privileged
context and a node budget. -/
def base : State :=
  let s := State.reset.withFetchWord 32 0x180C2103
  let g := s.grid 1
  { s.setGrid 1 { g with
      launch := { g.launch with sbanks := 2, graph := 4 }
      rcd := { g.rcd with lvec := 0x800, svec := 0xC00, priv := true } } with schedule := [] }

/-- Lanes 0 to 7 as f makes them, the lane slot's turn. -/
def laneState (f : Nat → Lane → Lane) : State :=
  { base.setTeam tk1 ((base.team tk1).updateLanes (List.range 8) f) with turn := .slot 0 0 0 }

/-- Every lane holds x in register k, poisoned or not. -/
def holding (k : Nat) (x : Word) (p : Bool) : State := laneState (fun _ l => { l with v := SMap.set {} l.v k ⟨x, p⟩ })

/-- Every lane in trap mode. -/
def trapping : State := laneState (fun _ l => { l with trap := true })

/-- The sequencer as f makes it, its turn. -/
def seqState (f : Sequencer → Sequencer) : State := { base.setSeq tk1 (f (base.team tk1).seq) with turn := .seq tk1 }

/-- The run that issues and the state it issues from. -/
def runOf (s : State) : Run := ((s.issuing).map (·.1)).getD ⟨0, [], 0, false⟩
def fromOf (s : State) : State := ((s.issuing).map (·.2)).getD s

theorem issuing_of {s : State} (h : s.issuing.isSome = true) : s.issuing = some (runOf s, fromOf s) := by
  unfold runOf fromOf
  cases e : s.issuing with
  | none => rw [e] at h; cases h
  | some x => rfl

theorem laneIssues_of {s : State} {fields : List Nat} (h : s.issuing.isSome = true)
    (hf : fields.any ((fromOf s).overCap (runOf s)) = false) : LaneIssues s fields (runOf s) (fromOf s) :=
  ⟨issuing_of h, hf⟩

/-- The state in which the sequencer's instruction executes. -/
def seqFrom (s : State) : State := s.setSeq tk1 { (s.team tk1).seq with wait := none }

theorem seqIssues_of {s : State} (h : s.turn = .seq tk1) (hs : s.seqIssues tk1 = true) : SeqIssues s tk1 (seqFrom s) :=
  ⟨h, hs, rfl⟩

/-- A pair whose first part is known. -/
theorem pair_of {α β : Type} {x : α × β} {a : α} (h : x.1 = a) : x = (a, x.2) := by
  rw [← h]

/-- A property of the default and of every listed entry is one of every entry. -/
theorem get_all {β : Type} {d : β} (P : β → Prop) (m : SMap β) (h0 : P d) (h : ∀ e ∈ m, P e.2) (k : Nat) :
    P (SMap.get d m k) := by
  induction m with
  | nil => exact h0
  | cons e r ih =>
    unfold SMap.get
    split
    · exact h e (List.mem_cons_self ..)
    · exact ih (fun x hx => h x (List.mem_cons_of_mem _ hx))

/-! ## Witnesses: the machine -/

theorem decoded_of {x : Except Undecoded Instr} {i : Instr} (h : x.toOption = some i) : x = .ok i := by
  cases x with
  | error e => cases h
  | ok j => exact congrArg Except.ok (Option.some.inj h)

/-- The undecodable result's record. -/
def errorOf (x : Except Undecoded Instr) : Option Undecoded :=
  match x with
  | .error u => some u
  | .ok _ => none

theorem error_of {x : Except Undecoded Instr} {u : Undecoded} (h : errorOf x = some u) : x = .error u := by
  cases x with
  | error e => exact congrArg Except.error (Option.some.inj h)
  | ok j => cases h

/-- A schedule of one turn over the loaded word w. -/
def scheduled (w : Nat) (a : Turn) : State := { State.reset.withFetchWord 32 w with schedule := [a] }

/-- The state that turn a finds, the run of the eight lanes, and an entry of the breakpoint table that stops every stream at 0. -/
def taking (a : Turn) (s : State) : State := { s with schedule := [], turn := a }
def run8 : Run := ⟨tk1, List.range 8, 0, false⟩
def guarded (a : Turn) : State :=
  let s := scheduled 0x180C2103 a
  s.setCtx 1 { s.ctx 1 with bps := [⟨5, 0x8000000000000000, 0⟩] }

/-- What a slot's and a sequencer's turn read at address 0. -/
def slotFetch (s : State) : Fetched × State :=
  let u := taking (.slot 0 0 0) s
  (u.passBreak tk1 (u.runStreams run8)).fetchInstr tk1 0
def seqFetched (s : State) : Fetched × State :=
  let u := taking (.seq tk1) s
  (u.passBreak tk1 [0]).fetchInstr tk1 (u.team tk1).seq.pc.toNat

/-- StepsRunTheDecodedInstruction: a slot and a sequencer at a breakpoint, with a decodable and with an undecodable word, an
event, and the turns of a stopped chip. -/
theorem witness_steps :
    (let Slot := fun (s : State) => s.schedule = [.slot 0 0 0] ∧ s.chipStopped = false ∧
       (taking (.slot 0 0 0) s).headRun 0 0 0 = some run8
     let Seq := fun (s : State) => s.schedule = [.seq tk1] ∧ s.chipStopped = false ∧ (taking (.seq tk1) s).asyncOf tk1 = none ∧
       (taking (.seq tk1) s).seqIssues tk1 = true
     (∃ s, Slot s ∧ (taking (.slot 0 0 0) s).runHit run8 ≠ none) ∧
     (∃ s w s2 i, Slot s ∧ (taking (.slot 0 0 0) s).runHit run8 = none ∧ slotFetch s = (.ok w, s2) ∧ decodeLane w = .ok i) ∧
     (∃ s w s2 e, Slot s ∧ (taking (.slot 0 0 0) s).runHit run8 = none ∧ slotFetch s = (.ok w, s2) ∧ decodeLane w = .error e) ∧
     (∃ s, Seq s ∧ (taking (.seq tk1) s).seqHit tk1 ≠ none) ∧
     (∃ s w s2 i, Seq s ∧ (taking (.seq tk1) s).seqHit tk1 = none ∧ seqFetched s = (.ok w, s2) ∧ decodeSeq w = .ok i) ∧
     ∃ s w s2 e, Seq s ∧ (taking (.seq tk1) s).seqHit tk1 = none ∧ seqFetched s = (.ok w, s2) ∧ decodeSeq w = .error e) ∧
    (∃ s : State, s.schedule = [.event .copy .none] ∧ s.chipStopped = false) ∧
    (∃ s : State, s.schedule = [.event .moduleReset .none] ∧ s.chipStopped = true) ∧
    (∃ s : State, s.schedule = [.event .tickBoundary .none] ∧ s.chipStopped = true) ∧
    ∃ s : State, s.schedule = [.idle] ∧ s.chipStopped = true := by
  refine ⟨⟨⟨guarded (.slot 0 0 0), by decide +kernel, by decide +kernel⟩,
    ⟨scheduled 0x180C2103 (.slot 0 0 0), 0x180C2103, _, .add 0 0 3 3 2 4, by decide +kernel, by decide +kernel,
      pair_of (by decide +kernel), decoded_of (by decide +kernel)⟩,
    ⟨scheduled 0 (.slot 0 0 0), 0, _, .undefined, by decide +kernel, by decide +kernel, pair_of (by decide +kernel),
      error_of (by decide +kernel)⟩,
    ⟨guarded (.seq tk1), by decide +kernel, by decide +kernel⟩,
    ⟨scheduled 0xFF00008D (.seq tk1), 0xFF00008D, _, .siAdd 0xFF00 0 2, by decide +kernel, by decide +kernel,
      pair_of (by decide +kernel), decoded_of (by decide +kernel)⟩,
    ⟨scheduled 0 (.seq tk1), 0, _, .undefined, by decide +kernel, by decide +kernel, pair_of (by decide +kernel),
      error_of (by decide +kernel)⟩⟩,
    ⟨scheduled 0 (.event .copy .none), by decide +kernel⟩, ⟨{ scheduled 0 (.event .moduleReset .none) with chipStopped := true }, by decide +kernel⟩,
    ⟨{ scheduled 0 (.event .tickBoundary .none) with chipStopped := true }, by decide +kernel⟩,
    ⟨{ scheduled 0 .idle with chipStopped := true }, by decide +kernel⟩⟩

/-- DecodingInvertsEncoding: an instruction of each stream. -/
theorem witness_encoding :
    (∃ (i : Instr) (w : Nat), i.wf = true ∧ encode i = some w ∧ i.stream = .lane) ∧
    ∃ (i : Instr) (w : Nat), i.wf = true ∧ encode i = some w ∧ i.stream = .seq :=
  ⟨⟨.add 0 0 3 3 2 4, 0x180C2103, by decide +kernel⟩,
   ⟨.sld 18 2 2 5, 0x12401149, by decide +kernel⟩⟩

/-- StepsKeepMemoryCanonical: a state with bytes in memory whose step answers a next state. -/
theorem witness_canonical : ∃ s t : State, s.memWf = true ∧ s.mem ≠ [] ∧ step s = .next t := by
  refine ⟨scheduled 0x180C2103 (.slot 0 0 0), ?_⟩
  have h : (match step (scheduled 0x180C2103 (.slot 0 0 0)) with
      | .next _ => true
      | _ => false) = true := by decide +kernel
  split at h
  · rename_i t e
    exact ⟨t, by decide +kernel, by decide +kernel, e⟩
  · cases h

/-! ## Witnesses: lane instructions -/

/-- RoundingAndSpecialInputs: 3/8 and 2^16 in binary16, to nearest, the second beyond its largest value; a NaN, zeros, infinities,
a negative number, one and a half. -/
theorem witness_rounding :
    let f := fmtF16
    (f ∈ allFormats ∧ gridUnit f 0x3600 * 8 ≤ 3 * 2 ^ (f.bias + f.m) ∧ 3 * 2 ^ (f.bias + f.m) < gridUnit f 0x3601 * 8 ∧
      roundedMag f 0 false (3 * 2 ^ (f.bias + f.m)) 8 0x3600 ≤ f.maxMag) ∧
    (gridUnit f 0x7C00 * 1 ≤ 2 ^ 16 * 2 ^ (f.bias + f.m) ∧ 2 ^ 16 * 2 ^ (f.bias + f.m) < gridUnit f 0x7C01 * 1 ∧
      f.maxMag < roundedMag f 0 false (2 ^ 16 * 2 ^ (f.bias + f.m)) 1 0x7C00) ∧
    f.decode 0x7D00 = .nan true ∧ f.decode 0xFC00 = .inf true ∧ (∃ d, f.decode 0x8000 = .fin true 0 d) ∧
    (∃ n d, f.decode 0xBE00 = .fin true n d ∧ 0 < n) ∧ ∃ n, f.decode 0x3C00 = .fin false n n ∧ 0 < n := by
  refine ⟨by decide +kernel, by decide +kernel, by decide +kernel, by decide +kernel, ⟨_, rfl⟩, ⟨_, _, rfl, ?_⟩, ⟨1024, by decide +kernel⟩⟩
  decide +kernel

/-- Lanes of small dimensions in v1 and a grid of four sequence dimensions. -/
def sampling : State :=
  let s := holding 1 2 false
  s.setGrid 1 { s.grid 1 with rcd := { (s.grid 1).rcd with qrdims := 4 } }

/-- A launch of eight registers. -/
def capped : State :=
  let s := laneState (fun _ l => l)
  s.setGrid 1 { s.grid 1 with launch := { (s.grid 1).launch with cap := 8 } }

/-- IntegerElementsCompute, FloatElementsAndConversionsCompute, PredicatesAreSet, WholeRegisterOperations and
LanesReadEachOther. -/
theorem witness_lane_tables :
    (∃ i f s s1 r, intForm i = some f ∧ LaneIssues s f.fields r s1) ∧
    (∃ i f s s1 r, floatForm i = some f ∧ LaneIssues s f.fields r s1) ∧
    (∃ i f s s1 r, convForm i = some f ∧ LaneIssues s [f.d, f.a, f.b] r s1) ∧
    (∃ i f s s1 r, cmpForm i = some f ∧ LaneIssues s [f.a, f.b] r s1) ∧
    (∃ (s s1 : State) (r : Run), LaneIssues s [] r s1) ∧ (∃ (s s1 : State) (r : Run), LaneIssues s [63] r s1) ∧
    (∃ i f s s1 r, wholeForm i = some f ∧ LaneIssues s f.fields r s1) ∧
    (∃ i f s s1 r, shufflesForm i = some f ∧ LaneIssues s f.fields r s1) ∧
    (∃ i f s s1 r, gatherForm i = some f ∧ LaneIssues s f.fields r s1) :=
  let S := laneState (fun _ l => l)
  ⟨⟨.add 0 0 3 3 2 4, _, S, _, _, rfl, laneIssues_of (by decide +kernel) (by decide +kernel)⟩,
   ⟨.fma 0 0 11 10 9 8, _, S, _, _, rfl, laneIssues_of (by decide +kernel) (by decide +kernel)⟩,
   ⟨.cvt 0 0 2 0 1 10 3 2, _, S, _, _, rfl, laneIssues_of (by decide +kernel) (by decide +kernel)⟩,
   ⟨.cmp 0 0 2 1 2 5 3, _, S, _, _, rfl, laneIssues_of (by decide +kernel) (by decide +kernel)⟩,
   ⟨S, _, _, laneIssues_of (by decide +kernel) (by decide +kernel)⟩,
   ⟨S, _, _, laneIssues_of (by decide +kernel) (by decide +kernel)⟩,
   ⟨.movs 0 1, _, S, _, _, rfl, laneIssues_of (by decide +kernel) (by decide +kernel)⟩,
   ⟨.shfl 0 0 2 1 2 3, _, S, _, _, rfl, laneIssues_of (by decide +kernel) (by decide +kernel)⟩,
   ⟨.voteBallot 0 0 2 20, _, S, _, _, rfl, laneIssues_of (by decide +kernel) (by decide +kernel)⟩⟩

/-- QuasiRandomPoints: dimensions 2 and 0 below four, and dimension 2 with none. -/
theorem witness_quasi_random :
    (∃ (s s1 : State) (r : Run), LaneIssues s [4, 1, 2] r s1 ∧
      ¬ ∃ n ∈ r.lanes, ∃ e, e < 2 ∧ (s1.gridOf r.team).rcd.qrdims ≤ subElem ((laneAt s1 r n).reg r.trap 1).val e 32) ∧
    ∃ (s s1 : State) (r : Run), LaneIssues s [4, 1, 2] r s1 ∧ Handled s1 r ∧
      ∃ n ∈ r.lanes, ∃ e, e < 2 ∧ (s1.gridOf r.team).rcd.qrdims ≤ subElem ((laneAt s1 r n).reg r.trap 1).val e 32 :=
  ⟨⟨sampling, _, _, laneIssues_of (by decide +kernel) (by decide +kernel), by decide +kernel⟩,
   ⟨holding 1 2 false, _, _, laneIssues_of (by decide +kernel) (by decide +kernel), ⟨by decide +kernel, by decide +kernel⟩,
    0, by decide +kernel, 0, by decide, by decide +kernel⟩⟩

/-- LaneTrapEntry: TRAP, a word that decodes to nothing, and a register at a cap of eight. -/
theorem witness_lane_traps :
    (∃ (s s1 : State) (r : Run), s.issuing = some (r, s1) ∧ Handled s1 r) ∧
    (∃ (s s1 s2 : State) (r : Run) (w : Nat) (u : Undecoded), s.issuing = some (r, s1) ∧ Handled s1 r ∧
      s1.fetchInstr r.team r.pc.toNat = (.ok w, s2) ∧ decodeLane w = .error u) ∧
    ∃ (i : Instr) (f : ElemForm) (s s1 : State) (r : Run), intForm i = some f ∧ s.issuing = some (r, s1) ∧ Handled s1 r ∧
      ∃ k ∈ f.fields, (s1.gridOf r.team).launch.cap ≤ k ∧ ¬ (r.trap = true ∧ 56 ≤ k) := by
  let S := laneState (fun _ l => l)
  let U : State := { S with mem := [] }
  refine ⟨⟨S, _, _, issuing_of (by decide +kernel), by decide +kernel, by decide +kernel⟩, ?_,
    ⟨.add 0 0 3 8 2 4, _, capped, _, _, rfl, issuing_of (by decide +kernel), ⟨by decide +kernel, by decide +kernel⟩,
      8, by decide, by decide +kernel, by decide +kernel⟩⟩
  let Z : State := { (scheduled 0 .idle).setGrid 1 (base.grid 1) with turn := .slot 0 0 0 }
  have h : ((fromOf Z).fetchInstr (runOf Z).team (runOf Z).pc.toNat).1 = .ok 0 := by decide +kernel
  exact ⟨Z, fromOf Z, _, runOf Z, 0, .undefined, issuing_of (by decide +kernel), ⟨by decide +kernel, by decide +kernel⟩,
    pair_of h, error_of (by decide +kernel)⟩

/-- AdvancingLaneInstructions and LaneBranchesAndJumps: a clean and a poisoned address in v7, and predicate 1. -/
theorem witness_lane_control_flow :
    (∃ (s s1 : State) (r : Run), LaneIssues s [7] r s1 ∧ ∀ n ∈ r.lanes, ((laneAt s1 r n).reg r.trap 7).poison = false) ∧
    (∃ (s s1 : State) (r : Run), LaneIssues s [7] r s1 ∧ (∃ n ∈ r.lanes, ((laneAt s1 r n).reg r.trap 7).poison = true) ∧ Handled s1 r) ∧
    (∃ (s s1 : State) (r : Run), s.issuing = some (r, s1) ∧ ∀ n ∈ r.lanes, (laneAt s1 r n).predPoison 1 = false) ∧
    (∃ (s s1 : State) (r : Run), s.issuing = some (r, s1) ∧ (∃ n ∈ r.lanes, (laneAt s1 r n).predPoison 1 = true) ∧ Handled s1 r) :=
  let P := laneState (fun _ l => { l with pp := 2 })
  ⟨⟨holding 7 0x100 false, _, _, laneIssues_of (by decide +kernel) (by decide +kernel), by decide +kernel⟩,
   ⟨holding 7 0x100 true, _, _, laneIssues_of (by decide +kernel) (by decide +kernel), ⟨0, by decide +kernel, by decide +kernel⟩,
     by decide +kernel, by decide +kernel⟩,
   ⟨holding 7 0x100 true, _, _, issuing_of (by decide +kernel), by decide +kernel⟩,
   ⟨P, _, _, issuing_of (by decide +kernel), ⟨0, by decide +kernel, by decide +kernel⟩, by decide +kernel, by decide +kernel⟩⟩

/-- LaneControlForms: EXIT with and without a running sequencer, the trap-mode forms in and outside trap mode and of a register at
the cap, and SETS from a clean and a poisoned register. -/
theorem witness_lane_control :
    (∃ (s s1 : State) (r : Run), s.issuing = some (r, s1) ∧ (∀ b, b < 16 → (s1.setTeam r.team ((s1.team r.team).updateLanes r.lanes
      (fun _ l => { l with pc := r.pc + 4, exited := true, trap := false }))).autoMet r.team b = false) ∧
      (s1.team r.team).seq.exited = false) ∧
    (∃ (s s1 : State) (r : Run), s.issuing = some (r, s1) ∧ (∀ b, b < 16 → (s1.setTeam r.team ((s1.team r.team).updateLanes r.lanes
      (fun _ l => { l with pc := r.pc + 4, exited := true, trap := false }))).autoMet r.team b = false) ∧
      (s1.team r.team).seq.exited = true ∧ ∀ n, n < (s1.gridOf r.team).launch.lanes → n ∉ r.lanes → (laneAt s1 r n).exited = true) ∧
    (∃ (s s1 : State) (r : Run), LaneIssues s [5] r s1 ∧ r.trap = true ∧ 56 + 7 < (s1.gridOf r.team).launch.cap) ∧
    (∃ (s s1 : State) (r : Run), LaneIssues s [5] r s1 ∧ r.lanes ≠ [] ∧ r.trap = true ∧ (s1.gridOf r.team).launch.cap ≤ 56 + 7 ∧
      (s1.ctx (s1.asidOf r.team)).st = .running) ∧
    (∃ (s s1 : State) (r : Run), LaneIssues s [5] r s1 ∧ Handled s1 r) ∧
    (∃ (s s1 : State) (r : Run), LaneIssues s [5] r s1 ∧ r.trap = true ∧ ∀ n ∈ r.lanes, ((laneAt s1 r n).reg r.trap 5).poison = false) ∧
    (∃ (s s1 : State) (r : Run), LaneIssues s [5] r s1 ∧ (∃ n ∈ r.lanes, ((laneAt s1 r n).reg r.trap 5).poison = true) ∧ Handled s1 r) :=
  let S := laneState (fun _ l => l)
  let Q : State := { (S.setSeq tk1 { (S.team tk1).seq with exited := true }) with turn := .slot 0 0 0 }
  ⟨⟨S, _, _, issuing_of (by decide +kernel), by decide +kernel, by decide +kernel⟩,
   ⟨Q, _, _, issuing_of (by decide +kernel), by decide +kernel⟩,
   ⟨trapping, _, _, laneIssues_of (by decide +kernel) (by decide +kernel), by decide +kernel, by decide +kernel⟩,
   ⟨trapping.setGrid 1 { trapping.grid 1 with launch := { (trapping.grid 1).launch with cap := 8 } }, _, _,
     laneIssues_of (by decide +kernel) (by decide +kernel), by decide +kernel⟩,
   ⟨S, _, _, laneIssues_of (by decide +kernel) (by decide +kernel), by decide +kernel, by decide +kernel⟩,
   ⟨trapping, _, _, laneIssues_of (by decide +kernel) (by decide +kernel), by decide +kernel, by decide +kernel⟩,
   ⟨holding 5 1 true, _, _, laneIssues_of (by decide +kernel) (by decide +kernel), ⟨7, by decide +kernel, by decide +kernel⟩,
     by decide +kernel, by decide +kernel⟩⟩

/-! ## Witnesses: memory -/

/-- The first byte of the team's own window, and the place it names. -/
def window0 : Word := BitVec.ofNat 64 windowBase
def spad0 : Nat := spadKey tk1 0 0

/-- No access of a grid that is not DET is held. -/
theorem detHold_free {s : State} {grid : Nat} (h : (s.grid grid).rcd.det = false) (as : List Access) : s.detHold grid as = none := by
  unfold State.detHold
  rw [h]
  rfl

/-- Whether every request passes its checks. -/
def passes (xs : List (LaneReq × Checked)) : Bool :=
  xs.all (fun y => decide (y.1.pre = none) && !y.1.az && (match y.2 with
    | .ok _ => true
    | _ => false))

theorem allPass_of {xs : List (LaneReq × Checked)} (h : passes xs = true) : AllPass xs := by
  intro y hy
  have g := List.all_eq_true.mp h y hy
  simp only [Bool.and_eq_true, decide_eq_true_eq, Bool.not_eq_true'] at g
  refine ⟨g.1.1, g.1.2, ?_⟩
  cases e : y.2 with
  | ok runs => exact ⟨runs, rfl⟩
  | fail f => rw [e] at g; cases g.2
  | wait w => rw [e] at g; cases g.2

/-- Every request passes and has a place. -/
def placed (xs : List (LaneReq × Checked)) : Bool :=
  xs.all (fun y => !y.1.az && (match y.2 with
    | .ok (_ :: _) => true
    | _ => false))

theorem placed_of {xs : List (LaneReq × Checked)} (h : placed xs = true) :
    ∀ y ∈ xs, y.1.az = false ∧ ∃ l m rest, y.2 = .ok ((l, m) :: rest) := by
  intro y hy
  have g := List.all_eq_true.mp h y hy
  simp only [Bool.and_eq_true, Bool.not_eq_true'] at g
  refine ⟨g.1, ?_⟩
  cases e : y.2 with
  | ok runs =>
    cases runs with
    | nil => rw [e] at g; cases g.2
    | cons x r => exact ⟨x.1, x.2, r, rfl⟩
  | fail f => rw [e] at g; cases g.2
  | wait w => rw [e] at g; cases g.2

/-- The grid of tk1 with DET set. -/
def detState (s : State) : State := s.setGrid 1 { s.grid 1 with rcd := { (s.grid 1).rcd with det := true } }

/-- The same, and its team's first line claimed by a command whose indices are not known. -/
def detHeld (s : State) : State :=
  (detState s).setCore 0 { s.coreAt 0 with ce := [{ team := tk1, claims := [spad0 / 64], loose := true }] }

/-- MemoryInstructionsAccess and MemoryFaultsPrecedeAccesses: an aligned store to the window that waits for nothing, one
that must wait in a DET grid, and one at a poisoned address. -/
theorem witness_lane_memory :
    (∃ (i : Instr) (f : MemForm) (s s1 s2 : State) (r : Run) (xs : List (LaneReq × Checked)),
      memForm i = some f ∧ LaneIssues s f.fields r s1 ∧
      s1.checkReqs r f.kind (r.lanes.map (fun n => f.req (laneAt s1 r n) r.trap n)) = (xs, s2) ∧ AllPass xs ∧
      s2.fifoWait f.kind xs = none ∧ s2.detHold (keyGrid r.team) (accessesOf f s1 r xs) = none) ∧
    (∃ (i : Instr) (f : MemForm) (s s1 s2 : State) (r : Run) (xs : List (LaneReq × Checked)),
      memForm i = some f ∧ LaneIssues s f.fields r s1 ∧
      s1.checkReqs r f.kind (r.lanes.map (fun n => f.req (laneAt s1 r n) r.trap n)) = (xs, s2) ∧ AllPass xs ∧
      s2.fifoWait f.kind xs = none ∧ (s2.detHold (keyGrid r.team) (accessesOf f s1 r xs)).isSome = true) ∧
    ∃ (i : Instr) (f : MemForm) (s s1 s2 : State) (r : Run) (xs : List (LaneReq × Checked)),
      memForm i = some f ∧ LaneIssues s f.fields r s1 ∧
      s1.checkReqs r f.kind (r.lanes.map (fun n => f.req (laneAt s1 r n) r.trap n)) = (xs, s2) ∧
      (∃ y ∈ xs, y.1.pre ≠ none ∨ y.1.az = true ∨ ∃ e, y.2 = .fail e) ∧ Handled s1 r := by
  refine ⟨⟨.st32 0 0 4 5, _, holding 4 window0 false, _, _, _, _, rfl, laneIssues_of (by decide +kernel) (by decide +kernel),
      rfl, allPass_of (by decide +kernel), by decide +kernel, by decide +kernel⟩,
    ⟨.st32 0 0 4 5, _, detHeld (holding 4 window0 false), _, _, _, _, rfl, laneIssues_of (by decide +kernel) (by decide +kernel),
      rfl, allPass_of (by decide +kernel), by decide +kernel, by decide +kernel⟩,
    ⟨.st32 0 0 4 5, _, holding 4 window0 true, _, _, _, _, rfl, laneIssues_of (by decide +kernel) (by decide +kernel), rfl, ?_,
      by decide +kernel, by decide +kernel⟩⟩
  have h : (((fromOf (holding 4 window0 true)).checkReqs (runOf (holding 4 window0 true)) .store
      ((runOf (holding 4 window0 true)).lanes.map (fun n => ({
        lane := n
        va := lmAddr (laneAt (fromOf (holding 4 window0 true)) (runOf (holding 4 window0 true)) n) (runOf (holding 4 window0 true)).trap 0 4 4
        size := 4
        az := ((laneAt (fromOf (holding 4 window0 true)) (runOf (holding 4 window0 true)) n).reg
          (runOf (holding 4 window0 true)).trap 4).poison } : LaneReq)))).1).any (fun y => y.1.az) = true := by decide +kernel
  obtain ⟨y, hy, ha⟩ := List.any_eq_true.mp h
  exact ⟨y, hy, .inr (.inl ha)⟩

/-- LaneLoadsRead, LaneStoresAndAtomicsWrite, PlaneStores and SequencerAccesses: plain places in the scratchpad, for a
whole line, a doubleword and a poisoned line. -/
theorem witness_places :
    PlainPlace base (.spad tk1 0 0) 64 spad0 ∧ spad0 % 64 = 0 ∧ base.inHost (.spad tk1 0 0) = false ∧
    PlainPlace base (.spad tk1 1 32760) 8 (spadKey tk1 1 32760) ∧ spadKey tk1 1 32760 % 8 = 0 ∧ poisonAt base spad0 8 = false ∧
    SeqHandled base tk1 ∧
    ∃ s : State, PlainPlace s (.spad tk1 0 0) 8 spad0 ∧ poisonAt s spad0 8 = true ∧ SeqHandled s tk1 := by
  refine ⟨?_, by decide +kernel, by decide +kernel, ?_, by decide +kernel, by decide +kernel, ?_,
    base.setLine (spad0 / 64) { poison := true }, ?_, by decide +kernel, ?_⟩
  all_goals first
    | (unfold PlainPlace; decide +kernel)
    | (unfold SeqHandled; decide +kernel)

theorem clearMarks_red (w i : Nat) (t : Team) : (t.clearMarks w i).red = t.red := by
  unfold Team.clearMarks
  generalize ((List.range t.slots.length).flatMap _) = ns
  induction ns generalizing t with
  | nil => rfl
  | cons n r ih =>
    rw [List.foldl_cons, ih]
    split <;> rfl

/-- Issuing leaves the buffered reductions of every team. -/
theorem issuing_red {s s1 : State} {r : Run} (h : s.issuing = some (r, s1)) (k : Nat) : (s1.team k).red = (s.team k).red := by
  unfold State.issuing at h
  split at h <;> try cases h
  split at h <;> try cases h
  rename_i c p i _ _ _
  have hm : ∀ k, ((s.clearMarks c (p * 16 + i)).team k).red = (s.team k).red := by
    intro k
    have h := SMap.get_mapV (d := ({} : Team)) s.teams
      (fun k t => if t.core = c then t.clearMarks (s.gridOf k).launch.width (p * 16 + i) else t) k (by dsimp only; split <;> rfl)
    refine (congrArg Team.red h).trans ?_
    split
    · exact clearMarks_red ..
    · rfl
  have hb : ∀ (ns : List Nat) (t : Team), (ns.foldl (fun t n => if (t.lane n).block = .none then t
      else t.setLane n { t.lane n with block := .none }) t).red = t.red := by
    intro ns
    induction ns with
    | nil => exact fun t => rfl
    | cons n r ih =>
      intro t
      rw [List.foldl_cons, ih]
      split <;> rfl
  by_cases e : k = r.team
  · subst e
    rw [show (((s.clearMarks c (p * 16 + i)).clearBlocks r).team r.team) = _ from SMap.get_set_same ..]
    exact (hb _ _).trans (hm _)
  · rw [show (((s.clearMarks c (p * 16 + i)).clearBlocks r).team k) = _ from SMap.get_set_other _ _ e]
    exact hm k

/-- A team with n reductions in its buffer. -/
def buffered (n : Nat) : State :=
  let s := holding 4 window0 false
  s.setTeam tk1 { s.team tk1 with red := List.replicate n ⟨0, 0, 0, 0, .pa 0, 0, 0, 0, 0, 0, false, 0⟩ }

/-- The requests of RED.D.i32 v4, v5. -/
def redReqs (s1 : State) (r : Run) : List LaneReq :=
  r.lanes.map (fun n =>
    { lane := n, va := ((laneAt s1 r n).reg r.trap (4 : BitVec 6).toNat).val, size := atomWidth (0 : BitVec 3).toNat / 8,
      aligned := decide (((laneAt s1 r n).reg r.trap (4 : BitVec 6).toNat).val.toNat % (atomWidth (0 : BitVec 3).toNat / 8) = 0),
      hostOk := false, az := ((laneAt s1 r n).reg r.trap (4 : BitVec 6).toNat).poison })

/-- DeferredReductionsAreBuffered: an empty buffer. -/
theorem witness_reductions :
    ∃ (s s1 s2 : State) (r : Run) (xs : List (LaneReq × Checked)), LaneIssues s [4, 5] r s1 ∧
      s1.checkReqs r .red (redReqs s1 r) = (xs, s2) ∧ (∀ y ∈ xs, y.1.az = false ∧ ∃ l m rest, y.2 = .ok ((l, m) :: rest)) ∧
      (s2.team r.team).red.length + (if (s2.gridOf r.team).rcd.det then
        ((s2.gridOf r.team).deferred.filter (fun e => decide (e.ix = keyIx r.team))).length else 0) + r.lanes.length ≤ 65536 :=
  ⟨buffered 0, _, _, _, _, laneIssues_of (by decide +kernel) (by decide +kernel), rfl, placed_of (by decide +kernel), by decide +kernel⟩

/-- The same with a buffer that has room for seven more. -/
theorem witness_reductions_full :
    ∃ (s s1 s2 : State) (r : Run) (xs : List (LaneReq × Checked)), LaneIssues s [4, 5] r s1 ∧ Handled s1 r ∧
      s1.checkReqs r .red (redReqs s1 r) = (xs, s2) ∧ (∀ y ∈ xs, y.1.az = false ∧ ∃ l m rest, y.2 = .ok ((l, m) :: rest)) ∧
      65536 < (s2.team r.team).red.length + (if (s2.gridOf r.team).rcd.det then
        ((s2.gridOf r.team).deferred.filter (fun e => decide (e.ix = keyIx r.team))).length else 0) + r.lanes.length := by
  have hi : LaneIssues (buffered 65529) [4, 5] (runOf (buffered 65529)) (fromOf (buffered 65529)) :=
    laneIssues_of (by decide +kernel) (by decide +kernel)
  have hl : (runOf (buffered 65529)).lanes.length = 8 := by decide +kernel
  have ht : (runOf (buffered 65529)).team = tk1 := by decide +kernel
  have hh : Handled (fromOf (buffered 65529)) (runOf (buffered 65529)) := ⟨by decide +kernel, by decide +kernel⟩
  have hp : placed ((fromOf (buffered 65529)).checkReqs (runOf (buffered 65529)) .red
      (redReqs (fromOf (buffered 65529)) (runOf (buffered 65529)))).1 = true := by decide +kernel
  have hr := issuing_red hi.1 tk1
  have hb : ((buffered 65529).team tk1).red.length = 65529 := by
    unfold buffered
    rw [State.setTeam_team, if_pos rfl]
    exact List.length_replicate
  rw [← hr] at hb
  clear hr
  generalize fromOf (buffered 65529) = s1 at *
  generalize runOf (buffered 65529) = r at *
  have hc := (checkReqs_only r .red (redReqs s1 r) s1).teams
  generalize hx : s1.checkReqs r .red (redReqs s1 r) = x at hc hp
  refine ⟨buffered 65529, s1, x.2, r, x.1, hi, hh, hx, placed_of hp, ?_⟩
  have h2 : (x.2.team r.team).red.length = 65529 := by
    rw [ht]
    unfold State.team at hb ⊢
    rw [hc, hb]
  omega

/-- Whatever one team holds and the default holds, every team holds. -/
theorem team_all {s : State} (P : Team → Prop) (h0 : P {}) (h : ∀ e ∈ s.teams, P e.2) (k : Nat) : P (s.team k) :=
  get_all P s.teams h0 h k

/-- PlaneStores: STP of a one-plane format to the window, in a grid that is not DET. -/
theorem witness_plane_store :
    ∃ (s s1 s2 : State) (r : Run) (xs : List (LaneReq × Checked)), LaneIssues s [4, 5] r s1 ∧
      s1.checkReqs r .stp ((r.lanes.map (· / (s1.gridOf r.team).launch.width)).eraseDups.map (fun g =>
        stpReq (s1.team r.team) r (s1.gridOf r.team).launch.width 0x0A 4 5
          (r.lanes.filter (fun n => decide (n / (s1.gridOf r.team).launch.width = g))))) = (xs, s2) ∧ AllPass xs ∧
      (∀ y ∈ xs, stpPast ((laneAt s1 r y.1.lane).reg r.trap 4).val.toNat y.1 = none) ∧
      ∀ as, s2.detHold (keyGrid r.team) as = none := by
  refine ⟨holding 4 window0 false, _, _, _, _, laneIssues_of (by decide +kernel) (by decide +kernel), rfl, allPass_of (by decide +kernel),
    by decide +kernel, detHold_free (by decide +kernel)⟩

/-- BankModeSwitches: bank 1 of two is switched, and nothing holds it. -/
theorem witness_bank_mode :
    ∃ (s s1 : State) (r : Run), LaneIssues s [5] r s1 ∧ (∀ n ∈ r.lanes, ((laneAt s1 r n).reg r.trap 5).poison = false) ∧
      (s1.team r.team).bmodeNext = [] ∧ (∀ k, (s1.team k).seq.sbuf = []) ∧
      switchedBanks (s1.team r.team).bmode (r.lanes.map (fun n => ((laneAt s1 r n).reg r.trap 5).val.setWidth 16 &&&
        BitVec.ofNat 16 (2 ^ (s1.gridOf r.team).launch.sbanks - 1))) ≠ [] ∧
      ∀ b ∈ switchedBanks (s1.team r.team).bmode (r.lanes.map (fun n => ((laneAt s1 r n).reg r.trap 5).val.setWidth 16 &&&
        BitVec.ofNat 16 (2 ^ (s1.gridOf r.team).launch.sbanks - 1))), s1.bankBusy r.team b = false :=
  ⟨holding 5 0xFFFE false, _, _, laneIssues_of (by decide +kernel) (by decide +kernel), by decide +kernel, by decide +kernel,
    team_all (fun t => t.seq.sbuf = []) rfl (by decide +kernel), by decide +kernel, by decide +kernel⟩

/-- Barrier 3 expects n arrivals in counted mode and has none. -/
def counting (n : Nat) : State :=
  let s := laneState (fun _ l => l)
  s.setTeam tk1 { s.team tk1 with bars := SMap.set {} (s.team tk1).bars 3 { expected := n } }

/-- LanesAtBarriers: eight arrivals of nine, and of eight. -/
theorem witness_lane_barriers :
    (∃ (s s1 : State) (r : Run), s.issuing = some (r, s1) ∧ ((s1.team r.team).bar 3).expected ≠ 0 ∧ r.lanes ≠ [] ∧
      ((s1.team r.team).bar 3).arr + r.lanes.length < ((s1.team r.team).bar 3).expected) ∧
    ∃ (s s1 : State) (r : Run), s.issuing = some (r, s1) ∧ r.lanes ≠ [] ∧ ((s1.team r.team).bar 3).expected ≠ 0 ∧
      ((s1.team r.team).bar 3).arr + r.lanes.length = ((s1.team r.team).bar 3).expected ∧ (s1.team r.team).red = [] ∧
      (s1.gridOf r.team).captured = false ∧ ∀ y ∈ s1.releases, y.kind ≠ .bar r.team 3 :=
  ⟨⟨counting 9, _, _, issuing_of (by decide +kernel), by decide +kernel⟩,
   ⟨counting 8, _, _, issuing_of (by decide +kernel), by decide +kernel⟩⟩

/-- A core's queue of n commands, and an exchange engine's. -/
def queued (s : State) (n m : Nat) : State :=
  { s.setCore 0 { s.coreAt 0 with ce := List.replicate n {} } with fab := { s.fab with xeq := List.replicate m {} } }

/-- The eight registers v8 to v15. -/
def eight : List Nat := (List.range 8).map ((8 : BitVec 6).toNat + ·)

/-- The words of a copy of 64 bytes in the window, and of an exchange command that stores to it. -/
def copyWords : List Word := [1 + 64 * 2 ^ 32, window0, window0 + 64]
def exchangeWords : List Word := [0x11 + 3 * 2 ^ 12 + 2 * 2 ^ 32, window0, window0 + 64, 0, 9]

/-- A store of a doubleword at the window's first byte. -/
def store0 : Access := { agent := .lane tk1 0, va := window0, runs := [(.spad tk1 0 0, 8)], op := .store 8 1 false }

/-- A DET grid, on a chip of a view, in which such a store has passed its checks and waits. -/
def behind (s : State) : State :=
  { detState s with parked := [⟨tk1, [0], 0, [store0], true⟩], fab := { s.fab with members := [0, 1, 3], isol := false } }

/-- Every lane holds the words in v8 and on. -/
def pushing (ws : List Word) : State :=
  laneState (fun _ l => { l with v := ws.zipIdx.foldl (fun m x => SMap.set {} m (8 + x.2) ⟨x.1, false⟩) l.v })

/-- LanePushes: clean and poisoned words, a context that is not privileged, queues with room for all, for three and for none, and
a push that waits for an access. -/
theorem witness_lane_pushes :
    let free := fun (s1 : State) (r : Run) (q : Nat) =>
      if q = 0 then 32 - (s1.coreAt (s1.coreOf r.team)).ce.length else 256 - (s1.fab.xeq.length + s1.fab.xe.length)
    let holds := fun (s1 : State) (r : Run) (q n : Nat) =>
      s1.pushHold q r.team (some n) (wordsFrom (fun k => ((laneAt s1 r n).reg r.trap k).val) 8)
    let clean := fun (s1 : State) (r : Run) =>
      ∀ n ∈ r.lanes, (List.range 8).any (fun i => ((laneAt s1 r n).reg r.trap (8 + i)).poison) = false
    (∃ (s s1 : State) (r : Run), LaneIssues s eight r s1 ∧ Handled s1 r ∧
      ∃ n ∈ r.lanes, (List.range 8).any (fun i => ((laneAt s1 r n).reg r.trap (8 + i)).poison) = true) ∧
    (∃ (s s1 : State) (r : Run), LaneIssues s eight r s1 ∧ Handled s1 r ∧ (s1.gridOf r.team).rcd.priv = false) ∧
    (∀ k ∈ [8, 3, 0], ∃ (s s1 : State) (r : Run), LaneIssues s eight r s1 ∧ (s1.gridOf r.team).rcd.priv = true ∧ clean s1 r ∧
      free s1 r 0 = k ∧ free s1 r 1 = k ∧ ∀ n ∈ r.lanes, holds s1 r 0 n = none ∧ holds s1 r 1 n = none) ∧
    (∃ (s s1 : State) (r : Run), LaneIssues s eight r s1 ∧ clean s1 r ∧ free s1 r 0 ≠ 0 ∧ (r.lanes.findSome? (holds s1 r 0)).isSome = true) ∧
    ∃ (s s1 : State) (r : Run), LaneIssues s eight r s1 ∧ clean s1 r ∧ free s1 r 1 ≠ 0 ∧ (r.lanes.findSome? (holds s1 r 1)).isSome = true := by
  let U := (holding 8 1 false).setGrid 1 { base.grid 1 with rcd := { (base.grid 1).rcd with priv := false } }
  refine ⟨⟨holding 15 1 true, _, _, laneIssues_of (by decide +kernel) (by decide +kernel), ⟨by decide +kernel, by decide +kernel⟩,
     by decide +kernel⟩,
   ⟨U, _, _, laneIssues_of (by decide +kernel) (by decide +kernel), ⟨by decide +kernel, by decide +kernel⟩, by decide +kernel⟩,
   ?_,
   ⟨behind (pushing copyWords), _, _, laneIssues_of (by decide +kernel) (by decide +kernel), by decide +kernel⟩,
   ⟨behind (pushing exchangeWords), _, _, laneIssues_of (by decide +kernel) (by decide +kernel), by decide +kernel⟩⟩
  intro k hk
  simp only [List.mem_cons, List.not_mem_nil, or_false] at hk
  rcases hk with rfl | rfl | rfl
  · exact ⟨queued (holding 8 1 false) 24 248, _, _, laneIssues_of (by decide +kernel) (by decide +kernel), by decide +kernel⟩
  · exact ⟨queued (holding 8 1 false) 29 253, _, _, laneIssues_of (by decide +kernel) (by decide +kernel), by decide +kernel⟩
  · exact ⟨queued (holding 8 1 false) 32 256, _, _, laneIssues_of (by decide +kernel) (by decide +kernel), by decide +kernel⟩

/-- The team's first line is claimed by a queued command. -/
def lineClaimed : State := base.setCore 0 { base.coreAt 0 with ce := [{ claims := [spad0 / 64] }] }

/-- StopsAndWaits: a store meets the claim of a queued command. -/
theorem witness_claimed :
    lineClaimed.frontPiece store0 = some ((.spad tk1 0 0, 8), []) ∧ lineClaimed.pieceWaits lineClaimed.parked.length store0 (.spad tk1 0 0, 8) = true ∧
      lineClaimed.paceOf [store0] ≠ 0 := by decide +kernel

/-! ## Witnesses: the sequencer -/

/-- A sequencer with the held loop ⟨2, 0, 4, hi, 0⟩. -/
def looping (hi : Word) : State := seqState (fun q => { q with pc := 4, loop := some ⟨2, 0, 4, hi, 0⟩ })

/-- A sequencer at address pc, with the word w at address 4, the count n in s2 and the step word in s3. -/
def loopAt (pc : Word) (w n : Nat) (step : Word) : State :=
  (seqState (fun q => { q with pc := pc, s := [(2, BitVec.ofNat 64 n), (3, step)] })).putBytes (hbmKey 0x6004) (leBytes 4 w)

/-- SequencerArithmetic, SequencerBranches and LoopsRunTheirPasses: inside the body, at its end, with no loop, and LOOP with
a count of 0, a count of 2, a forbidden body, an unmapped one and a step word with bit 36 set. -/
theorem witness_sequencer :
    (∃ (i : Instr) (f : SeqForm) (s s1 : State), seqForm i = some f ∧ SeqIssues s tk1 s1) ∧
    (∃ (i : Instr) (s s1 : State), branchForm i ≠ none ∧ SeqIssues s tk1 s1) ∧
    (∃ s s1 : State, SeqIssues s tk1 s1 ∧
      ∀ l, (if (s1.team tk1).seq.trap then (s1.team tk1).seq.hloop else (s1.team tk1).seq.loop) = some l → (s1.team tk1).seq.pc + 4 ≠ l.hi) ∧
    (∃ (s s1 : State) (l : LoopState), SeqIssues s tk1 s1 ∧
      (if (s1.team tk1).seq.trap then (s1.team tk1).seq.hloop else (s1.team tk1).seq.loop) = some l ∧ (s1.team tk1).seq.pc + 4 = l.hi) :=
  ⟨⟨.saluAdd 1 2 3, _, seqState id, _, rfl, seqIssues_of rfl (by decide +kernel)⟩,
   ⟨.bz 4 2, seqState id, _, by decide, seqIssues_of rfl (by decide +kernel)⟩,
   ⟨seqState id, _, seqIssues_of rfl (by decide +kernel), fun l h => nomatch (show (none : Option LoopState) = some l from h)⟩,
   ⟨looping 8, _, ⟨2, 0, 4, 8, 0⟩, seqIssues_of rfl (by decide +kernel), by decide +kernel, by decide +kernel⟩⟩

theorem witness_loops :
    let bodyOf := fun (s1 : State) => s1.fetchBody tk1 (s1.team tk1).seq.pc.toNat
      ((0 : BitVec 5).toNat + 1) ((s1.team tk1).seq.pc.toNat + 4) true
    (∃ (s s1 : State) (hi : Nat), SeqIssues s tk1 s1 ∧ ((s1.team tk1).seq.reg 3).toNat < 2 ^ 36 ∧ (bodyOf s1).1 = .ok hi true ∧
      (s1.team tk1).seq.reg 2 = 0) ∧
    (∃ (s s1 : State) (hi : Nat), SeqIssues s tk1 s1 ∧ ((s1.team tk1).seq.reg 3).toNat < 2 ^ 36 ∧ (bodyOf s1).1 = .ok hi true ∧
      (s1.team tk1).seq.reg 2 ≠ 0) ∧
    (∃ (s s1 : State) (hi : Nat), SeqIssues s tk1 s1 ∧ ((s1.team tk1).seq.reg 3).toNat < 2 ^ 36 ∧ (bodyOf s1).1 = .ok hi false ∧
      SeqHandled (bodyOf s1).2 tk1) ∧
    (∃ (s s1 : State) (va code : Nat), SeqIssues s tk1 s1 ∧ ((s1.team tk1).seq.reg 3).toNat < 2 ^ 36 ∧ (bodyOf s1).1 = .fault va code ∧
      SeqHandled (bodyOf s1).2 tk1) ∧
    ∃ s s1 : State, SeqIssues s tk1 s1 ∧ SeqHandled s1 tk1 ∧ 2 ^ 36 ≤ ((s1.team tk1).seq.reg 3).toNat :=
  ⟨⟨loopAt 0 0x0060001D 0 0xFFFFFFFFF, _, 8, seqIssues_of rfl (by decide +kernel), by decide +kernel⟩,
   ⟨loopAt 0 0x0060001D 2 0, _, 8, seqIssues_of rfl (by decide +kernel), by decide +kernel⟩,
   ⟨loopAt 0 0x0040001D 2 0, _, 8, seqIssues_of rfl (by decide +kernel), by decide +kernel, by decide +kernel, ⟨by decide +kernel, by decide +kernel⟩⟩,
   ⟨loopAt 4092 0x0060001D 2 0, _, 4096, 1, seqIssues_of rfl (by decide +kernel), by decide +kernel, by decide +kernel,
     ⟨by decide +kernel, by decide +kernel⟩⟩,
   ⟨loopAt 0 0x0060001D 2 0x1000000000, _, seqIssues_of rfl (by decide +kernel), ⟨by decide +kernel, by decide +kernel⟩, by decide +kernel⟩⟩

/-- SequencerTrapEntry: a handled trap, an undecodable word, no privilege, and sixteen banks held. -/
theorem witness_sequencer_traps :
    (∃ (s s1 s2 : State) (w : Nat) (u : Undecoded), SeqIssues s tk1 s1 ∧ SeqHandled s1 tk1 ∧
      s1.fetchInstr tk1 (s1.team tk1).seq.pc.toNat = (.ok w, s2) ∧ decodeSeq w = .error u) ∧
    (∃ s s1 : State, SeqIssues s tk1 s1 ∧ SeqHandled s1 tk1 ∧ (s1.gridOf tk1).rcd.priv = false) ∧
    ∃ s s1 : State, SeqIssues s tk1 s1 ∧ SeqHandled s1 tk1 ∧ 16 < (s1.team tk1).held + (0 : BitVec 4).toNat + 1 := by
  let U := (seqState id).setGrid 1 { base.grid 1 with rcd := { (base.grid 1).rcd with priv := false } }
  let H := { (base.setTeam tk1 { base.team tk1 with acc := (List.range 16).map (fun j => (j, j + 1)) }) with turn := .seq tk1 }
  let Z := seqState (fun q => { q with pc := 8 })
  have h : ((seqFrom Z).fetchInstr tk1 ((seqFrom Z).team tk1).seq.pc.toNat).1 = .ok 0 := by decide +kernel
  exact ⟨⟨Z, seqFrom Z, _, 0, .undefined, seqIssues_of rfl (by decide +kernel), ⟨by decide +kernel, by decide +kernel⟩, pair_of h,
      error_of (by decide +kernel)⟩,
    ⟨U, _, seqIssues_of rfl (by decide +kernel), ⟨by decide +kernel, by decide +kernel⟩, by decide +kernel⟩,
    ⟨H, _, seqIssues_of rfl (by decide +kernel), ⟨by decide +kernel, by decide +kernel⟩, by decide +kernel⟩⟩

/-- SequencerReturnsAndExits and SequencerSpecialRegisters: trap mode with and without loops, and EXIT beside running and beside exited lanes. -/
theorem witness_sequencer_returns :
    (∃ s s1 : State, SeqIssues s tk1 s1 ∧ (s1.team tk1).seq.trap = true) ∧
    (∃ s s1 : State, SeqIssues s tk1 s1 ∧ (s1.team tk1).seq.hloop = none ∧ (s1.team tk1).seq.loop = some ⟨2, 0, 4, 8, 0⟩) ∧
    (∃ s s1 : State, SeqIssues s tk1 s1 ∧ (s1.team tk1).seq.hloop = some ⟨3, 0, 4, 8, 0⟩ ∧ (s1.team tk1).seq.loop = some ⟨2, 0, 4, 8, 0⟩) ∧
    (∃ s s1 : State, SeqIssues s tk1 s1 ∧
      (∀ b, b < 16 → (s1.setSeq tk1 { (s1.team tk1).seq with exited := true }).autoMet tk1 b = false) ∧
      (SMap.get (0, []) (s1.grid (keyGrid tk1)).cbar ((s1.grid (keyGrid tk1)).clusterOf (keyIx tk1))).2 = [] ∧
      (s1.grid (keyGrid tk1)).gbarArr = [] ∧ ((s1.team tk1).lane 0).exited = false) ∧
    ∃ s s1 : State, SeqIssues s tk1 s1 ∧
      (∀ b, b < 16 → (s1.setSeq tk1 { (s1.team tk1).seq with exited := true }).autoMet tk1 b = false) ∧
      (SMap.get (0, []) (s1.grid (keyGrid tk1)).cbar ((s1.grid (keyGrid tk1)).clusterOf (keyIx tk1))).2 = [] ∧
      (s1.grid (keyGrid tk1)).gbarArr = [] ∧
      ∀ n, n < (s1.grid (keyGrid tk1)).launch.lanes → ((s1.team tk1).lane n).exited = true :=
  ⟨⟨seqState (fun q => { q with trap := true }), _, seqIssues_of rfl (by decide +kernel), by decide +kernel⟩,
   ⟨looping 8, _, seqIssues_of rfl (by decide +kernel), by decide +kernel⟩,
   ⟨seqState (fun q => { q with trap := true, loop := some ⟨2, 0, 4, 8, 0⟩, hloop := some ⟨3, 0, 4, 8, 0⟩ }), _,
     seqIssues_of rfl (by decide +kernel), by decide +kernel⟩,
   ⟨seqState id, _, seqIssues_of rfl (by decide +kernel), by decide +kernel⟩,
   ⟨{ laneState (fun _ l => { l with exited := true }) with turn := .seq tk1 }, _, seqIssues_of rfl (by decide +kernel), by decide +kernel⟩⟩

/-- The window's first byte in s2 and context address 0x40 in s3. -/
def addressing : State := seqState (fun q => { q with s := [(2, window0), (3, 0x40), (4, 0xF000000000000000)] })

/-- A store buffer with a byte, with no claim and with a claim on its line. -/
def buffering (claim : Bool) : State :=
  let s := seqState (fun q => { q with sbuf := [⟨.spad tk1 0 0, 7, 0⟩] })
  if claim then s.setCore 0 { s.coreAt 0 with ce := [{ claims := [spad0 / 64] }] } else s

/-- A sequencer with a forwarded access under way. -/
def forwarding (s : State) : State := { s with fab := { s.fab with fwd := [{ tag := 5, chip := 3, owner := .agent (.seq tk1), pa := 0x6010, n := 8, write := true, asid := 1, grid := 1 }] } }

/-- SequencerMemoryInstructions: SLD and SST that pass in the window and in memory, one outside every region, and a fence with
an empty buffer, a free one, one that must wait, and a forwarded access under way. -/
theorem witness_sequencer_memory :
    let load := fun (s1 : State) (a : Nat) => s1.checkAccess (s1.whoOf tk1) (s1.coreOf tk1) .load true true false ((s1.team tk1).seq.reg a).toNat 8
    let store := fun (s1 : State) (a : Nat) => s1.checkAccess (s1.whoOf tk1) (s1.coreOf tk1) .store true true false ((s1.team tk1).seq.reg a).toNat 8
    let acc := fun (op : MemOp) => ({ agent := .seq tk1, va := window0, runs := pieces [(.spad tk1 0 0, 8)], op := op } : Access)
    let s1 := seqFrom addressing
    (SeqIssues addressing tk1 s1 ∧ SeqIssues (buffering false) tk1 (seqFrom (buffering false)) ∧
      SeqIssues (buffering true) tk1 (seqFrom (buffering true)) ∧ SeqIssues (forwarding addressing) tk1 (seqFrom (forwarding addressing))) ∧
    (∃ e, (load s1 4).1 = .fail e) ∧ SeqHandled (load s1 4).2 tk1 ∧
    (load s1 2).1 = .ok [(.spad tk1 0 0, 8)] ∧ (load s1 2).2.seqFifoWait .load [(.spad tk1 0 0, 8)] = false ∧
    (load s1 2).2.detHold 1 [acc (.load 5 8 false)] = none ∧
    (store s1 2).1 = .ok [(.spad tk1 0 0, 8)] ∧ (store s1 2).2.seqFifoWait .store [(.spad tk1 0 0, 8)] = false ∧
    ((store s1 2).2.team tk1).ownCapture [(.spad tk1 0 0, 8)] = false ∧ (store s1 2).2.fifoPort [(.spad tk1 0 0, 8)] = none ∧
    ((store s1 2).2.gridOf tk1).rcd.det = false ∧
    (seqFrom (buffering false)).bufWaits tk1 [(.spad tk1 0 0, 1)] = false ∧
    (seqFrom (buffering true)).bufWaits tk1 [(.spad tk1 0 0, 1)] = true ∧
    bufRuns (((seqFrom (buffering true)).team tk1).seq.sbuf.filter (fun b => decide (b.store = 0))) = [(.spad tk1 0 0, 1)] ∧
    ((seqFrom (forwarding addressing)).team tk1).seq.sbuf = [] ∧
    ∃ x ∈ (seqFrom (forwarding addressing)).fab.fwd, x.owner = .agent (.seq tk1) :=
  ⟨⟨seqIssues_of rfl (by decide +kernel), seqIssues_of rfl (by decide +kernel), seqIssues_of rfl (by decide +kernel),
     seqIssues_of rfl (by decide +kernel)⟩,
    ⟨⟨4, 4, 0xF000000000000000, [0xF000000000000000]⟩, by decide +kernel⟩, ⟨by decide +kernel, by decide +kernel⟩, by decide +kernel⟩

/-- A store of the sequencer to device memory: page 0 mapped writable. -/
def writable : State := (addressing.setSeq tk1 { (addressing.team tk1).seq with s := [(3, 0x40)] }).putBytes (hbmKey 0x5000) (leBytes 8 0x600F)

theorem witness_sequencer_store :
    ∃ (s1 : State) (l : Loc), SeqIssues writable tk1 s1 ∧
      (s1.checkAccess (s1.whoOf tk1) (s1.coreOf tk1) .store true true false ((s1.team tk1).seq.reg 3).toNat 8).1 = .ok [(l, 8)] ∧ l = .pa 0x6040 ∧
      ∀ as, (s1.checkAccess (s1.whoOf tk1) (s1.coreOf tk1) .store true true false ((s1.team tk1).seq.reg 3).toNat 8).2.detHold 1 as = none :=
  ⟨seqFrom writable, .pa 0x6040, seqIssues_of rfl (by decide +kernel), by decide +kernel, rfl, detHold_free (by decide +kernel)⟩

/-- A grid of two teams in one cluster; the other team as f makes it. -/
def twoTeams (f : Team → Team) : State :=
  let s := base.setGrid 1 { base.grid 1 with launch := { (base.grid 1).launch with gx := 2, cx := 2 } }
  { s.setTeam (teamKey 1 1) (f { st := .running, core := 1, slots := [(0, 0)] }) with turn := .seq tk1 }

/-- SequencersAtBarriers: an arrival short of the count, cluster and grid barriers with a party missing, and with the last. -/
theorem witness_sequencer_barriers :
    (∃ s s1 : State, SeqIssues s tk1 s1 ∧ (s1.team tk1).seq.sbuf = [] ∧ (s1.team tk1).seq.held = none ∧
      ((s1.team tk1).bar 3).expected ≠ 0 ∧ ((s1.team tk1).bar 3).arr + 1 < ((s1.team tk1).bar 3).expected) ∧
    (∃ s s1 : State, SeqIssues s tk1 s1 ∧ (s1.team tk1).seq.held = none ∧ 1 < (s1.grid 1).clusterSize 0 ∧
      (decide (1 ∈ (SMap.get (0, []) (s1.grid 1).cbar 0).2 ++ [(s1.grid 1).rankOf 0]) || (s1.team (teamKey 1 1)).seqGone) = false) ∧
    (∃ s s1 : State, SeqIssues s tk1 s1 ∧ (∀ r, r < (s1.grid 1).clusterSize 0 →
      (decide (r ∈ (SMap.get (0, []) (s1.grid 1).cbar 0).2 ++ [(s1.grid 1).rankOf 0]) || (s1.team (teamKey 1 (0 * (s1.grid 1).q + r))).seqGone) = true) ∧
      ∀ y ∈ s1.releases, y.kind ≠ .cbar 1 0) ∧
    (∃ s s1 : State, SeqIssues s tk1 s1 ∧ (s1.grid 1).retired = 0 ∧ (s1.grid 1).gbarArr = [] ∧ 1 < (s1.grid 1).size ∧
      ∀ j, keyGrid j = 1 → (s1.team j).seqGone = false) ∧
    ∃ s s1 : State, SeqIssues s tk1 s1 ∧ (s1.grid 1).retired = 0 ∧ (s1.grid 1).gbarArr = [] ∧ 1 = (s1.grid 1).size ∧
      (∀ j, keyGrid j = 1 → (s1.team j).seqGone = false ∧ (s1.team j).red = []) ∧ (s1.grid 1).deferred = [] ∧
      ∀ y ∈ s1.releases, y.kind ≠ .gbar 1 :=
  ⟨⟨{ counting 2 with turn := .seq tk1 }, _, seqIssues_of rfl (by decide +kernel), by decide +kernel⟩,
   ⟨twoTeams id, _, seqIssues_of rfl (by decide +kernel), by decide +kernel⟩,
   ⟨twoTeams (fun t => { t with st := .retired }), _, seqIssues_of rfl (by decide +kernel), by decide +kernel, by decide +kernel⟩,
   ⟨twoTeams id, _, seqIssues_of rfl (by decide +kernel), by decide +kernel, by decide +kernel, by decide +kernel,
     fun j _ => team_all (fun t => t.seqGone = false) rfl (by decide +kernel) j⟩,
   ⟨seqState id, _, seqIssues_of rfl (by decide +kernel), by decide +kernel, by decide +kernel, by decide +kernel,
     fun j _ => team_all (fun t => t.seqGone = false ∧ t.red = []) ⟨rfl, rfl⟩ (by decide +kernel) j, by decide +kernel, by decide +kernel⟩⟩

/-- SequencerPushes and AccumulatorBanks: queues with and without room; banks free, asked for, granted, and given back. -/
theorem witness_pushes_and_banks :
    (∃ s s1 : State, SeqIssues s tk1 s1 ∧ (s1.coreAt (s1.coreOf tk1)).ce.length < 32 ∧
      s1.fab.xeq.length + s1.fab.xe.length < 256 ∧ (s1.gridOf tk1).rcd.priv = true ∧
      s1.pushHold 0 tk1 none (wordsFrom (s1.team tk1).seq.reg 3) = none ∧ s1.pushHold 1 tk1 none (wordsFrom (s1.team tk1).seq.reg 3) = none) ∧
    (∃ s s1 : State, SeqIssues s tk1 s1 ∧ (s1.coreAt (s1.coreOf tk1)).ce.length < 32 ∧
      (s1.pushHold 0 tk1 none (wordsFrom (s1.team tk1).seq.reg 3)).isSome = true) ∧
    (∃ s s1 : State, SeqIssues s tk1 s1 ∧ s1.fab.xeq.length + s1.fab.xe.length < 256 ∧
      (s1.pushHold 1 tk1 none (wordsFrom (s1.team tk1).seq.reg 3)).isSome = true) ∧
    (∃ s s1 : State, SeqIssues s tk1 s1 ∧ 32 ≤ (s1.coreAt (s1.coreOf tk1)).ce.length ∧
      256 ≤ s1.fab.xeq.length + s1.fab.xe.length) ∧
    (∃ s s1 : State, SeqIssues s tk1 s1 ∧ (s1.team tk1).held + (15 : BitVec 4).toNat + 1 ≤ 16 ∧
      (s1.coreAt (s1.coreOf tk1)).acq = [] ∧ (15 : BitVec 4).toNat + 1 ≤ (s1.freeAcc (s1.coreOf tk1)).length ∧
      ∀ f ∈ (s1.team tk1).mf.forces, f.suspended = true) ∧
    (∃ s s1 : State, SeqIssues s tk1 s1 ∧ (s1.team tk1).held + (0 : BitVec 4).toNat + 1 ≤ 16 ∧ (s1.coreAt (s1.coreOf tk1)).acq ≠ []) ∧
    (∃ (s : State) (rest : List (Nat × Nat × Nat)), s.turn = .event .acqGrant (.nat 0) ∧ (s.coreAt 0).acq = (tk1, 4, 2) :: rest ∧
      4 ≤ (s.freeAcc 0).length) ∧
    ∃ (t0 : Team) (ps : List Nat), t0.held + ps.length ≤ 16 ∧ (∀ e ∈ t0.acc, e.1 < 16 ∧ e.2 ≠ 0) ∧ SMap.wf 0 t0.acc = true ∧ ps.length = 15 := by
  let P := fun (ws : List Word) => behind (seqState (fun q => { q with s := ws.zipIdx.map (fun x => (3 + x.2, x.1)) }))
  refine ⟨⟨queued (seqState id) 31 255, _, seqIssues_of rfl (by decide +kernel), by decide +kernel⟩,
    ⟨P copyWords, _, seqIssues_of rfl (by decide +kernel), by decide +kernel⟩,
    ⟨P exchangeWords, _, seqIssues_of rfl (by decide +kernel), by decide +kernel⟩,
    ⟨queued (seqState id) 32 256, _, seqIssues_of rfl (by decide +kernel), by decide +kernel, by decide +kernel⟩,
    ⟨seqState id, _, seqIssues_of rfl (by decide +kernel), by decide +kernel⟩,
    ⟨(seqState id).setCore 0 { base.coreAt 0 with acq := [(tk1, 4, 2)] }, _, seqIssues_of rfl (by decide +kernel), by decide +kernel, by decide +kernel⟩,
    ⟨{ base.setCore 0 { base.coreAt 0 with acq := [(tk1, 4, 2)] } with turn := .event .acqGrant (.nat 0) }, [], rfl, by decide +kernel, by decide +kernel⟩,
    ⟨{ acc := [(3, 4)] }, List.range 15, by decide +kernel⟩⟩

/-- ViewInstructions: a member, an isolated chip, and one that is neither. -/
theorem witness_views :
    (∃ s s1 : State, SeqIssues s tk1 s1 ∧ (s1.gridOf tk1).rcd.priv = true ∧ s1.fab.isol = true) ∧
    (∃ s s1 : State, SeqIssues s tk1 s1 ∧ (s1.gridOf tk1).rcd.priv = true ∧ s1.fab.member = false ∧ s1.fab.isol = false ∧
      ¬ ((s1.fab.member = true ∧ (s1.fab.vnum - ((s1.team tk1).seq.reg 5).setWidth 32).toNat < 2 ^ 31) ∨ s1.fab.isol = true)) ∧
    ∃ s s1 : State, SeqIssues s tk1 s1 ∧ s1.fab.member = true ∧ (s1.fab.vnum - ((s1.team tk1).seq.reg 5).setWidth 32).toNat < 2 ^ 31 :=
  let S := seqState id
  ⟨⟨{ S with fab := { S.fab with isol := true } }, _, seqIssues_of rfl (by decide +kernel), by decide +kernel, by decide +kernel⟩,
   ⟨{ S with fab := { S.fab with members := [], isol := false } }, _, seqIssues_of rfl (by decide +kernel), by decide +kernel⟩,
   ⟨{ S with fab := { S.fab with members := [S.fab.chip], isol := false } }, _, seqIssues_of rfl (by decide +kernel), by decide +kernel, by decide +kernel⟩⟩

/-! ## Witnesses: tiles -/

/-- A node of two rows and two columns of I32 with operands and elements. -/
def node (op : Nat) (refs : List Nat) (st : NodeState) (val : List Nat) : Node :=
  ⟨op, refs, refs, [], 0x0A, 0, 2, 2, 0, 0x0A, 0, 0, 1, st, 0, 0, val, 0, 0, [], 0, 0, 0⟩

/-- A sequencer with a manifest: s4 and s5 hold a two by two shape, s6 the window, s7 a descriptor of no stride. -/
def tileState (m : Manifest) (graph : Nat) : State :=
  let s := seqState (fun q => { q with s := [(4, 0x402), (5, 0x402), (6, window0), (7, 0), (8, window0 + 4), (9, 0x40002)] })
  let s := s.setTeam tk1 { s.team tk1 with mf := m }
  s.setGrid 1 { s.grid 1 with launch := { (s.grid 1).launch with graph := graph } }

/-- t0 and t1 name two materialized nodes. -/
def two : Manifest :=
  { tregs := [(0, 1), (1, 2)], create := 2,
    nodes := [(0, node 22 [] .materialized [1, 2, 3, 4]), (1, node 22 [] .materialized [5, 6, 7, 8])] }

/-- t0 names node 16 of a chain of seventeen. -/
def chain : Manifest :=
  { tregs := [(0, 17)], create := 17, nodes := (List.range 17).map (fun k => (k, node 10 (if k = 0 then [] else [k - 1]) .built [])) }

/-- A force of node 0, suspended or not. -/
def force (suspended : Bool) : Force :=
  { root := 0, kind := .tforce, faddr := 0, snap := ⟨[], [], [], [], 0⟩, suspended := suspended, inTrap := false, target := [], num := 0,
    serial := 0, pts := 0, space := 0, fin := false }

/-- TADD.i32 t2, t0, t1: its form. -/
def adding : Instr := .tadd 0 0x0A 1 0 2

/-- TileInstructionsCreateNodes: TADD of two nodes with room, and again where its node is present. -/
theorem witness_tile_nodes :
    (∃ (f : TileForm) (s s1 : State) (os : List (Nat × Node)), tileForm adding = some f ∧ SeqIssues s tk1 s1 ∧
      f.shape (s1.team tk1).seq = true ∧ operandsOf f (s1.team tk1).seq (s1.team tk1).mf.tick = some os ∧
      f.ok (os.map (·.2)) = true ∧ (s1.team tk1).mf.tick.identical (createdBy f (s1.team tk1).seq os) = none ∧
      roomFor s1 tk1 (s1.team tk1).mf.tick (createdBy f (s1.team tk1).seq os).opnds) ∧
    ∃ (f : TileForm) (s s1 : State) (os : List (Nat × Node)) (k : Nat), tileForm adding = some f ∧ SeqIssues s tk1 s1 ∧
      f.shape (s1.team tk1).seq = true ∧ operandsOf f (s1.team tk1).seq (s1.team tk1).mf.tick = some os ∧
      f.ok (os.map (·.2)) = true ∧ (s1.team tk1).mf.tick.identical (createdBy f (s1.team tk1).seq os) = some k := by
  refine ⟨⟨_, tileState two 4, _, [(0, node 22 [] .materialized [1, 2, 3, 4]), (1, node 22 [] .materialized [5, 6, 7, 8])], rfl,
      seqIssues_of rfl (by decide +kernel), by decide +kernel, by decide +kernel, by decide +kernel, by decide +kernel,
      ⟨by decide +kernel, by decide +kernel⟩⟩,
    ⟨_, tileState { two with create := 3, nodes := two.nodes ++ [(2, node 6 [0, 1] .built [])] } 4, _,
      [(0, node 22 [] .materialized [1, 2, 3, 4]), (1, node 22 [] .materialized [5, 6, 7, 8])], 2, rfl,
      seqIssues_of rfl (by decide +kernel), by decide +kernel⟩⟩

/-- TileInstructionsFaultOrForce: a register that names no node; an operand of depth 17; a full budget with a force under
way, with a root, and with every node materialized. -/
theorem witness_tile_budget :
    (∃ (f : TileForm) (s s1 : State), tileForm adding = some f ∧ SeqIssues s tk1 s1 ∧ SeqHandled s1 tk1 ∧
      operandsOf f (s1.team tk1).seq (s1.team tk1).mf.tick = none) ∧
    (∃ (f : TileForm) (s s1 : State) (os : List (Nat × Node)) (k : Nat), tileForm (.tcvt 0x0A 0 2) = some f ∧ SeqIssues s tk1 s1 ∧
      f.shape (s1.team tk1).seq = true ∧ operandsOf f (s1.team tk1).seq (s1.team tk1).mf.tick = some os ∧
      f.ok (os.map (·.2)) = true ∧ (s1.team tk1).mf.tick.identical (createdBy f (s1.team tk1).seq os) = none ∧
      k ∈ (os.map (·.1)).filter (fun k => decide (16 ≤ (s1.team tk1).mf.tick.depth 17 k))) ∧
    (∃ (f : TileForm) (s s1 : State) (os : List (Nat × Node)), tileForm adding = some f ∧ SeqIssues s tk1 s1 ∧
      operandsOf f (s1.team tk1).seq (s1.team tk1).mf.tick = some os ∧ f.ok (os.map (·.2)) = true ∧
      (s1.team tk1).mf.tick.identical (createdBy f (s1.team tk1).seq os) = none ∧
      (s1.gridOf tk1).launch.graph ≤ (s1.team tk1).mf.tick.counted.length ∧
      ∃ g ∈ (s1.team tk1).mf.tick.forces, g.suspended = false) ∧
    (∃ (f : TileForm) (s s1 : State) (os : List (Nat × Node)), tileForm adding = some f ∧ SeqIssues s tk1 s1 ∧
      operandsOf f (s1.team tk1).seq (s1.team tk1).mf.tick = some os ∧ f.ok (os.map (·.2)) = true ∧
      (s1.team tk1).mf.tick.identical (createdBy f (s1.team tk1).seq os) = none ∧
      (s1.gridOf tk1).launch.graph ≤ (s1.team tk1).mf.tick.counted.length ∧ (s1.team tk1).mf.tick.forces = [] ∧
      (s1.team tk1).mf.tick.rootsOf = [2]) ∧
    ∃ (f : TileForm) (s s1 : State) (os : List (Nat × Node)), tileForm adding = some f ∧ SeqIssues s tk1 s1 ∧ SeqHandled s1 tk1 ∧
      operandsOf f (s1.team tk1).seq (s1.team tk1).mf.tick = some os ∧ f.ok (os.map (·.2)) = true ∧
      (s1.team tk1).mf.tick.identical (createdBy f (s1.team tk1).seq os) = none ∧
      (s1.gridOf tk1).launch.graph ≤ (s1.team tk1).mf.tick.counted.length ∧ (s1.team tk1).mf.tick.forces = [] ∧
      (s1.team tk1).mf.tick.rootsOf = [] := by
  let os := [(0, node 22 [] .materialized [1, 2, 3, 4]), (1, node 22 [] .materialized [5, 6, 7, 8])]
  let built : Manifest := { two with create := 3, nodes := two.nodes ++ [(2, node 22 [] .built [])], tregs := two.tregs ++ [(5, 3)] }
  exact ⟨⟨_, tileState {} 4, _, rfl, seqIssues_of rfl (by decide +kernel), ⟨by decide +kernel, by decide +kernel⟩, by decide +kernel⟩,
    ⟨_, tileState chain 64, _, [(16, node 10 [15] .built [])], 16, rfl, seqIssues_of rfl (by decide +kernel), by decide +kernel⟩,
    ⟨_, tileState { built with forces := [force false] } 1, _, os, rfl, seqIssues_of rfl (by decide +kernel), by decide +kernel⟩,
    ⟨_, tileState built 1, _, os, rfl, seqIssues_of rfl (by decide +kernel), by decide +kernel⟩,
    ⟨_, tileState two 0, _, os, rfl, seqIssues_of rfl (by decide +kernel), ⟨by decide +kernel, by decide +kernel⟩, by decide +kernel⟩⟩

/-- NamesKeepNodesAlive: distinct nodes with few references. -/
theorem witness_names : (two.nodes.map (·.1)).Nodup ∧ ∀ e ∈ two.nodes, e.2.refs.length ≤ 8 := by decide +kernel

/-- The region that TLD.i32 reads at s(a). -/
def regionAt (s1 : State) (a : Nat) : Except (Nat × Nat) (List (Nat × List (Loc × Nat))) :=
  s1.region tk1 ((s1.team tk1).seq.reg a).toNat
    (strideOf (((s1.team tk1).seq.reg 5).toNat / 2 ^ 32 % 65536) (rowBytes 0x0A (((s1.team tk1).seq.reg 5).toNat / 512 % 512) false))
    (rowBytes 0x0A (((s1.team tk1).seq.reg 5).toNat / 512 % 512) false) (((s1.team tk1).seq.reg 5).toNat % 512)

/-- The part of a region that answers, and the error. -/
def regionOk (x : Except (Nat × Nat) (List (Nat × List (Loc × Nat)))) : List (Nat × List (Loc × Nat)) :=
  match x with
  | .ok rs => rs
  | .error _ => []
def regionErr (x : Except (Nat × Nat) (List (Nat × List (Loc × Nat)))) : Nat × Nat :=
  match x with
  | .ok _ => (0, 0)
  | .error e => e

theorem regionOk_of {x : Except (Nat × Nat) (List (Nat × List (Loc × Nat)))} (h : regionErr x = (0, 0)) (g : regionOk x ≠ []) :
    x = .ok (regionOk x) := by
  cases x with
  | ok rs => rfl
  | error e => exact absurd rfl g

theorem regionErr_of {x : Except (Nat × Nat) (List (Nat × List (Loc × Nat)))} (h : (regionErr x).1 ≠ 0) : x = .error (regionErr x) := by
  cases x with
  | ok rs => exact absurd rfl h
  | error e => rfl

/-- The node that TLD.i32 t0, s6, s5 creates. -/
def loaded (s1 : State) : NewNode :=
  { op := 16, scal := [(s1.team tk1).seq.reg 6, (s1.team tk1).seq.reg 5], fmt := 0x0A, rows := 2, cols := 2, vfmt := 0x0A }

/-- In a grid of two teams under DET, team 1's first line tagged as written by team 1; s6 names it. -/
def tagged : State :=
  let s := twoTeams id
  let s := s.setSeq tk1 { (s.team tk1).seq with s := [(5, 0x402), (6, window0 + 0x100000)] }
  { s.setGrid 1 { s.grid 1 with
      rcd := { (s.grid 1).rcd with det := true }
      tags := [(tagKey (.spad (teamKey 1 1) 0 0), (2, 2))] } with turn := .seq tk1 }

/-- LeavesCaptureTheirRegion: a malformed shape, a region that is not aligned, a new leaf, a shared one, and a tagged line. -/
theorem witness_leaves :
    (∃ s s1 : State, SeqIssues s tk1 s1 ∧ SeqHandled s1 tk1 ∧ shapeOk 0x0A false ((s1.team tk1).seq.reg 9).toNat = false) ∧
    (∃ (s s1 : State) (e : Nat × Nat), SeqIssues s tk1 s1 ∧ SeqHandled s1 tk1 ∧ shapeOk 0x0A false ((s1.team tk1).seq.reg 5).toNat = true ∧
      regionAt s1 8 = .error e) ∧
    (∃ (s s1 : State) (rs : List (Nat × List (Loc × Nat))), SeqIssues s tk1 s1 ∧ shapeOk 0x0A false ((s1.team tk1).seq.reg 5).toNat = true ∧
      regionAt s1 6 = .ok rs ∧ (s1.team tk1).mf.tick.identical (loaded s1) = none ∧ roomFor s1 tk1 (s1.team tk1).mf.tick [] ∧
      (∀ y ∈ (s1.team tk1).seq.sbuf, ∀ r ∈ regionRuns rs, overlaps y.loc 1 r.1 r.2 = false) ∧ s1.mustWait 1 false (regionRuns rs) = false ∧
      (∀ p ∈ linePieces (regionRuns rs), s1.standsBehind 1 false p.1 = false) ∧ s1.regionDet tk1 false rs = none) ∧
    (∃ (s s1 : State) (rs : List (Nat × List (Loc × Nat))) (k : Nat), SeqIssues s tk1 s1 ∧
      shapeOk 0x0A false ((s1.team tk1).seq.reg 5).toNat = true ∧ regionAt s1 6 = .ok rs ∧
      (s1.team tk1).mf.tick.identical (loaded s1) = some k) ∧
    ∃ (s s1 : State) (rs : List (Nat × List (Loc × Nat))) (e : Nat × Nat), SeqIssues s tk1 s1 ∧ SeqHandled s1 tk1 ∧
      regionAt s1 6 = .ok rs ∧ (s1.team tk1).mf.tick.identical (loaded s1) = none ∧ roomFor s1 tk1 (s1.team tk1).mf.tick [] ∧
      (∀ y ∈ (s1.team tk1).seq.sbuf, ∀ r ∈ regionRuns rs, overlaps y.loc 1 r.1 r.2 = false) ∧ s1.mustWait 1 false (regionRuns rs) = false ∧
      (∀ p ∈ linePieces (regionRuns rs), s1.standsBehind 1 false p.1 = false) ∧ s1.regionDet tk1 false rs = some e := by
  let S := tileState {} 4
  let L := tileState { tregs := [(0, 1)], create := 1, nodes := [(0, { node 16 [] .captured [0, 0, 0, 0] with
    scal := [window0, 0x402], region := [(.spad tk1 0 0, 16)] })] } 4
  exact ⟨⟨S, seqFrom S, seqIssues_of rfl (by decide +kernel), ⟨by decide +kernel, by decide +kernel⟩, by decide +kernel⟩,
    ⟨S, seqFrom S, _, seqIssues_of rfl (by decide +kernel), ⟨by decide +kernel, by decide +kernel⟩, by decide +kernel, regionErr_of (by decide +kernel)⟩,
    ⟨S, seqFrom S, _, seqIssues_of rfl (by decide +kernel), by decide +kernel, regionOk_of (by decide +kernel) (by decide +kernel), by decide +kernel,
      ⟨by decide +kernel, by decide +kernel⟩, by decide +kernel⟩,
    ⟨L, seqFrom L, _, 0, seqIssues_of rfl (by decide +kernel), by decide +kernel, regionOk_of (by decide +kernel) (by decide +kernel), by decide +kernel⟩,
    ⟨tagged, seqFrom tagged, _, (1, windowBase + 0x100000), seqIssues_of rfl (by decide +kernel), ⟨by decide +kernel, by decide +kernel⟩,
      regionOk_of (by decide +kernel) (by decide +kernel), by decide +kernel, ⟨by decide +kernel, by decide +kernel⟩, by decide +kernel, by decide +kernel⟩⟩

/-- TileStoresAreIssued, ForceDropAndStatus: TST.i32 t0, s6, s7 of a materialized node and with sixteen forces waiting; a
register that names no node, a node to force, and a full queue of forces. -/
theorem witness_tile_stores :
    (∃ s s1 : State, SeqIssues s tk1 s1 ∧ SeqHandled s1 tk1 ∧ descOk 0x0A ((s1.team tk1).seq.reg 5) = false) ∧
    (∃ s s1 : State, SeqIssues s tk1 s1 ∧ SeqHandled s1 tk1 ∧ (s1.team tk1).mf.tick.operand 0 = none ∧
      2 ^ 64 - 2 ^ 24 ≤ ((s1.team tk1).seq.reg 6).toNat ∧ ((s1.team tk1).seq.reg 6).toNat % 8 = 0 ∧
      (s1.windowTeam tk1 ((((s1.team tk1).seq.reg 6).toNat - (2 ^ 64 - 2 ^ 24)) / 2 ^ 19)).isSome) ∧
    (∃ (s s1 : State) (k : Nat) (n : Node) (rs : List (Nat × List (Loc × Nat))), SeqIssues s tk1 s1 ∧
      descOk 0x0A ((s1.team tk1).seq.reg 7) = true ∧ (s1.team tk1).mf.tick.operand 0 = some (k, n) ∧
      s1.region tk1 ((s1.team tk1).seq.reg 6).toNat (strideOf 0 (rowBytes 0x0A n.cols false)) (rowBytes 0x0A n.cols false) n.rows = .ok rs ∧
      n.vkind ≠ 2 ∧ (0x13 ≤ n.vfmt ↔ 0x13 ≤ (0x0A : BitVec 5).toNat) ∧ (s1.team tk1).mf.tick.forces.length < 16 ∧ s1.regionDet tk1 true rs = none ∧
      (∀ y ∈ (s1.team tk1).seq.sbuf, ∀ r ∈ regionRuns rs, overlaps y.loc 1 r.1 r.2 = false) ∧
      ∀ p ∈ linePieces (regionRuns rs), s1.detBefore s1.parked.length 1 true p.1 = false) ∧
    (∃ (s s1 : State) (k : Nat) (n : Node), SeqIssues s tk1 s1 ∧ (s1.team tk1).mf.tick.operand 0 = some (k, n) ∧ n.st ≠ .materialized ∧
      (s1.team tk1).mf.tick.forces = []) ∧
    ∃ (s s1 : State) (k : Nat) (n : Node), SeqIssues s tk1 s1 ∧ (s1.team tk1).mf.tick.operand 0 = some (k, n) ∧ n.st ≠ .materialized ∧
      16 ≤ (s1.team tk1).mf.tick.forces.length := by
  let S := tileState two 4
  let B : Manifest := { tregs := [(0, 1)], create := 1, nodes := [(0, node 22 [] .built [])] }
  exact ⟨⟨S, seqFrom S, seqIssues_of rfl (by decide +kernel), ⟨by decide +kernel, by decide +kernel⟩, by decide +kernel⟩,
    ⟨tileState {} 4, _, seqIssues_of rfl (by decide +kernel), ⟨by decide +kernel, by decide +kernel⟩, by decide +kernel⟩,
    ⟨S, seqFrom S, 0, node 22 [] .materialized [1, 2, 3, 4], _, seqIssues_of rfl (by decide +kernel), by decide +kernel, by decide +kernel,
      regionOk_of (by decide +kernel) (by decide +kernel), by decide +kernel⟩,
    ⟨tileState B 4, _, 0, node 22 [] .built [], seqIssues_of rfl (by decide +kernel), by decide +kernel⟩,
    ⟨tileState { B with forces := List.replicate 16 (force true) } 4, _, 0, node 22 [] .built [], seqIssues_of rfl (by decide +kernel),
      by decide +kernel⟩⟩

/-- A running team whose oldest force is f, at its FORCE_EVALUATION. -/
def forcing (m : Manifest) : State := { tileState m 4 with turn := .event .forceEvaluation (.nat tk1) }

/-- t0 names the node n, forced by f; the team holds accumulator bank 0 or none. -/
def filling (n : Node) (f : Force) (bank : Bool) : State :=
  let s := forcing { tregs := [(0, 1)], create := 1, nodes := [(0, n)], forces := [f] }
  { s.setTeam tk1 { s.team tk1 with acc := if bank then [(0, 1)] else [] } with turn := .event .forceEvaluation (.nat tk1) }

/-- A TFILL node of two by two threes. -/
def threes : Node := { node 22 [] .built [] with scal := [3, 0x402] }

/-- A force of node 0 by a team that holds bank 0. -/
def rooted : Force := { force false with snap := ⟨[], [], [], [], 1⟩ }

/-- The force that is served, its work, and the place that is computed next. -/
def served (s : State) : Force := (s.team tk1).mf.forces.headD rooted
def workOf (s : State) : Work := (served s).work.getD ⟨⟨[], 0, 0⟩, [], [], 0, [], []⟩
def placeOf (s : State) : CopyNode := ((workOf s).copy.get ((workOf s).order.getD (workOf s).pos 0)).getD
  ⟨0, [], 0, 0, 0, 0, 0, 0, 0, [], 0, [], [], none⟩

/-- The force of node n after one turn, and a computed one after two. -/
def started (n : Node) (bank : Bool) : State := (filling n rooted bank).startForce tk1 0 rooted
def computed : State := (started threes true).workForce tk1 0 (served (started threes true)) (workOf (started threes true))

/-- A TST whose value is computed: its target is the window's first sixteen bytes. -/
def storing : Force :=
  { force false with kind := .tst 0x0A window0 0, target := [(.spad tk1 0 0, 16)], left := [(0, .spad tk1 0 0, 16)], num := 5, fin := true }

/-- What every clause of ForcesEvaluate asks of the state. -/
def servesForce (s : State) (f : Force) : Prop :=
  s.turn = .event .forceEvaluation (.nat tk1) ∧ (s.team tk1).st = .running ∧ (s.gridOf tk1).interval.st ≠ .rolling ∧
    nextForce (s.team tk1).mf.forces = some (0, f)

/-- The place that a force under way computes next. -/
def computesNext (s : State) (n : CopyNode) : Prop :=
  (served s).fin = false ∧ (served s).work = some (workOf s) ∧
    (workOf s).vals.any (fun x => decide (x.1 = (workOf s).order.getD (workOf s).pos 0)) = false ∧
    (workOf s).order[(workOf s).pos]? = some ((workOf s).order.getD (workOf s).pos 0) ∧
    (workOf s).copy.get ((workOf s).order.getD (workOf s).pos 0) = some n ∧
    (workOf s).order.getD (workOf s).pos 0 ∈ (workOf s).needed (s.mf tk1) (served s) ∧ (s.mf tk1).ready n = none

/-- ForcesEvaluate: a force not started, a place with space, one without, a lost one, a copy computed to its end, and a
computed TST. -/
theorem witness_forces :
    (servesForce (filling threes rooted true) rooted ∧ rooted.fin = false ∧ rooted.work = none) ∧
    (let s := started threes true
     servesForce s (served s) ∧ computesNext s (placeOf s) ∧ (placeOf s).op < opMat ∧ (placeOf s).op ≠ opLeaf ∧
      s.spaceFor tk1 (served s) (placeOf s) = some 0 ∧ (placeOf s).opnds = []) ∧
    (let s := started threes false
     servesForce s (served s) ∧ computesNext s (placeOf s) ∧ (placeOf s).op < opMat ∧ (placeOf s).op ≠ opLeaf ∧
      s.spaceFor tk1 (served s) (placeOf s) = none ∧ (s.team tk1).seq.exited = false ∧ SeqHandled s tk1) ∧
    (let s := started { threes with st := .faulted, fcode := 3 } true
     servesForce s (served s) ∧ computesNext s (placeOf s) ∧ (placeOf s).op = opLost) ∧
    (servesForce computed (served computed) ∧ (served computed).fin = false ∧ (served computed).work = some (workOf computed) ∧
      (workOf computed).order.length ≤ (workOf computed).pos) ∧
    (let n : Node := { threes with st := .materialized, val := [3, 3, 3, 3], ngran := 1 }
     let s := filling n storing true
     let t := s.setCore 0 { s.coreAt 0 with ce := [{ claims := [spad0 / 64] }] }
     servesForce s storing ∧ storing.fin = true ∧ storing.kind = .tst 0x0A window0 0 ∧ (s.mf tk1).meets storing = false ∧
      (s.mf tk1).node? storing.root = some n ∧ n.holds = true ∧ s.tstNext tk1 storing = some (0, .spad tk1 0 0, 16) ∧
      PlainPlace s (.spad tk1 0 0) 16 spad0 ∧ tstPacked 0x0A 0 = true ∧ servesForce t storing ∧ t.tstNext tk1 storing = none) := by
  refine ⟨?_, ?_, ?_, ?_, ?_, ?_⟩ <;> (try unfold servesForce) <;> (try unfold computesNext) <;> (try unfold SeqHandled) <;>
    (try unfold PlainPlace) <;> decide +kernel

/-! ## Witnesses: events -/

/-- The turn of an event over a state. -/
def event (s : State) (i : Instr) (a : EvArg) : State := { s with turn := .event i a }

/-- Queue 3 of the base state. -/
def queue3 (x : HostQueue) : State := base.setQueue 3 x

/-- RegisterEvents: each event on queue 3, disabled, idle and in error; and a register of each kind. -/
theorem witness_register_events :
    (∃ s : State, s.turn = .event .qtailWrite (.nat2 3 20) ∧ (3 : Nat) < 256) ∧
    (∃ s : State, s.turn = .event .queueEnable (.nat 3) ∧ (s.queue 3).st = .disabled) ∧
    (∃ s : State, s.turn = .event .queueEnable (.nat 3) ∧ (s.queue 3).st ≠ .disabled) ∧
    (∃ s : State, s.turn = .event .queueDisable (.nat 3)) ∧
    (∃ s : State, s.turn = .event .errClear (.nat 3) ∧ (s.queue 3).st = .disabled) ∧
    (∃ s : State, s.turn = .event .errClear (.nat 3) ∧ (s.queue 3).st = .error ∧ (s.queue 3).held = []) ∧
    (∃ (s : State) (w : Word), s.turn = .event .registerWrite (.natWord 0x100D0 w)) ∧
    (∃ (s : State) (w : Word), s.turn = .event .registerWrite (.natWord 0x100C0 w)) ∧
    (∃ (s : State) (w : Word), s.turn = .event .registerWrite (.natWord 0x100C8 w) ∧ w.getLsbD 1 = false ∧
      ((s.queue 3).st = .disabled ↔ (s.queue 3).en = false)) ∧
    (∃ (s : State) (w : Word), s.turn = .event .registerWrite (.natWord 0x400 w)) ∧
    (∃ (s : State) (w : Word), s.turn = .event .registerWrite (.word w) ∧ w.getLsbD 14 = true) ∧
    (∃ (s : State) (w : Word), s.turn = .event .registerWrite (.word w) ∧ w.getLsbD 14 = false) ∧
    (∃ (s : State) (w : Word), s.turn = .event .registerWrite (.natWord 0x83F8 w) ∧ w.getLsbD 32 = true ∧ 0x83F8 = 0x8008 + 16 * 63) ∧
    (∃ (s : State) (w : Word), s.turn = .event .registerWrite (.natWord 0x83F8 w) ∧ w.getLsbD 32 = false) ∧
    ∃ (s : State) (w : Word), s.turn = .event .registerWrite (.natWord 0x8400 w) ∧
      (∀ q, q < 256 → 0x8400 ≠ 0x10000 + 64 * q ∧ 0x8400 ≠ 0x10008 + 64 * q ∧ 0x8400 ≠ 0x10010 + 64 * q) :=
  ⟨⟨event base .qtailWrite (.nat2 3 20), rfl, by decide⟩,
   ⟨event base .queueEnable (.nat 3), rfl, by decide +kernel⟩,
   ⟨event (queue3 { st := .idle, qctl := 0x40001 }) .queueEnable (.nat 3), rfl, by decide +kernel⟩,
   ⟨event (queue3 { st := .active, qctl := 0x40001 }) .queueDisable (.nat 3), rfl⟩,
   ⟨event base .errClear (.nat 3), rfl, by decide +kernel⟩,
   ⟨event (queue3 { st := .error, qctl := 0x40003 }) .errClear (.nat 3), rfl, by decide +kernel, by decide +kernel⟩,
   ⟨event base .registerWrite (.natWord 0x100D0 5), 5, rfl⟩,
   ⟨event base .registerWrite (.natWord 0x100C0 0x8000000000000040), 0x8000000000000040, rfl⟩,
   ⟨event base .registerWrite (.natWord 0x100C8 0x100F0001), 0x100F0001, rfl, by decide, by decide +kernel⟩,
   ⟨event base .registerWrite (.natWord 0x400 7), 7, rfl⟩,
   ⟨event base .registerWrite (.word 0x4000), 0x4000, rfl, by decide⟩,
   ⟨event base .registerWrite (.word 0), 0, rfl, by decide⟩,
   ⟨event base .registerWrite (.natWord 0x83F8 0x100000005), 0x100000005, rfl, by decide, by decide⟩,
   ⟨event base .registerWrite (.natWord 0x83F8 5), 5, rfl, by decide⟩,
   ⟨event base .registerWrite (.natWord 0x8400 7), 7, rfl, by decide +kernel⟩⟩

/-- DeviceAndPortEvents: the last vector, both forms of TLBINV, a lease at its bounds, stores of the host, a chip outside
the view, and a frame with no record. -/
theorem witness_device_events :
    (∃ s : State, s.turn = .event .vectorUnmask (.nat 63)) ∧
    (∃ (s : State) (w : Word), s.turn = .event .tlbinv (.word w)) ∧
    (∃ s : State, s.turn = .event .mbdoor (.firmware [.lease 16]) ∧ s.fw.handing = some 1) ∧
    (∃ s : State, s.turn = .event .mbdoor (.firmware [.lease 16]) ∧ s.fw.handing ≠ some 1 ∧ floorSum s.dsp.policy ≤ 5120 ∧ 16 ≤ s.dsp.lease ∧ s.dsp.lease ≤ 4096) ∧
    (∃ (s : State) (pa : Nat) (bs : List Byte), s.turn = .event .hostAccess (.natBytes pa bs) ∧ isHostPa pa = true ∧ bs ≠ [] ∧
      pa % 4096 + bs.length ≤ 4096 ∧ s.mustWait 0 true [(.pa pa, bs.length)] = false ∧ s.lent (pa % 2 ^ 51) = false ∧
      ∀ p ∈ linePieces [(Loc.pa pa, bs.length)], s.standsBehind 0 true p.1 = false) ∧
    (∃ (s : State) (pa k : Nat) (bs : List Byte), s.turn = .event .hostAccess (.natBytes pa bs) ∧ isFramePa pa = true ∧
      PlainPlace s (.pa pa) bs.length k ∧ s.mustWait 0 true [(.pa pa, bs.length)] = false ∧
      ∀ p ∈ linePieces [(Loc.pa pa, bs.length)], s.standsBehind 0 true p.1 = false) ∧
    (∃ (s : State) (e : BridgeError), s.turn = .event .hostBridgeError (.bridge e)) ∧
    (∃ (s : State) (f : Nat) (w : Word), f < 2 ^ 30 ∧ s.turn = .event .indirectionEntryWrite (.natWord f w) ∧
      ∀ x ∈ s.fab.fwd, x.reply.isSome = true ∨ x.chip ∈ s.fab.members) ∧
    ∃ (s : State) (port : Nat) (f : EthFrame), port < 2 ∧ s.turn = .event .ethernetFrame (.frame port f) := by
  refine ⟨⟨event base .vectorUnmask (.nat 63), rfl⟩, ⟨event base .tlbinv (.word 0x201), 0x201, rfl⟩,
    ⟨{ base with fw := { base.fw with handing := some 1 }, turn := .event .mbdoor (.firmware [.lease 16]) }, rfl, rfl⟩,
    ⟨event base .mbdoor (.firmware [.lease 16]), rfl, by decide +kernel⟩,
    ⟨event base .hostAccess (.natBytes (2 ^ 51 + 4088) (leBytes 8 1)), 2 ^ 51 + 4088, leBytes 8 1, rfl, by decide +kernel⟩,
    ⟨event base .hostAccess (.natBytes 0x6800 (leBytes 8 1)), 0x6800, hbmKey 0x6800, leBytes 8 1, rfl, by decide +kernel, ?_, by decide +kernel⟩,
    ⟨event base .hostBridgeError (.bridge .timeout), .timeout, rfl⟩,
    ⟨event base .indirectionEntryWrite (.natWord (2 ^ 30 - 1) 0), 2 ^ 30 - 1, 0, by decide, rfl, by decide +kernel⟩,
    ⟨event base .ethernetFrame (.frame 1 ⟨0, 0, true, []⟩), 1, ⟨0, 0, true, []⟩, by decide, rfl⟩⟩
  unfold PlainPlace
  decide +kernel

/-! ## Witnesses: packets -/

/-- The words of a packet at the head of privileged host queue 3, which also takes context commands; the queue is active or
blocked. -/
def packets (ws : List Nat) (blocked : Bool) (s : State) : State :=
  let s := s.setQueue 3 { st := if blocked then .blocked else .active, qctl := 0x4000D, qbase := 0x8000000000006800, tail := 2 }
  let s := s.putBytes (hbmKey 0x6800) (ws.flatMap (leBytes 8))
  { s with turn := .event (if blocked then .dependenceReread else packetEventOf (ws.headD 0 % 256)) (.nat 3) }

/-- A record of class 2 that came through port 1. -/
def arrived (ws : List Nat) (blocked : Bool) (s : State) : State :=
  let s := s.setPort 2 { recs := [(1, ws.flatMap (leBytes 8))], blocked := blocked, asid := 1 }
  { s with turn := .event (if blocked then .dependenceReread else packetEventOf (ws.headD 0 % 256)) (.nat (portNumber 1 2)) }

/-- The rights and the packet at the head of queue q, and the state in which it has been read. -/
def headOf (s : State) (q : Nat) : QueueRights × Packet := (s.headPacket q).1.getD (⟨0, false, false, 0⟩, [])

theorem headTaken_of {s : State} {i : Instr} {q : Nat} {b : Bool} (h1 : s.turn = .event i (.nat q)) (h2 : s.queueActive q b = true)
    (h3 : (s.headPacket q).1.isSome = true) : HeadTaken s i q b (headOf s q).1 (headOf s q).2 (s.headPacket q).2 := by
  refine ⟨h1, h2, pair_of ?_⟩
  unfold headOf
  cases e : (s.headPacket q).1 with
  | none => rw [e] at h3; cases h3
  | some x => rfl

theorem accepted_of {s : State} {i : Instr} {q : Nat} {b : Bool} {r : QueueRights} {p : Packet} {s1 : State}
    (h : HeadTaken s i q b r p s1) (hw : (!virtualKind p.kind || !s1.noContext p.asid) && !p.malformed r = true)
    (hd : (s1.dependence p).1 = .met) : Accepted s i q b r p (s1.dependence p).2 := by
  refine ⟨s1, h, ⟨fun hv => ?_, ?_⟩, pair_of hd⟩
  · simp [hv] at hw
    exact hw.1
  · simp at hw
    exact hw.2

/-- A context command with its completion word at physical address 0x6F00. -/
def command (kind asid w1 : Nat) : List Nat := [kind + asid * 65536, w1, 0, 0, 0, 0x6F00, 0, 5 * 2 ^ 32]

/-- A capture packet of a context, its completion word in the context's page 0. -/
def capture (kind asid dep depseq : Nat) : List Nat := [kind + asid * 65536, 0, 0, 0, 0, 0xF00, dep, 5 * 2 ^ 32 + depseq]

/-- Code object 1 of one entry, whose lane code is at physical address 0x6000. -/
def object1 : CodeObj :=
  { st := .resident, pa := 0x5000
    image := leBytes 4 0 ++ [2, 1, 0, 0] ++ leBytes 4 4096 ++ leBytes 4 64 ++ leBytes 8 0 ++ List.replicate 40 0 ++
      (leBytes 4 0 ++ leBytes 4 32 ++ leBytes 8 (32 + 8 * 2 ^ 8 + 32 * 2 ^ 32) ++ leBytes 16 0) }

/-- A LAUNCH of the entry at virtual address w1, of one team. -/
def launch1 (w1 : Nat) : List Nat := [1 + 65536, w1, 7, 0x100010001, 0x11, 0xF00, 0, 5 * 2 ^ 32]

/-- The base state with code object 1. -/
def withObject : State := { base with dsp := { base.dsp with objs := [(1, object1)] } }

/-- A frame is in the host's storage. -/
def stored (f : Nat) (s : State) : State := s.setFrame f (BitVec.ofNat 64 (2 ^ 63))

/-- Page 1 of context 1 maps to frame 7, which is in the host's storage. -/
def page1Stored : State := stored 7 (base.putBytes (hbmKey 0x5008) (leBytes 8 0x700F))

/-- PacketsStopAndComplete, first part: no context, malformed with and without a word, and the dependences (the word
at 0xE00 is 0; 4 is ahead of it; the word at address 1 GiB is unmapped, and the one at 0x1E00 is away), at a host queue
and at a port; a slot that is away; and the three ends of a packet that is read again. -/
theorem witness_packet_stops :
    let stops := fun (s : State) (i : Instr) (q : Nat) (b : Bool) (virt none bad : Bool) =>
      HeadTaken s i q b (headOf s q).1 (headOf s q).2 (s.headPacket q).2 ∧ virtualKind (headOf s q).2.kind = virt ∧
        (s.headPacket q).2.noContext (headOf s q).2.asid = none ∧ (headOf s q).2.malformed (headOf s q).1 = bad
    (∃ s, stops s .capstart 3 false true true false) ∧ (∃ s, stops s .capstart (portNumber 1 2) false true true true) ∧
    (∃ s, stops s .capstart 3 false true false true ∧ (headOf s 3).2.cwaddr = 0) ∧
    (∃ s, stops s .capstart 3 false true false true ∧ (headOf s 3).2.cwaddr ≠ 0 ∧
      addrOk ((headOf s 3).2.virtual (headOf s 3).1) (headOf s 3).2.cwaddr = true ∧ (headOf s 3).2.wrongAsid (headOf s 3).1 = false) ∧
    (∃ s, stops s .capstart 3 false true false false ∧ ((s.headPacket 3).2.dependence (headOf s 3).2).1 = .unmet) ∧
    (∃ s, stops s .capstart (portNumber 1 2) false true false false ∧
      ((s.headPacket (portNumber 1 2)).2.dependence (headOf s (portNumber 1 2)).2).1 = .unmet) ∧
    (∃ s, stops s .capstart 3 false true false false ∧ ((s.headPacket 3).2.dependence (headOf s 3).2).1 = .failed) ∧
    (∃ s, stops s .capstart 3 false true false false ∧ ((s.headPacket 3).2.dependence (headOf s 3).2).1 = .wait) ∧
    (let away := fun (x : Disp (List Byte)) => match x with
      | .wait _ => true
      | _ => false
     let s := stored 6 (packets (capture 7 1 0 0) false base)
     s.turn = .event .capstart (.nat 3) ∧ s.queueActive 3 false = true ∧ away (s.dispLoad none (s.queue 3).slot 64).1 = true) ∧
    let again := fun (s : State) (virt : Bool) (n : Nat) => stops s .dependenceReread 3 true virt false false ∧
      ((s.headPacket 3).2.dependence (headOf s 3).2).1 = .met ∧
      (match State.actPacket 3 (headOf s 3).1 (headOf s 3).2 ((s.headPacket 3).2.dependence (headOf s 3).2).2 with
        | .done _ => 0
        | .reject _ => 1
        | .wait _ => 2) = n
    (∃ s, again s true 0) ∧ (∃ s, again s true 1) ∧ ∃ s, again s false 2 := by
  refine ⟨⟨packets (capture 7 2 0 0) false base, headTaken_of rfl ?_ ?_, ?_, ?_, ?_⟩,
    ⟨arrived (capture 7 2 0 0) false base, headTaken_of rfl ?_ ?_, ?_, ?_, ?_⟩,
    ⟨packets [7 + 65536, 1, 0, 0, 0, 0, 0, 0] false base, ⟨headTaken_of rfl ?_ ?_, ?_, ?_, ?_⟩, ?_⟩,
    ⟨packets [7 + 65536, 1, 0, 0, 0, 0xF00, 0, 0] false base, ⟨headTaken_of rfl ?_ ?_, ?_, ?_, ?_⟩, ?_, ?_, ?_⟩,
    ⟨packets (capture 7 1 0xE00 4) false base, ⟨headTaken_of rfl ?_ ?_, ?_, ?_, ?_⟩, ?_⟩,
    ⟨arrived (capture 7 1 0xE00 4) false base, ⟨headTaken_of rfl ?_ ?_, ?_, ?_, ?_⟩, ?_⟩,
    ⟨packets (capture 7 1 (2 ^ 30) 0) false base, ⟨headTaken_of rfl ?_ ?_, ?_, ?_, ?_⟩, ?_⟩,
    ⟨packets (capture 7 1 0x1E00 0) false page1Stored, ⟨headTaken_of rfl ?_ ?_, ?_, ?_, ?_⟩, ?_⟩, ⟨rfl, ?_, ?_⟩,
    ⟨packets (capture 7 1 0xE00 0) true base, ⟨headTaken_of rfl ?_ ?_, ?_, ?_, ?_⟩, ?_, ?_⟩,
    ⟨packets (launch1 0) true base, ⟨headTaken_of rfl ?_ ?_, ?_, ?_, ?_⟩, ?_, ?_⟩,
    ⟨packets (command 3 1 0x7E00) true (stored 7 base), ⟨headTaken_of rfl ?_ ?_, ?_, ?_, ?_⟩, ?_, ?_⟩⟩ <;> decide +kernel

/-- PacketsStopAndComplete, second part: a word that is stored, one that its page does not let be stored (host queue and port),
and one behind a trace record and behind another word that waits. -/
theorem witness_completion :
    (∃ (s : State) (c : CompWord) (k : Nat), c.addr ≠ 0 ∧ (∀ x ∈ s.dsp.late, x.kind = .trace) ∧ s.dsp.late ≠ [] ∧ c.asid = none ∧
      PlainPlace s (.pa c.addr) 8 k ∧ s.inCode c.addr = false ∧ s.inFlight c.addr = false ∧ s.mustWait 0 true [(.pa c.addr, 8)] = false) ∧
    (∃ (s : State) (c : CompWord), c.addr ≠ 0 ∧ s.dsp.late = [] ∧ c.queue < 256 ∧ ∃ u, s.storeWord c (c.word 9) = (.fail, u)) ∧
    (∃ (s : State) (c : CompWord), c.addr ≠ 0 ∧ s.dsp.late = [] ∧ 256 ≤ c.queue ∧ ∃ u, s.storeWord c (c.word 9) = (.fail, u)) ∧
    (∃ (s : State) (c : CompWord) (p : PageWait), c.addr ≠ 0 ∧ s.dsp.late = [] ∧ ∃ u, s.storeWord c (c.word 9) = (.wait p, u)) ∧
    (∃ (s : State) (c : CompWord), c.addr ≠ 0 ∧ ¬ ∀ x ∈ s.dsp.late, x.kind = .trace) ∧
    (∃ (s : State) (x : LateWrite) (p : PageWait), s.dsp.late = [x] ∧
      ∃ u, s.dispStore x.asid x.va x.bytes x.full = (.wait p, u)) ∧
    ∃ (s : State) (x : LateWrite), s.dsp.late = [x] ∧ ∃ u, s.dispStore x.asid x.va x.bytes x.full = (.ok (), u) := by
  let away : State := stored 7 base
  let x : LateWrite := ⟨none, 0x7F00, leBytes 8 1, false, .word ⟨{ addr := 0x7F00 }, 1, 0⟩ false⟩
  let behind (s : State) : State := { s with dsp := { s.dsp with late := [x] } }
  let traced : State := { base with dsp := { base.dsp with late := [⟨some 1, 0x1000, leBytes 8 1, false, .trace⟩] } }
  refine ⟨⟨traced, ⟨none, 0x6F00, 5, true, 3⟩, hbmKey 0x6F00, by decide, by decide +kernel, by decide +kernel, rfl, ?_, by decide +kernel⟩,
    ⟨base, ⟨some 1, 0xF00, 5, true, 3⟩, by decide, by decide +kernel, by decide, (base.storeWord ⟨some 1, 0xF00, 5, true, 3⟩ 0x500000009).2, pair_of (by decide +kernel)⟩,
    ⟨base, ⟨some 1, 0xF00, 5, true, 300⟩, by decide, by decide +kernel, by decide, (base.storeWord ⟨some 1, 0xF00, 5, true, 300⟩ 0x500000009).2, pair_of (by decide +kernel)⟩,
    ⟨away, ⟨none, 0x7F00, 5, true, 3⟩, { b := .readBack 7 }, by decide, by decide +kernel, (away.storeWord ⟨none, 0x7F00, 5, true, 3⟩ 0x500000009).2,
      pair_of (by decide +kernel)⟩,
    ⟨behind away, { addr := 0x6F00 }, by decide, by decide +kernel⟩,
    ⟨behind away, x, { b := .readBack 7 }, rfl, ((behind away).dispStore x.asid x.va x.bytes x.full).2, pair_of (by decide +kernel)⟩,
    ⟨behind (base.setFrame 7 (base.frame 6)), x, rfl, ((behind (base.setFrame 7 (base.frame 6))).dispStore x.asid x.va x.bytes x.full).2,
      pair_of (by decide +kernel)⟩⟩
  unfold PlainPlace
  decide +kernel

/-- The base state with context 1 as f makes it. -/
def inContext (f : Context → Context) : State := base.setCtx 1 (f (base.ctx 1))

/-- A record of context 1 that keeps its page table. -/
def record1 : RawRecord := [0x2000001, 0x1000, 0, 0, 0, 0, 0, 0, 0, 0, 0]

/-- The record x at physical address 0x6E00. -/
def recorded (x : RawRecord) (s : State) : State := s.putBytes (hbmKey 0x6E00) (x.flatMap (leBytes 8))

/-- Queue 3's packet of these words is accepted in s, and P holds of the state then, its rights and itself. -/
def Acts (ws : List Nat) (s : State) (P : State → QueueRights → Packet → Bool) : Prop :=
  let t := packets ws false s
  let h := headOf t 3
  let u := (t.headPacket 3).2
  Accepted t (packetEventOf h.2.kind) 3 false h.1 h.2 (u.dependence h.2).2 ∧ P (u.dependence h.2).2 h.1 h.2 = true

/-- The two facts that Acts rests on, as one that can be decided. -/
def actsOk (ws : List Nat) (s : State) (P : State → QueueRights → Packet → Bool) : Bool :=
  let t := packets ws false s
  let h := headOf t 3
  let u := (t.headPacket 3).2
  decide (t.turn = .event (packetEventOf h.2.kind) (.nat 3)) && t.queueActive 3 false && (t.headPacket 3).1.isSome &&
    ((!virtualKind h.2.kind || !u.noContext h.2.asid) && !h.2.malformed h.1) && decide ((u.dependence h.2).1 = .met) &&
    P (u.dependence h.2).2 h.1 h.2

theorem acts_of {ws : List Nat} {s : State} {P : State → QueueRights → Packet → Bool} (h : actsOk ws s P = true) : Acts ws s P := by
  unfold actsOk at h
  simp only [Bool.and_assoc, Bool.and_eq_true, decide_eq_true_eq] at h
  obtain ⟨h1, h2, h3, h4, h5, h6, h7⟩ := h
  exact ⟨accepted_of (headTaken_of h1 h2 h3) (by simp [h4, h5]) h6, h7⟩

/-- The walk of LAUNCH's address waits for nothing. -/
def walks (s : State) (p : Packet) : Bool :=
  match (s.walk p.asid (p.w 1)).1 with
  | .wait _ => false
  | _ => true

/-- The context command of this kind that names the record at 0x6E00 would answer this status, with `ready` of its context. -/
def answers (kind code : Nat) (ready : Context → Bool) : State → QueueRights → Packet → Bool := fun s r p =>
  decide (p.kind = kind) && (decide (kind = 2) || !s.noContext p.asid) && ready (s.ctx p.asid) &&
    (match s.readRecord (p.w 1) with
      | (none, _) => false
      | (some x, t) => decide ((if kind = 2 then t.createStatus x r.priv else (t.ctx p.asid).updateStatus p.asid x) = code))

/-- PacketsActOnContexts: LAUNCH of an object and of none, with a word and without. -/
theorem witness_launch_packets :
    Acts (launch1 0) withObject (fun s _ p => decide (p.kind = 1) && walks s p && (s.packetLaunch p).isSome) ∧
    Acts (launch1 64) withObject (fun s _ p => decide (p.kind = 1) && walks s p && (s.packetLaunch p).isNone && decide (p.cwaddr ≠ 0)) ∧
    Acts ((launch1 64).set 5 0) withObject
      (fun s _ p => decide (p.kind = 1) && walks s p && (s.packetLaunch p).isNone && decide (p.cwaddr = 0)) :=
  ⟨acts_of (by decide +kernel), acts_of (by decide +kernel), acts_of (by decide +kernel)⟩

/-- PacketsActOnContexts: CREATE with each status of R101. Record 9 names a free context, and so does queue 3's packet; a
packet that is not privileged meets the last. -/
theorem witness_create_packets :
    let free := record1.set 0 0x2000009
    let creates := fun (x : RawRecord) (code : Nat) => Acts (command 2 9 0x6E00) (recorded x base) (answers 2 code (fun _ => true))
    creates free 0 ∧ creates (free.set 0 9) 1 ∧ creates record1 2 ∧ creates (free.set 2 0x630000) 3 ∧ creates (free.set 3 1) 4 ∧
      creates (free.set 7 1025) 5 :=
  ⟨acts_of (by decide +kernel), acts_of (by decide +kernel), acts_of (by decide +kernel), acts_of (by decide +kernel),
   acts_of (by decide +kernel), acts_of (by decide +kernel)⟩

/-- PacketsActOnContexts: UPDATE with each status of R102, in a running and in a loading context, and of no context. -/
theorem witness_update_packets :
    let updates := fun (x : RawRecord) (code : Nat) => Acts (command 3 1 0x6E00) (recorded x base) (answers 3 code (fun c => decide (c.st ≠ .loading)))
    updates record1 0 ∧ updates (record1.set 0 0x2001001) 2 ∧ updates (record1.set 0 1) 1 ∧ updates (record1.set 2 0x630000) 3 ∧
      updates (record1.set 3 1) 4 ∧ updates (record1.set 7 1025) 5 ∧
      Acts (command 3 1 0x6E00) (recorded record1 (inContext (fun c => { c with st := .loading }))) (answers 3 0 (fun c => decide (c.st = .loading))) ∧
      Acts (command 3 2 0x6E00) base (fun s _ p => decide (p.kind = 3) && s.noContext p.asid) ∧
      Acts (command 3 1 0x7E00) (stored 7 base) (fun s _ p => decide (p.kind = 3) && !s.noContext p.asid && (s.readRecord (p.w 1)).1.isNone) :=
  ⟨acts_of (by decide +kernel), acts_of (by decide +kernel), acts_of (by decide +kernel), acts_of (by decide +kernel),
   acts_of (by decide +kernel), acts_of (by decide +kernel), acts_of (by decide +kernel), acts_of (by decide +kernel),
   acts_of (by decide +kernel)⟩

/-- PacketsActOnContexts: MOVE of a running context before and after its teams have started, and of a loading one. -/
theorem witness_move_packets :
    Acts (command 4 1 0xFFF) (base.setTeam tk1 {})
      (fun s _ p => decide (p.kind = 4) && decide ((s.ctx p.asid).st = .running) && !s.hasStarted p.asid) ∧
    Acts (command 4 1 0xFFF) base (fun s _ p => decide (p.kind = 4) && decide ((s.ctx p.asid).st = .running) && s.hasStarted p.asid) ∧
    Acts (command 4 1 1) (inContext (fun c => { c with st := .loading }))
      (fun s _ p => decide (p.kind = 4) && decide ((s.ctx p.asid).st = .loading)) :=
  ⟨acts_of (by decide +kernel), acts_of (by decide +kernel), acts_of (by decide +kernel)⟩

/-- PacketsActOnContexts: RESUME of a context that is not faulted and of one that is; DESTROY of none and of one. -/
theorem witness_resume_packets :
    Acts (command 5 1 0) base (fun s _ p => decide (p.kind = 5) && decide ((s.ctx p.asid).st ≠ .faulted)) ∧
    Acts (command 5 1 0) (inContext (fun c => { c with st := .faulted })) (fun s _ p => decide (p.kind = 5) && decide ((s.ctx p.asid).st = .faulted)) ∧
    Acts (command 6 2 0) base (fun s _ p => decide (p.kind = 6) && s.noContext p.asid) ∧
    Acts (command 6 1 0) base (fun s _ p => decide (p.kind = 6) && !s.noContext p.asid) :=
  ⟨acts_of (by decide +kernel), acts_of (by decide +kernel), acts_of (by decide +kernel), acts_of (by decide +kernel)⟩

/-- PacketsActOnContexts: CAPSTART with no capture and with one; CAPSTOP of a capture of this queue, and of none. -/
theorem witness_capture_packets :
    let opened := inContext (fun c => { c with cap := .opened, capQueue := 3 })
    Acts (capture 7 1 0 0) base (fun s _ p => decide (p.kind = 7) && decide ((s.ctx p.asid).cap = .off)) ∧
    Acts (capture 7 1 0 0) opened (fun s _ p => decide (p.kind = 7) && decide ((s.ctx p.asid).cap ≠ .off)) ∧
    Acts (capture 8 1 0 0) base (fun s _ p => decide (p.kind = 8) && decide ((s.ctx p.asid).cap = .off)) ∧
    Acts (capture 8 1 0 0) opened (fun s _ p => decide (p.kind = 8) && decide ((s.ctx p.asid).cap ≠ .off) && decide ((s.ctx p.asid).capQueue = 3) &&
      (s.ctx p.asid).capStop.isNone) :=
  ⟨acts_of (by decide +kernel), acts_of (by decide +kernel), acts_of (by decide +kernel), acts_of (by decide +kernel)⟩

/-- Context 1 of state s closes its capture, with a trace ring of so many pages in page 1. -/
def closing (s : State) (pages : Nat) : State :=
  let c := s.ctx 1
  event (s.setCtx 1 { c with capStop := some { addr := 0x6F00, seq := 5, queue := 3 }, rcd := { c.rcd with trbase := 0x1000, trpages := pages } })
    .capstopComplete (.nat 1)

/-- Context 1 is wiped. -/
def wiped : State := event (inContext (fun c => { c with st := .wiped })) .erasureComplete (.nat 1)

/-- PacketsActOnContexts, the rest: a loading context, a capture that ends without a ring and with one whose header can be
stored or must wait, and one that goes on; a wiped context with a word due and with none. -/
theorem witness_contexts :
    let ended := fun (s : State) => s.grids.all (fun e => !e.2.captured || !e.2.live || decide (e.2.asid ≠ 1) || e.2.endWith.isSome || decide (e.2.size ≤ e.2.retired))
    let header := fun (s : State) => match (s.dispStore (some 1) (s.ctx 1).rcd.trbase (leBytes 8 (s.ctx 1).capWrites ++ leBytes 8 (s.ctx 1).capDrops) false).1 with
      | .wait _ => true
      | _ => false
    let late := fun (s : State) => s.dsp.late.any (fun x => decide (x.kind = .trace ∧ x.asid = some 1))
    let loading := event (inContext (fun c => { c with st := .loading })) .contextLoaded (.nat 1)
    ((loading.ctx 1).st = .loading ∧ (loading.readBreaks 1 (loading.ctx 1).rcd).1.isSome = true) ∧
    (((closing base 0).ctx 1).capStop.isSome = true ∧ ended (closing base 0) = true ∧ late (closing base 0) = false ∧
      ((closing base 0).ctx 1).rcd.trpages = 0) ∧
    late (closing { base with dsp := { base.dsp with late := [⟨some 1, 0x1000, leBytes 8 1, false, .trace⟩] } } 0) = true ∧
    (ended (closing base 1) = true ∧ ((closing base 1).ctx 1).rcd.trpages ≠ 0 ∧ header (closing base 1) = false) ∧
    (ended (closing page1Stored 1) = true ∧ ((closing page1Stored 1).ctx 1).rcd.trpages ≠ 0 ∧ header (closing page1Stored 1) = true) ∧
    ended ((closing base 0).setGrid 1 { base.grid 1 with captured := true }) = false ∧
    (let s := wiped.setGrid 1 { base.grid 1 with retired := 1 }
     (s.ctx 1).st = .wiped ∧ (s.ctx 1).capStop = none ∧ ∃ k ∈ s.gridsOf 1, (s.grid k).wordDue = true) ∧
    (let s := wiped.setGrid 1 { base.grid 1 with moved := true }
     (s.ctx 1).st = .wiped ∧ (s.ctx 1).capStop = none ∧ (∀ k ∈ s.gridsOf 1, (s.grid k).wordDue = false) ∧
      (∀ c ∈ s.commands ++ s.dsp.pg, c.fw = true ∨ s.asidOf c.team ≠ 1) ∧ ∀ x ∈ s.dsp.late, x.asid ≠ some 1) := by
  decide +kernel

/-! ## Witnesses: teams, grids and stops -/

/-- A second grid waits, of one team; class 0 has room. -/
def twoGrids : State :=
  let s := base.setGrid 2 { live := true, asid := 1, launch := { width := 8, lanes := 8, cap := 32, codeEnd := 4096 }, rcd := (base.grid 1).rcd, started := true }
  { s with dsp := { s.dsp with order := [1, 2], nextGrid := 3, policy := [(0, { cap := 5120 })] } }

/-- The second grid's cluster has been passed over for a quantum, and its rectangle is core 0. -/
def overdue : State :=
  let s := twoGrids.setGrid 2 { twoGrids.grid 2 with passed := [(0, 0)] }
  { s with dsp := { s.dsp with rects := [(2, 0, 0)] }, fab := { s.fab with tick := 1000 } }

/-- The team, as f makes it. -/
def withTeam (f : Team → Team) : State := base.setTeam tk1 (f (base.team tk1))

/-- TeamsAndGridsLiveAndEnd: placing and loading. -/
theorem witness_placing :
    (∃ (s : State) (x : Cand) (passed : List Cand), s.turn = .event .teamPlacement (.nat3 3 15 9) ∧ (3 : Nat) < 4 ∧ (15 : Nat) < 16 ∧ (9 : Nat) < 10 ∧
      s.choose 639 s.candidates [] = some (x, passed) ∧ (s.grid x.grid).started = true ∧ (s.grid x.grid).endWith = none ∧ (s.teams.map (·.1)).Nodup ∧
      ∀ r, r < (s.grid x.grid).clusterSize x.cluster → (s.team (teamKey x.grid (x.cluster * (s.grid x.grid).q + r))).slots = []) ∧
    (∃ s : State, s.turn = .event .loadingComplete (.nat2 1 0) ∧ (s.grid 1).live = true ∧ (s.grid 1).placed.any (fun p => decide (p.1 = 0)) = true ∧
      (s.grid 1).size ≤ 2 ^ 48 ∧ (s.grid 1).launch.image.length ≤ 2 ^ 19 ∧ (s.team tk1).st = .dispatched ∧ (s.team tk1).reload = false) ∧
    (∃ s : State, s.turn = .event .loadingComplete (.nat2 1 0) ∧ (s.grid 1).live = true ∧ (s.grid 1).placed.any (fun p => decide (p.1 = 0)) = true ∧
      (s.grid 1).size ≤ 2 ^ 48 ∧ (s.grid 1).launch.image.length ≤ 2 ^ 19 ∧ (s.team tk1).st = .dispatched ∧ (s.team tk1).reload = true) ∧
    (∃ s : State, s.turn = .event .loadingComplete (.nat2 1 0) ∧ (s.grid 1).live = true ∧ (s.grid 1).placed.any (fun p => decide (p.1 = 0)) = true ∧
      (s.grid 1).size ≤ 2 ^ 48 ∧ (s.grid 1).launch.image.length ≤ 2 ^ 19 ∧ (s.team tk1).st = .dispatched ∧ (s.team tk1).reload = true ∧
      (s.team tk1).seq.exited = true ∧ ∀ n, n < (s.grid 1).launch.lanes → ((s.team tk1).lane n).exited = true) ∧
    ∃ s : State, s.turn = .event .loadingComplete (.nat2 1 0) ∧ (s.grid 1).live = true ∧ (s.grid 1).placed.any (fun p => decide (p.1 = 0)) = true ∧
      (s.grid 1).size ≤ 2 ^ 48 ∧ (s.grid 1).launch.image.length ≤ 2 ^ 19 ∧ (s.team tk1).st ≠ .dispatched :=
  ⟨⟨event twoGrids .teamPlacement (.nat3 3 15 9), ⟨2, 0, 0, 0⟩, [], rfl, by decide, by decide, by decide, by decide +kernel⟩,
   ⟨event (withTeam (fun t => { t with st := .dispatched })) .loadingComplete (.nat2 1 0), rfl, by decide +kernel⟩,
   ⟨event (withTeam (fun t => { t with st := .dispatched, reload := true })) .loadingComplete (.nat2 1 0), rfl, by decide +kernel⟩,
   ⟨event (withTeam (fun t => { (t.updateLanes (List.range 8) (fun _ l => { l with exited := true })) with
       st := .dispatched, reload := true, seq := { t.seq with exited := true } })) .loadingComplete (.nat2 1 0), rfl, by decide +kernel⟩,
   ⟨event base .loadingComplete (.nat2 1 0), rfl, by decide +kernel⟩⟩

/-- Grid 1's one cluster of one running team, whose quantum began at q0, is asked about. -/
def Expires (s : State) (q0 : Nat) : Prop :=
  s.turn = .event .quantumExpiry (.nat2 1 0) ∧ (s.grid 1).placed.find? (fun p => decide (p.1 = 0)) = some (0, 0) ∧
    (∃ tk, tk ∈ (s.grid 1).clusterTeams 1 0 ∧ (s.team tk).st = .running) ∧
    ∀ tk, tk ∈ (s.grid 1).clusterTeams 1 0 ∧ (s.team tk).st = .running → (s.team tk).qstart = q0

theorem expires_of {s : State} {q0 : Nat} (h : s.turn = .event .quantumExpiry (.nat2 1 0))
    (hp : (s.grid 1).placed.find? (fun p => decide (p.1 = 0)) = some (0, 0)) (hg : (s.grid 1).clusterTeams 1 0 = [tk1])
    (hr : (s.team tk1).st = .running) (hq : (s.team tk1).qstart = q0) : Expires s q0 := by
  refine ⟨h, hp, ⟨tk1, by rw [hg]; exact List.mem_singleton.mpr rfl, hr⟩, fun tk ht => ?_⟩
  rw [hg, List.mem_singleton] at ht
  rw [ht.1]
  exact hq

/-- The quantum's event at tick 1000, with nobody waiting, and with the cluster that was passed over. -/
def late : State := event { base with fab := { base.fab with tick := 1000 } } .quantumExpiry (.nat2 1 0)
def due : State := event overdue .quantumExpiry (.nat2 1 0)

/-- TeamsAndGridsLiveAndEnd: a quantum that is not over, one that is over with nobody waiting, and one with a cluster that waits
for the core. -/
theorem witness_quantum :
    (∃ s : State, Expires s 0 ∧ 2 * (s.fab.tick - 0) < s.quantumOf 1) ∧
    (∃ s : State, Expires s 0 ∧ s.quantumOf 1 ≤ 2 * (s.fab.tick - 0) ∧ s.waitingFor 1 0 0 = none) ∧
    ∃ (s : State) (x : Cand), Expires s 0 ∧ s.quantumOf 1 ≤ 2 * (s.fab.tick - 0) ∧ s.waitingFor 1 0 0 = some x :=
  ⟨⟨event base .quantumExpiry (.nat2 1 0), expires_of rfl (by decide +kernel) (by decide +kernel) (by decide +kernel) (by decide +kernel), by decide +kernel⟩,
   ⟨late, expires_of rfl (by decide +kernel) (by decide +kernel) (by decide +kernel) (by decide +kernel), by decide +kernel, by decide +kernel⟩,
   ⟨due, ⟨2, 0, 0, 0⟩, expires_of rfl (by decide +kernel) (by decide +kernel) (by decide +kernel) (by decide +kernel), by decide +kernel, by decide +kernel⟩⟩

/-- A command that claims the first line of the team's window. -/
def claiming (s : State) : State := s.setCore 0 { s.coreAt 0 with ce := [{ team := tk1, claims := [spad0 / 64], touches := [tk1] }] }

/-- A barrier release of grid 1 that is not applied. -/
def releasing (s : State) : State := { s with releases := [⟨.gbar 1, 0, []⟩] }

/-- TeamsAndGridsLiveAndEnd: swap-outs, exits and ends of grids, with something to wait for and with nothing. -/
theorem witness_ends :
    (∃ s : State, s.turn = .event .swapOut (.nat tk1) ∧ (s.team tk1).st = .swapped ∧ (s.team tk1).slots ≠ [] ∧ s.spadBusy tk1 = true) ∧
    (∃ s : State, s.turn = .event .swapOut (.nat tk1) ∧ (s.team tk1).st = .swapped ∧ (s.team tk1).slots ≠ [] ∧ s.evaluates tk1 = false ∧ s.spadBusy tk1 = false ∧
      (s.team tk1).seq.sbuf = [] ∧ (s.team tk1).stopRec = none ∧ (s.gridOf tk1).captured = false) ∧
    (∃ s : State, s.turn = .event .exitActions (.nat tk1) ∧ (s.team tk1).st = .exiting ∧ (s.gridOf tk1).interval.st ≠ .rolling ∧
      (s.team tk1).atExit.mf.forces ≠ []) ∧
    (∃ s : State, s.turn = .event .exitActions (.nat tk1) ∧ (s.team tk1).st = .exiting ∧ (s.gridOf tk1).interval.st ≠ .rolling ∧
      (s.team tk1).atExit.mf.forces = [] ∧ (s.team tk1).red = [] ∧ (s.team tk1).seq.sbuf = [] ∧ s.spadBusy tk1 = false ∧ (s.gridOf tk1).captured = false ∧
      ∀ x ∈ s.releases, x.kind ≠ .exit tk1) ∧
    (∃ s : State, s.turn = .event .gridEnd (.nat2 1 1) ∧ (s.grid 1).active = true ∧ (s.grid 1).interval.st ≠ .rolling ∧ (s.grid 1).regen = none ∧ s.gridBusy 1 = false ∧
      (s.grid 1).endWith = some 8) ∧
    (∃ s : State, s.turn = .event .gridEnd (.nat2 1 1) ∧ (∀ tk, keyGrid tk = 1 → (s.team tk).red = []) ∧ (s.grid 1).active = true ∧ (s.grid 1).interval.st ≠ .rolling ∧
      (s.grid 1).regen = none ∧ s.gridBusy 1 = false ∧ (s.grid 1).endWith = none ∧ (s.grid 1).retired = (s.grid 1).size ∧ (s.grid 1).source = 0 ∧
      (s.grid 1).moved = false ∧ (s.grid 1).deferred = []) ∧
    (∃ s : State, s.turn = .event .gridEnd (.nat2 1 1) ∧ s.gridBusy 1 = true) ∧ (∃ s : State, ∃ x ∈ s.fab.fwd, x.grid = 1) ∧
    (∃ s : State, s.turn = .event .gridEnd (.nat2 1 1) ∧ (s.grid 1).interval.st = .rolling) ∧
    (∃ s : State, s.turn = .event .gridEnd (.nat2 1 1) ∧ (s.grid 1).active = true ∧ s.gridBusy 1 = false ∧ (s.grid 1).endWith = none ∧
      (s.grid 1).interval.st ≠ .rolling ∧ s.allRetired 1 = true ∧ (s.grid 1).moved = true) ∧
    (∃ s : State, s.turn = .event .gridEnd (.nat2 1 1) ∧ (s.grid 1).active = true ∧ s.gridBusy 1 = false ∧ (s.grid 1).endWith = none ∧
      (s.grid 1).interval.st ≠ .rolling ∧ s.allRetired 1 = true ∧ (s.grid 1).retired ≠ (s.grid 1).size ∧ (s.grid 1).rcd.det = true) ∧
    (∃ s : State, s.turn = .event .gridEnd (.nat2 1 0) ∧ (s.grid 1).active = true ∧ s.gridBusy 1 = false ∧ (s.grid 1).endWith = none ∧
      s.allRetired 1 = true ∧ (s.grid 1).retired ≠ (s.grid 1).size) ∧
    ∃ s : State, s.turn = .event .gridEnd (.nat2 1 1) ∧ (s.grid 1).active = true ∧ (s.grid 1).endWith = none ∧ s.allRetired 1 = false :=
  ⟨⟨event (claiming (withTeam (fun t => { t with st := .swapped }))) .swapOut (.nat tk1), rfl, by decide +kernel⟩,
   ⟨event (withTeam (fun t => { t with st := .swapped })) .swapOut (.nat tk1), rfl, by decide +kernel⟩,
   ⟨event (withTeam (fun t => { t with st := .exiting, mf := { two with forces := [storing] } })) .exitActions (.nat tk1), rfl, by decide +kernel⟩,
   ⟨event (withTeam (fun t => { t with st := .exiting, mf := two })) .exitActions (.nat tk1), rfl, by decide +kernel⟩,
   ⟨event (base.setGrid 1 { base.grid 1 with endWith := some 8 }) .gridEnd (.nat2 1 1), rfl, by decide +kernel⟩,
   ⟨event (base.setGrid 1 { base.grid 1 with retired := 1 }) .gridEnd (.nat2 1 1), rfl, fun k _ => team_all (fun t => t.red = []) rfl (by decide +kernel) k,
     by decide +kernel⟩,
   ⟨event (claiming base) .gridEnd (.nat2 1 1), rfl, by decide +kernel⟩, ⟨forwarding base, by decide +kernel⟩,
   ⟨event (base.setGrid 1 { base.grid 1 with interval := { (base.grid 1).interval with st := .rolling } }) .gridEnd (.nat2 1 1), rfl, by decide +kernel⟩,
   ⟨event (base.setGrid 1 { base.grid 1 with retired := 1, moved := true }) .gridEnd (.nat2 1 1), rfl, by decide +kernel⟩,
   ⟨event ((detState base).setGrid 1 { (detState base).grid 1 with source := 1 }) .gridEnd (.nat2 1 1), rfl, by decide +kernel⟩,
   ⟨event (base.setGrid 1 { base.grid 1 with source := 1 }) .gridEnd (.nat2 1 0), rfl, by decide +kernel⟩,
   ⟨event base .gridEnd (.nat2 1 1), rfl, by decide +kernel⟩⟩

/-- Context 1 has one breakpoint, of every stream of every team at address 0; its page 0 is writable. -/
def breaking (t : Turn) : State :=
  let s := base.setCtx 1 { base.ctx 1 with bps := [⟨5, 0x8000000000000000, 0⟩] }
  { s.putBytes (hbmKey 0x5000) (leBytes 8 0x600F) with turn := t }

/-- The team has stopped at entry 5 and has swapped out; every slot of its context is taken, or none. -/
def stopping (taken : Bool) : State :=
  let s := breaking (.event .stopSlotScan (.nat 1))
  let s := s.setTeam tk1 { s.team tk1 with st := .swapped, slots := [], stopped := true, stopRec := some (5, 0, 0) }
  if taken then s.setCtx 1 { s.ctx 1 with rcd := { (s.ctx 1).rcd with bptab := 2 ^ 40 } } else s

/-- A store of the dispatcher that is done. -/
def storesOk (x : Disp Unit × State) : Bool := decide (x.1 = .ok ())

/-- Where a scan would write its one record. -/
def recording (s : State) (i : Nat) : Disp Unit × State :=
  s.dispStore (some 1) ((s.ctx 1).rcd.bptab + 0x400 + 64 * i) (s.stopBytes tk1 (5, 0, 0)) false

/-- StopsAndWaits: breakpoints of both kinds of stream. -/
theorem witness_breakpoints :
    (∃ (s : State) (r : Run), s.turn = .slot 0 0 0 ∧ s.headRun 0 0 0 = some r ∧ r.team = tk1 ∧ s.bpHit tk1 (s.runStreams r) r.pc = some (1, 5)) ∧
    ∃ s : State, s.turn = .seq tk1 ∧ s.seqIssues tk1 = true ∧ s.bpHit tk1 [0] (s.team tk1).seq.pc = some (0, 5) :=
  ⟨⟨breaking (.slot 0 0 0), ⟨tk1, List.range 8, 0, false⟩, rfl, by decide +kernel, rfl, by decide +kernel⟩,
    ⟨breaking (.seq tk1), rfl, by decide +kernel, by decide +kernel⟩⟩

/-- The team's record stands in slot 2, whose word is zero. -/
def clearedSlot : State :=
  let s := breaking (.event .stopSlotScan (.nat 1))
  s.setTeam tk1 { s.team tk1 with st := .swapped, slots := [], stopped := true, stopSlot := some (0x400 + 64 * 2) }

/-- StopsAndWaits: a scan with nothing to record, one that finds a cleared slot, one with no free slot, one whose record is
stored and one whose record is not; and a slot that is freed. -/
theorem witness_stops :
    (breaking (.event .stopSlotScan (.nat 1))).unrecorded 1 = [] ∧
    (clearedSlot.asidOf tk1 = 1 ∧ clearedSlot.stopWord 1 0x480 = .ok 0 ∧ 0x480 ∈ clearedSlot.clearedStops 1) ∧
    (∀ taken : Bool, (stopping taken).clearedStops 1 = [] ∧ (stopping taken).unrecorded 1 = [tk1] ∧
      ((stopping taken).team tk1).stopRec = some (5, 0, 0)) ∧
    ((stopping true).freeStopSlot 1 = none ∧ (stopping false).freeStopSlot 1 = some 0) ∧
    storesOk (recording (stopping false) 0) = true ∧
    (let s := (stopping false).putBytes (hbmKey 0x5000) (leBytes 8 0x6007)
     s.clearedStops 1 = [] ∧ s.unrecorded 1 = [tk1] ∧ s.freeStopSlot 1 = some 0 ∧ storesOk (recording s 0) = false) ∧
    (let s := breaking (.event .stopSlotFree (.nat2 1 15))
     (s.ctx 1).st ≠ .free ∧ storesOk (s.dispStore (some 1) ((s.ctx 1).rcd.bptab + 0x400 + 64 * 15) (leBytes 8 0) false) = true) ∧
    (clearedSlot.team tk1).stopSlot = some ((clearedSlot.ctx 1).rcd.bptab + 0x400 + 64 * 2) := by
  refine ⟨?_, ?_, ?_, ?_, ?_, ?_, ?_, ?_⟩ <;> decide +kernel

/-- Lanes 0 to 7 wait with that store. -/
def parking : State := { base with parked := [⟨tk1, List.range 8, 0, [store0], true⟩] }

/-- Lanes wait for the switch of bank 1. -/
def switching (t : Turn) : State :=
  { base.setTeam tk1 { base.team tk1 with bmodeNext := [([2], List.range 8)] } with turn := t }

/-- A piece's outcome, as a number. -/
def outcome (x : PieceOut) : Nat :=
  match x with
  | .wait _ => 0
  | .more _ _ => 1
  | .done _ => 2

/-- Barrier 3 of tk1 has a release with nothing left to apply. -/
def released : State := { counting 8 with turn := .event .releaseWaitEnd (.nat 0), releases := [⟨.bar tk1 3, 0, []⟩] }

/-- StopsAndWaits: a parked access of a team that does not issue, one that must wait and one that need not; a switch of
banks that waits and one that does not; and a release. -/
theorem witness_waits :
    (let s := event (parking.setTeam tk1 { parking.team tk1 with st := .swapped }) .waitingAccessPerform (.nat 0)
     s.issues tk1 = false) ∧
    (let s := event (claiming parking) .waitingAccessPerform (.nat 0)
     s.issues tk1 = true ∧ s.pace = none ∧ outcome (s.stepPiece 0 0 store0) = 0) ∧
    (let s := event parking .waitingAccessPerform (.nat 0)
     s.issues tk1 = true ∧ s.pace = none ∧ outcome (s.stepPiece 0 0 store0) = 2) ∧
    (let s := (switching (.event .bankModeSwitch (.nat tk1))).setCore 0 { ce := [{ claims := [spadKey tk1 1 0 / 64] }] }
     (s.team tk1).bmodeNext = [([2], List.range 8)] ∧ ∃ b ∈ switchedBanks (s.team tk1).bmode [2], s.bankBusy tk1 b = true) ∧
    (let s := switching (.event .bankModeSwitch (.nat tk1))
     (s.team tk1).bmodeNext = [([2], List.range 8)] ∧ ∀ b ∈ switchedBanks (s.team tk1).bmode [2], s.bankBusy tk1 b = false) ∧
    (released.releases = [⟨.bar tk1 3, 0, []⟩] ∧ ((released.team tk1).bar 3).expected ≠ 0 ∧ (released.gridOf tk1).captured = false) := by
  refine ⟨?_, ?_, ?_, ?_, ?_, ?_⟩ <;> decide +kernel


/-! ## Witnesses: the copy engine -/

/-- A command of the team with these words. -/
def command1 (ws : List Nat) (plan : Option (List PlanItem)) : Cmd :=
  { num := 1, team := tk1, words := ws.map (BitVec.ofNat 64), plan := plan }

/-- Copies n bytes within the window, from byte 64 to byte 0, with an arrival word at address a. -/
def copying (n a : Nat) (plan : Option (List PlanItem)) : Cmd := command1 [1 + n * 2 ^ 32, windowBase, windowBase + 64, a] plan

/-- The queue of core 0's copy engine, the turn of its first command. -/
def engine (i : Instr) (cs : List Cmd) : State := event (base.setCore 0 { base.coreAt 0 with ce := cs }) i (.nat2 0 0)

/-- A triple whose second part is none. -/
theorem triple_of {α β γ : Type} {x : α × Option β × γ} (h : x.2.1.isNone = true) : x = (x.1, none, x.2.2) := by
  obtain ⟨a, b, d⟩ := x
  cases b with
  | none => rfl
  | some v => cases h

/-- A triple whose second part is not. -/
theorem waiting_of {α β γ : Type} {x : α × Option β × γ} (h : x.2.1.isSome = true) : ∃ p, x = (x.1, some p, x.2.2) := by
  obtain ⟨a, b, d⟩ := x
  cases b with
  | none => cases h
  | some v => exact ⟨v, rfl⟩

/-- CopyEngineCommandsMoveBytes: what each operation reads. -/
theorem witness_copy_reads :
    (∃ (va : Nat) (bs : List SrcByte), va + bs.length ≤ 2 ^ 64 ∧ ∀ b ∈ bs, b.err = none ∧ b.mask ≠ 0) ∧
    (∃ (s u : State) (c : Cmd) (bs : List SrcByte), c.op = 1 ∧ s.readStretches c (copyStretches c.dst c.src c.count) = (bs, none, u)) ∧
    (∃ (s u : State) (c : Cmd) (bs : List SrcByte), c.op = 2 ∧ c.rows = 1 ∧
      s.readStretches c (copyStretches (addr64 c.dst) (addr64 c.src) c.count) = (bs, none, u)) ∧
    (∃ (s s1 u : State) (c : Cmd) (ix bs : List SrcByte), c.op = 3 ∧ c.count = 1 ∧ s.readStretch c (c.word 4) 4 = (ix, none, s1) ∧
      ix.length = 4 ∧ (∀ b ∈ ix, b.err = none ∧ b.poison = false) ∧ s1.readStretch c (c.src + 0 * c.esize) c.esize = (bs, none, u)) ∧
    (∃ (s s1 u : State) (c : Cmd) (ix bs : List SrcByte), c.op = 4 ∧ c.count = 1 ∧ s.readStretch c (c.word 4) 4 = (ix, none, s1) ∧
      ix.length = 4 ∧ (∀ b ∈ ix, b.err = none ∧ b.poison = false) ∧
      s1.readStretches c (copyStretches (addr64 (c.dst + 0 * c.esize)) (addr64 c.src) c.esize) = (bs, none, u)) ∧
    (∃ (c : Cmd) (k : Nat), c.op = 5 ∧ k < c.count) ∧
    ∃ (c : Cmd) (q k : Nat), c.fmt ≤ 0x12 ∧ q < c.count ∧ k < (planeShape c.fmt).1 := by
  let g (op : Nat) : Cmd := command1 [op + 2 ^ 32 + 3 * 2 ^ 17, windowBase, windowBase + 64, 0, windowBase + 128, 9] none
  exact ⟨⟨2 ^ 64 - 2, [{}, {}], by decide +kernel, by decide +kernel⟩,
    ⟨base, _, copying 8 0 none, _, by decide +kernel, triple_of (by decide +kernel)⟩,
    ⟨base, _, command1 [2 + 8 * 2 ^ 32, windowBase, windowBase + 64, 0, 0, 0, 1] none, _, by decide +kernel, by decide +kernel, triple_of (by decide +kernel)⟩,
    ⟨base, _, _, g 3, _, _, by decide +kernel, by decide +kernel, triple_of (by decide +kernel), by decide +kernel, by decide +kernel, triple_of (by decide +kernel)⟩,
    ⟨base, _, _, g 4, _, _, by decide +kernel, by decide +kernel, triple_of (by decide +kernel), by decide +kernel, by decide +kernel, triple_of (by decide +kernel)⟩,
    ⟨command1 [5 + 3 * 2 ^ 32] none, 2, by decide +kernel, by decide +kernel⟩,
    ⟨command1 [6 + 0x12 * 256 + 65 * 2 ^ 32] none, 64, 0, by decide +kernel⟩⟩

/-- The write of two bytes at the window's start. -/
def write2 : PlanItem := .write windowBase [(255, 1), (15, 2)] false 0

/-- A command that an earlier one, numbered 0, holds up: it claims the window's first line, or has still to read it. -/
def first : Cmd := { num := 0, team := tk1, plan := some [write2], claims := [spad0 / 64], srcs := [spad0 / 64], words := [1] }

/-- The same queue, with that earlier command at the fabric. -/
def engineAfter (i : Instr) (cs : List Cmd) : State := { engine i cs with fab := { base.fab with xeq := [first] } }

/-- Command c is the head of core 0's queue, and has the turn. -/
def CeTurn (s : State) (c : Cmd) : Prop :=
  s.turn = .event .copy (.nat2 0 0) ∧ (s.coreAt 0).ce.drop 0 = [c] ∧ c.op = 1 ∧ ∀ d ∈ (s.coreAt 0).ce.take 0, d.plan ≠ none

theorem ceTurn_of {s : State} {c : Cmd} (h : s.turn = .event .copy (.nat2 0 0)) (hc : (s.coreAt 0).ce = [c]) (ho : c.op = 1) : CeTurn s c :=
  ⟨h, by rw [hc]; rfl, ho, by rw [List.take_zero]; exact fun _ h => nomatch h⟩

/-- CopyEngineCommandsMoveBytes, the turns: a malformed start, one that waits for an earlier claim, one that starts and one whose
source lies in storage; a write that
waits and one that does not; arrivals at no word, at one that is held and at a free one; and an error. -/
theorem witness_copy_starts :
    (∃ s c, CeTurn s c ∧ c.plan = none ∧ s.ceOk c = false) ∧
    (∃ s c, CeTurn s c ∧ c.plan = none ∧ s.ceOk c = true ∧ s.srcWaits c.num (s.regionLines c .load (s.ceRegions c).2) = true) ∧
    (∃ s c xs u, CeTurn s c ∧ c.plan = none ∧ s.ceOk c = true ∧ s.srcWaits c.num (s.regionLines c .load (s.ceRegions c).2) = false ∧
      s.planCe c = (xs, none, u)) ∧
    ∃ s c xs p u, CeTurn s c ∧ c.plan = none ∧ s.ceOk c = true ∧ s.srcWaits c.num (s.regionLines c .load (s.ceRegions c).2) = false ∧
      s.planCe c = (xs, some p, u) := by
  let lost : Cmd := command1 [1 + 8 * 2 ^ 32, windowBase, 0x1000] none
  let away : State := ((engine .copy [lost]).setFrame 10 (BitVec.ofNat 64 (4 * 2 ^ 61 + 10 * 2 ^ 12))).putBytes (hbmKey 0x5008) (leBytes 8 0xA007)
  obtain ⟨p, hp⟩ := waiting_of (x := away.planCe lost) (by decide +kernel)
  let back : Cmd := command1 [1 + 8 * 2 ^ 32, windowBase + 64, windowBase] none
  exact ⟨⟨engine .copy [copying 8 1 none], copying 8 1 none, ceTurn_of rfl (by decide +kernel) (by decide +kernel), rfl, by decide +kernel⟩,
    ⟨engineAfter .copy [back], back, ceTurn_of rfl (by decide +kernel) (by decide +kernel), rfl, by decide +kernel, by decide +kernel⟩,
    ⟨engine .copy [copying 8 0 none], copying 8 0 none, _, _, ceTurn_of rfl (by decide +kernel) (by decide +kernel), rfl, by decide +kernel, by decide +kernel,
      triple_of (by decide +kernel)⟩,
    ⟨away, lost, _, p, _, ceTurn_of rfl (by decide +kernel) (by decide +kernel), rfl, by decide +kernel, by decide +kernel, hp⟩⟩

theorem witness_copy_writes :
    (∃ s c runs u, CeTurn s c ∧ c.plan = some [write2] ∧ s.checkAccess (s.cmdWho c) c.core .store true true true windowBase 2 = (.ok runs, u) ∧
      u.engineWaits c runs = true) ∧
    ∃ s c l u, CeTurn s c ∧ c.plan = some [write2] ∧ s.checkAccess (s.cmdWho c) c.core .store true true true windowBase 2 = (.ok [(l, 2)], u) ∧
      PlainPlace u l 2 (spadKey tk1 0 0) ∧ u.engineWaits c [(l, 2)] = false ∧ u.inHost l = false ∧ c.arriveAddr = 0 ∧
      ∀ x ∈ u.fab.fwd, x.owner ≠ .engine c.num := by
  refine ⟨⟨engineAfter .copy [copying 2 0 (some [write2])], copying 2 0 (some [write2]), [(.spad tk1 0 0, 2)], _, ceTurn_of rfl (by decide +kernel) (by decide +kernel), rfl,
      pair_of (by decide +kernel), by decide +kernel⟩,
    ⟨engine .copy [copying 2 0 (some [write2])], copying 2 0 (some [write2]), .spad tk1 0 0, _, ceTurn_of rfl (by decide +kernel) (by decide +kernel), rfl,
      pair_of (by decide +kernel), ?_, by decide +kernel⟩⟩
  unfold PlainPlace
  decide +kernel

theorem witness_copy_arrivals :
    (∃ s c, CeTurn s c ∧ c.plan = some [.count 2] ∧ c.fw = false ∧ s.arrivePlace c.team c.arriveAddr = none) ∧
    (∃ s c, CeTurn s c ∧ c.plan = some [.count 2] ∧ s.arrivePlace c.team c.arriveAddr = some (.spad tk1 0 16) ∧ s.arriveWaits c (.spad tk1 0 16) = true) ∧
    (∃ s c, CeTurn s c ∧ c.plan = some [.count 2] ∧ PlainPlace s (.spad tk1 0 16) 16 (spadKey tk1 0 16) ∧
      s.arrivePlace c.team c.arriveAddr = some (.spad tk1 0 16) ∧ s.arriveWaits c (.spad tk1 0 16) = false ∧ s.countWaits c (.spad tk1 0 16) = false ∧
      s.detCode (s.cmdWho c) true false (.spad tk1 0 16) = 0) ∧
    (∃ s c, CeTurn s c ∧ c.plan = some [.fail 1 0 0] ∧ s.arrivePlace c.team c.arriveAddr = none ∧ c.fw = false ∧
      (s.team c.team).seq.exited = false ∧ SeqHandled s c.team) ∧
    ∃ s c l, CeTurn s c ∧ c.plan = some [.fail 1 0 0] ∧ c.fw = false ∧ s.arrivePlace c.team c.arriveAddr = some l ∧ s.arriveWaits c l = true := by
  let c0 : Cmd := copying 2 0 (some [.count 2])
  let c16 : Cmd := copying 2 (windowBase + 16) (some [.count 2])
  let ce : Cmd := copying 2 0 (some [.fail 1 0 0])
  let ca : Cmd := copying 2 (windowBase + 16) (some [.fail 1 0 0])
  refine ⟨⟨engine .copy [c0], c0, ceTurn_of rfl (by decide +kernel) (by decide +kernel), rfl, rfl, by decide +kernel⟩,
    ⟨engineAfter .copy [c16], c16, ceTurn_of rfl (by decide +kernel) (by decide +kernel), rfl, by decide +kernel, by decide +kernel⟩,
    ⟨engine .copy [c16], c16, ceTurn_of rfl (by decide +kernel) (by decide +kernel), rfl, ?_, by decide +kernel⟩,
    ⟨engine .copy [ce], ce, ceTurn_of rfl (by decide +kernel) (by decide +kernel), rfl, by decide +kernel, rfl, by decide +kernel,
      ⟨by decide +kernel, by decide +kernel⟩⟩,
    ⟨engineAfter .copy [ca], ca, .spad tk1 0 16, ceTurn_of rfl (by decide +kernel) (by decide +kernel), rfl, rfl, by decide +kernel, by decide +kernel⟩⟩
  unfold PlainPlace
  decide +kernel

/-! ## Witnesses: pages -/

/-- Frames 7 to 10 lie in HBM4E, LPDDR6, host memory and storage, each at its own number; chip 3 is a member; page-engine commands,
the free frames and the victims of the tiers. -/
def paging (cs : List Cmd) (free victims : SMap (List Nat)) : State :=
  let frames := [(7, 1), (8, 2), (9, 3), (10, 4)].foldl (fun m x => SMap.set 0 m x.1 (BitVec.ofNat 64 (x.2 * 2 ^ 61 + x.1 * 2 ^ 12))) base.frames
  { base with
    frames := frames
    fab := { base.fab with members := [0, 3] }
    dsp := { base.dsp with pg := cs, freeList := free, victims := victims, low := [(1, 1), (2, 1), (3, 1)], high := [(1, 1), (2, 1), (3, 1)] } }

/-- A page-engine command on n frames from frame f on: operation op, target tier (with 16 times the chip), pin bit. -/
def page1 (op loc pin f n : Nat) (plan : Option (List PlanItem)) (moving : Bool) : Cmd :=
  { command1 [op + loc * 2 ^ 8 + pin * 2 ^ 11 + n * 2 ^ 32, f * 4096] plan with moving := moving }

/-- A page-engine command has the turn of its event. -/
def PgTurn (i : Instr) (op : Nat) (s : State) (c : Cmd) : Prop :=
  (i, op) ∈ [(Instr.pgMove, 1), (.pgPin, 2), (.pgClrcnt, 3)] ∧ s.turn = .event i (.nat 0) ∧ s.dsp.pg.drop 0 = [c] ∧ c.op = op ∧
    ∀ d ∈ s.dsp.pg.take 0, d.tier ≠ c.tier

theorem pgTurn_of {i : Instr} {op : Nat} {s : State} {c : Cmd} (hi : (i, op) ∈ [(Instr.pgMove, 1), (.pgPin, 2), (.pgClrcnt, 3)])
    (h : s.turn = .event i (.nat 0)) (hc : s.dsp.pg = [c]) (ho : c.op = op) : PgTurn i op s c :=
  ⟨hi, h, by rw [hc]; rfl, ho, by rw [List.take_zero]; exact fun _ h => nomatch h⟩

/-- Whether a frame is free to move, as one decision. -/
theorem frameFree_of {s : State} {f : Nat} (h : !s.frameBusy f && (s.frameLines f).all (fun k => !SMap.get false s.bad k) = true) : FrameFree s f := by
  simp only [Bool.and_eq_true, Bool.not_eq_true'] at h
  exact ⟨h.1, by simpa using h.2⟩

/-- That command's event. -/
def pgEvent1 (i : Instr) (c : Cmd) : State := event (paging [c] [(2, [99]), (4099, [99])] []) i (.nat 0)

/-- PagesMove, the commands: an error of one that the firmware issued and of one that a stream pushed, one that is malformed, PIN,
CLRCNT and a count. -/
theorem witness_page_commands :
    (∃ s c, PgTurn .pgPin 2 s c ∧ c.plan = some [.fail 6 0 0] ∧ c.fw = true) ∧
    (∃ s c, PgTurn .pgPin 2 s c ∧ c.plan = some [.fail 6 0 0] ∧ c.fw = false ∧ s.arrivePlace c.team c.arriveAddr = none ∧
      (s.team c.team).seq.exited = false ∧ SeqHandled s c.team) ∧
    (∃ s c, PgTurn .pgPin 2 s c ∧ c.plan = none ∧ s.pgError c ≠ 0) ∧ (∃ s c, PgTurn .pgPin 2 s c ∧ c.plan = none ∧ s.pgError c = 0) ∧
    (∃ s c, PgTurn .pgClrcnt 3 s c ∧ c.plan = none ∧ s.pgError c = 0) ∧
    ∃ s c n, PgTurn .pgMove 1 s c ∧ c.plan = some [.count n] ∧ s.arrivePlace c.team c.arriveAddr = none := by
  let fails : Cmd := page1 2 0 1 7 2 (some [.fail 6 0 0]) false
  exact ⟨⟨pgEvent1 .pgPin { fails with fw := true }, _, pgTurn_of (by decide) rfl rfl (by decide +kernel), rfl, rfl⟩,
    ⟨pgEvent1 .pgPin fails, fails, pgTurn_of (by decide) rfl rfl (by decide +kernel), rfl, rfl, by decide +kernel, by decide +kernel,
      ⟨by decide +kernel, by decide +kernel⟩⟩,
    ⟨pgEvent1 .pgPin (page1 2 0 1 7 0 none false), _, pgTurn_of (by decide) rfl rfl (by decide +kernel), rfl, by decide +kernel⟩,
    ⟨pgEvent1 .pgPin (page1 2 0 1 7 2 none false), _, pgTurn_of (by decide) rfl rfl (by decide +kernel), rfl, by decide +kernel⟩,
    ⟨pgEvent1 .pgClrcnt (page1 3 0 0 7 2 none false), _, pgTurn_of (by decide) rfl rfl (by decide +kernel), rfl, by decide +kernel⟩,
    ⟨pgEvent1 .pgMove (page1 1 2 0 7 1 (some [.count 4096]) false), _, 4096, pgTurn_of (by decide) rfl rfl (by decide +kernel), rfl, by decide +kernel⟩⟩

/-- A command of PagesMove on its first frame is that of a MOVE. -/
def Moves (s : State) (c : Cmd) (moving flying : Bool) : Prop :=
  PgTurn .pgMove 1 s c ∧ c.plan = none ∧ s.pgError c = 0 ∧ c.moving = moving ∧ c.flying = flying

/-- The error that the frame of a MOVE meets, and the first frame that is free for it. -/
def codeOf (s : State) (c : Cmd) : Nat := s.moveError (c.frame0 + c.pos) c.tloc (if c.tloc = 5 then c.tchip else 0)
def freeOf (s : State) (c : Cmd) : Nat := (s.freeFrames c.tloc (if c.tloc = 5 then c.tchip else 0)).headD 0

theorem moves_of {s : State} {c : Cmd} {m f : Bool} (h : s.turn = .event .pgMove (.nat 0)) (hc : s.dsp.pg = [c])
    (hm : decide (c.op = 1 ∧ c.plan = none ∧ s.pgError c = 0 ∧ c.moving = m ∧ c.flying = f) = true) : Moves s c m f := by
  obtain ⟨ho, h⟩ := of_decide_eq_true hm
  exact ⟨pgTurn_of (by decide) ‹_› hc ho, h⟩

/-- Frame 11 lies in frame 11 of chip 3. -/
def farFrame (s : State) : State := s.setFrame 11 (BitVec.ofNat 64 (5 * 2 ^ 61 + (3 * 2 ^ 30 + 11) * 2 ^ 12))

/-- PagesMove, MOVE: of a frame that another command moves, one in error, one that is there, one that begins; of one that is held, one
that is pinned meanwhile, one that moves to LPDDR6, one to another chip and one from there. -/
theorem witness_page_moves :
    (∃ s c, Moves s c false false ∧ entryMig (s.frame (c.frame0 + c.pos)) = true) ∧
    (∃ s c, Moves s c false false ∧ entryMig (s.frame (c.frame0 + c.pos)) = false ∧ codeOf s c ≠ 0) ∧
    (∃ s c, Moves s c false false ∧ entryMig (s.frame (c.frame0 + c.pos)) = false ∧ codeOf s c = 0 ∧ s.inTier (c.frame0 + c.pos) c.tloc 0 = true ∧ c.tloc ≠ 5) ∧
    (∃ s c, Moves s c false false ∧ entryMig (s.frame (c.frame0 + c.pos)) = false ∧ codeOf s c = 0 ∧ s.inTier (c.frame0 + c.pos) c.tloc 0 = false ∧ c.tloc ≠ 5) ∧
    (∃ s c, Moves s c true false ∧ s.frameBusy (c.frame0 + c.pos) = true ∧ c.tloc ≠ 5 ∧ entryLoc (s.frame (c.frame0 + c.pos)) ≠ 5) ∧
    (∃ s c, Moves s c true false ∧ FrameFree s (c.frame0 + c.pos) ∧ codeOf s c ≠ 0) ∧
    (∃ s c, Moves s c true false ∧ FrameFree s (c.frame0 + c.pos) ∧ codeOf s c = 0 ∧ s.inTier (c.frame0 + c.pos) c.tloc 0 = false ∧ freeOf s c < 2 ^ 42 ∧
      c.tloc ≠ 5 ∧ frameKey (entryLoc (s.frame (c.frame0 + c.pos))) (entryLocation (s.frame (c.frame0 + c.pos))) = some (hbmKey (7 * 4096)) ∧
      frameKey c.tloc (freeOf s c) = some (lpddrKey (99 * 4096))) ∧
    (∃ s c, Moves s c true false ∧ FrameFree s (c.frame0 + c.pos) ∧ codeOf s c = 0 ∧ c.tloc = 5) ∧
    ∃ s c, Moves s c true false ∧ FrameFree s (c.frame0 + c.pos) ∧ codeOf s c = 0 ∧ c.tloc ≠ 5 ∧ entryLoc (s.frame (c.frame0 + c.pos)) = 5 := by
  let c (loc f : Nat) (m : Bool) : Cmd := page1 1 loc 0 f 1 none m
  let s (c : Cmd) : State := pgEvent1 .pgMove c
  exact ⟨⟨(s (c 2 7 false)).setMig 7 true, c 2 7 false, moves_of rfl rfl (by decide +kernel), by decide +kernel⟩,
    ⟨s (c 1 100 false), c 1 100 false, moves_of rfl rfl (by decide +kernel), by decide +kernel, by decide +kernel⟩,
    ⟨s (c 1 7 false), c 1 7 false, moves_of rfl rfl (by decide +kernel), by decide +kernel⟩,
    ⟨s (c 2 7 false), c 2 7 false, moves_of rfl rfl (by decide +kernel), by decide +kernel⟩,
    ⟨(s (c 2 7 true)).setCore 0 { ce := [{ claims := [7 * 4096 / 64] }] }, c 2 7 true, moves_of rfl rfl (by decide +kernel), by decide +kernel⟩,
    ⟨(s (c 2 7 true)).setFrame 7 (BitVec.ofNat 64 (2 ^ 61 + 2 ^ 59 + 7 * 2 ^ 12)), c 2 7 true, moves_of rfl rfl (by decide +kernel), frameFree_of (by decide +kernel),
      by decide +kernel⟩,
    ⟨s (c 2 7 true), c 2 7 true, moves_of rfl rfl (by decide +kernel), frameFree_of (by decide +kernel), by decide +kernel⟩,
    ⟨s (c 0x35 7 true), c 0x35 7 true, moves_of rfl rfl (by decide +kernel), frameFree_of (by decide +kernel), by decide +kernel, by decide +kernel⟩,
    ⟨farFrame (s (c 2 11 true)), c 2 11 true, moves_of rfl rfl (by decide +kernel), frameFree_of (by decide +kernel), by decide +kernel⟩⟩

/-- A MOVE to frame 99 of chip 3, and one from there to a tier of this chip, of which so many lines are on their way or have come. -/
def sending (line : Nat) : Cmd := { page1 1 0x35 0 7 1 none true with flying := true, line := line, target := 3 * 2 ^ 30 + 99 }
def fetching (tier line : Nat) : Cmd := { page1 1 tier 0 11 1 none true with flying := true, line := line, target := 99 }

/-- Its turn, with these lines under way. -/
def moving1 (c : Cmd) (l : List Forward) : State :=
  let s := farFrame (pgEvent1 .pgMove c)
  { s with fab := { s.fab with fwd := l } }

/-- A line of it that is sent, and one that is asked for, with the answer. -/
def sentLine (r : Option (List Byte × Bool)) : Forward :=
  { tag := 0, chip := 3, owner := .engine 1, pa := 0x7000, n := 64, write := true, asid := 1, grid := 1, reply := r }
def askedLine (i : Nat) (p : Bool) : Forward :=
  { tag := i, chip := 3, owner := .engine 1, pa := 0xB000 + 64 * i, n := 64, write := false, asid := 1, grid := 1, reply := some (List.replicate 64 7, p) }

/-- PagesMove, MOVE between chips: the chip or the frame is lost; a line that an engine holds, one that is sent, one that is asked for;
lines that have not come, that have, that would carry poison to host memory, and that bring the frame. -/
theorem witness_line_moves :
    (∃ s c, Moves s c true true ∧ c.tloc = 5 ∧ s.fab.members.contains c.tchip = false) ∧
    (∃ s c, Moves s c true true ∧ s.fab.members.contains c.tchip = true ∧ entryLoc (s.frame (c.frame0 + c.pos)) = 7) ∧
    (let c := sending 5
     let s := moving1 c []
     let t := s.setCore 0 { ce := [{ claims := [7 * 64 + 5] }] }
     Moves s c true true ∧ Moves t c true true ∧ s.fab.members.contains c.tchip = true ∧ entryLoc (s.frame 7) ≠ 7 ∧ c.line < 64 ∧
      c.frame0 + c.pos = 7 ∧ t.claimed (7 * 64 + 5) = true ∧ s.claimed (7 * 64 + 5) = false ∧ s.unread (7 * 64 + 5) = false ∧
      frameKey (entryLoc (s.frame 7)) (entryLocation (s.frame 7)) = some (hbmKey 0x7000) ∧
      SMap.get false s.bad (hbmKey 0x7000 / 64 + 5) = false) ∧
    (let c := fetching 2 63
     let s := moving1 c []
     Moves s c true true ∧ c.tloc ≠ 5 ∧ entryLoc (s.frame 11) ≠ 7 ∧ c.frame0 + c.pos = 11 ∧ s.claimed (11 * 64 + 63) = false ∧
      s.unread (11 * 64 + 63) = false ∧ frameKey (entryLoc (s.frame 11)) (entryLocation (s.frame 11)) = none) ∧
    (let c := sending 64
     Moves (moving1 c [sentLine none]) c true true ∧ Moves (moving1 c [sentLine (some ([], false))]) c true true ∧
      (∃ y ∈ (moving1 c [sentLine none]).flights c, y.reply = none) ∧ c.target < 2 ^ 42 ∧
      ∀ y ∈ (moving1 c [sentLine (some ([], false))]).flights c, y.write = true ∧ y.reply = some ([], false)) ∧
    (let c := fetching 3 64
     let s := moving1 c [askedLine 0 false, askedLine 1 true]
     Moves s c true true ∧ c.tloc = 3 ∧ (∀ y ∈ s.flights c, y.reply ≠ none) ∧
      ∃ y ∈ s.flights c, y.write = false ∧ y.reply = some (List.replicate 64 7, true)) ∧
    (let c := fetching 2 64
     let s := moving1 c [askedLine 0 false, askedLine 63 true]
     Moves s c true true ∧ frameKey c.tloc c.target = some (lpddrKey (99 * 4096)) ∧ c.tloc ≤ 3 ∧ c.target < 2 ^ 42 ∧
      (∀ y ∈ s.flights c, y.write = false ∧ ∃ bs p, y.reply = some (bs, p) ∧ bs.length = 64 ∧ (c.tloc = 3 → p = false)) ∧
      (s.flights c).Pairwise (fun y z => y.pa % 4096 / 64 ≠ z.pa % 4096 / 64)) := by
  let lost : State := { moving1 (sending 5) [] with fab := { base.fab with members := [0] } }
  refine ⟨⟨lost, sending 5, moves_of rfl rfl (by decide +kernel), by decide +kernel⟩,
    ⟨(moving1 (sending 5) []).setFrame 7 (BitVec.ofNat 64 (7 * 2 ^ 61)), sending 5, moves_of rfl rfl (by decide +kernel), by decide +kernel⟩,
    ⟨moves_of rfl rfl (by decide +kernel), moves_of rfl rfl (by decide +kernel), by decide +kernel⟩,
    ⟨moves_of rfl rfl (by decide +kernel), by decide +kernel⟩,
    ⟨moves_of rfl rfl (by decide +kernel), moves_of rfl rfl (by decide +kernel), by decide +kernel⟩,
    ⟨moves_of rfl rfl (by decide +kernel), by decide +kernel⟩,
    ⟨moves_of rfl rfl (by decide +kernel), by decide +kernel, by decide +kernel, by decide +kernel, ?_, by decide +kernel⟩⟩
  intro y hy
  have h : (moving1 (fetching 2 64) [askedLine 0 false, askedLine 63 true]).flights (fetching 2 64) = [askedLine 0 false, askedLine 63 true] := by
    decide +kernel
  rw [h] at hy
  simp only [List.mem_cons, List.not_mem_nil, or_false] at hy
  rcases hy with rfl | rfl
  · exact ⟨rfl, _, _, rfl, by decide, fun e => absurd e (by decide +kernel)⟩
  · exact ⟨rfl, _, _, rfl, by decide, fun e => absurd e (by decide +kernel)⟩

/-- The turn of a tier's demotion, which is below its low watermark. -/
def Demotes (s : State) (tier : Nat) : Prop :=
  s.turn = .event .demotion (.nat tier) ∧ (tier = 1 ∨ tier = 2 ∨ tier = 3) ∧
    ((s.freeFrames tier 0).length < SMap.get 0 s.dsp.low tier ∨ tier ∈ s.dsp.demoting)

/-- That turn with these free frames and victims. -/
def demoting (tier : Nat) (free victims : SMap (List Nat)) : State := event (paging [] free victims) .demotion (.nat tier)

theorem demotes_of {s : State} {tier : Nat} (h : s.turn = .event .demotion (.nat tier)) (ht : tier = 1 ∨ tier = 2 ∨ tier = 3)
    (hf : decide ((s.freeFrames tier 0).length < SMap.get 0 s.dsp.low tier) = true) : Demotes s tier := ⟨h, ht, .inl (of_decide_eq_true hf)⟩

/-- PagesMove, demotion from the ring: no victim; one that is not of the tier; one that begins to migrate. -/
theorem witness_demotion :
    (∃ s, Demotes s 3 ∧ SMap.get 0 s.dsp.victim 3 = 0 ∧ SMap.get [] s.dsp.victims 3 = []) ∧
    (∃ s, Demotes s 2 ∧ SMap.get 0 s.dsp.victim 2 = 0 ∧ SMap.get [] s.dsp.victims 2 = [7] ∧ (s.freeFrames 2 0).length < SMap.get 0 s.dsp.high 2 ∧
      (∀ k ∈ s.frameLines 7, SMap.get false s.bad k = false) ∧ entryLoc (s.frame 7) ≠ 2) ∧
    ∃ s, Demotes s 1 ∧ SMap.get 0 s.dsp.victim 1 = 0 ∧ SMap.get [] s.dsp.victims 1 = [7] ∧ (s.freeFrames 1 0).length < SMap.get 0 s.dsp.high 1 ∧
      (∀ k ∈ s.frameLines 7, SMap.get false s.bad k = false) ∧ entryLoc (s.frame 7) = 1 ∧ entryPin (s.frame 7) = false ∧ entryMig (s.frame 7) = false :=
  ⟨⟨demoting 3 [] [], demotes_of rfl (by decide) (by decide +kernel), by decide +kernel, by decide +kernel⟩,
   ⟨demoting 2 [] [(2, [7])], demotes_of rfl (by decide) (by decide +kernel), by decide +kernel⟩,
   ⟨demoting 1 [] [(1, [7])], demotes_of rfl (by decide) (by decide +kernel), by decide +kernel⟩⟩

/-- Frame 8 migrates from LPDDR6. -/
def migrating (free : SMap (List Nat)) : State := (demoting 2 free []).setVictim 2 (some 8)

/-- PagesMove, a frame that migrates: it is held, it is poisoned, no frame is free for it, and it moves. -/
theorem witness_migration :
    (∃ s, Demotes s 2 ∧ SMap.get 0 s.dsp.victim 2 = 8 + 1 ∧ s.frameBusy 8 = true) ∧
    (∃ s, Demotes s 2 ∧ SMap.get 0 s.dsp.victim 2 = 8 + 1 ∧ FrameFree s 8 ∧ s.framePsn 8 = true) ∧
    (∃ s, Demotes s 2 ∧ SMap.get 0 s.dsp.victim 2 = 8 + 1 ∧ FrameFree s 8 ∧ s.framePsn 8 = false ∧ s.freeFrames 3 0 = []) ∧
    ∃ s, Demotes s 2 ∧ SMap.get 0 s.dsp.victim 2 = 8 + 1 ∧ FrameFree s 8 ∧ s.framePsn 8 = false ∧ s.freeFrames 3 0 = [99] ∧ entryLoc (s.frame 8) = 2 ∧
      frameKey 2 (entryLocation (s.frame 8)) = some (lpddrKey (8 * 4096)) ∧ frameKey 3 99 = some (hostKey (99 * 4096)) :=
  ⟨⟨(migrating []).setCore 0 { ce := [{ claims := [8 * 4096 / 64] }] }, demotes_of rfl (by decide) (by decide +kernel), by decide +kernel, by decide +kernel⟩,
    ⟨(migrating []).setLine (lpddrKey (8 * 4096) / 64) { poison := true }, demotes_of rfl (by decide) (by decide +kernel), by decide +kernel, frameFree_of (by decide +kernel), by decide +kernel⟩,
    ⟨migrating [], demotes_of rfl (by decide) (by decide +kernel), by decide +kernel, frameFree_of (by decide +kernel), by decide +kernel, by decide +kernel⟩,
    ⟨migrating [(3, [99])], demotes_of rfl (by decide) (by decide +kernel), by decide +kernel, frameFree_of (by decide +kernel), by decide +kernel, by decide +kernel, by decide +kernel,
      by decide +kernel, rfl⟩⟩

/-- Page 1 of context 1 is to be regenerated by slot 3 into frame 7, and grid 2 has run with status st. -/
def regenerating (st : Option Nat) : State :=
  let s := (paging [] [] []).putBytes (hbmKey 0x5008) (leBytes 8 0x0300000000007046)
  { s.setGrid 2 { live := true, asid := 1, regen := some (0x1000, 1), regenStatus := st } with turn := .event .regenerationComplete (.nat2 1 0x1000) }

/-- The page's grid is there, and has ended with a status or runs. -/
def Regenerates (s : State) (st : Option Nat) : Prop :=
  s.turn = .event .regenerationComplete (.nat2 1 0x1000) ∧ s.regenGrid 1 0x1000 = some 2 ∧ (s.grid 2).regenStatus = st

theorem regenerates_of (st : Option Nat) (h : (regenerating st).regenGrid 1 0x1000 = some 2 ∧ ((regenerating st).grid 2).regenStatus = st) :
    Regenerates (regenerating st) st := ⟨rfl, h⟩

theorem ok_of {ε : Type} {x : Except ε Nat} (h : x.toOption.isSome = true) : x = .ok (x.toOption.getD 0) := by
  cases x with
  | error e => cases h
  | ok v => rfl

/-- Whether a walk waits. -/
def waits (w : Walk) : Bool :=
  match w with
  | .wait _ => true
  | _ => false

theorem waits_of {w : Walk} (h : waits w = true) : ∃ b, w = .wait b := by
  cases w with
  | wait b => exact ⟨b, rfl⟩
  | _ => cases h

/-- PagesMove, pages that are read back and regenerated. -/
theorem witness_pages :
    (∃ s : State, s.turn = .event .pageReadback (.nat3 7 1 5) ∧ entryLoc (s.frame 7) ≠ 4) ∧
    (∃ s : State, s.turn = .event .pageReadback (.nat3 10 0 5) ∧ entryLoc (s.frame 10) = 4) ∧
    (∃ s : State, s.turn = .event .pageReadback (.nat3 10 1 5) ∧ entryLoc (s.frame 10) = 4) ∧
    (∃ s, Regenerates s none) ∧ (∃ s, Regenerates s (some 4) ∧ s.pageWaiters 1 0x1000 = false) ∧
    (∃ s, Regenerates s (some 4) ∧ s.pageWaiters 1 0x1000 = true) ∧ (∃ s b, Regenerates s (some 0) ∧ (s.walk 1 0x1000).1 = .wait b) ∧
    ∃ s e, Regenerates s (some 0) ∧ (s.walk 1 0x1000).1 = .regen 0x1000 3 0x7000 0x5008 ∧ s.readEntry 0x5008 = .ok e ∧
      PlainPlace s (.pa 0x5008) 8 (hbmKey 0x5008) ∧ s.mustWait 0 true [(.pa 0x5008, 8)] = false := by
  let stored : State := (regenerating (some 0)).setFrame 5 (BitVec.ofNat 64 (4 * 2 ^ 61 + 5 * 2 ^ 12))
  obtain ⟨b, hb⟩ := waits_of (w := (stored.walk 1 0x1000).1) (by decide +kernel)
  refine ⟨⟨event (paging [] [] []) .pageReadback (.nat3 7 1 5), rfl, by decide +kernel⟩,
    ⟨event (paging [] [] []) .pageReadback (.nat3 10 0 5), rfl, by decide +kernel⟩,
    ⟨event (paging [] [] []) .pageReadback (.nat3 10 1 5), rfl, by decide +kernel⟩,
    ⟨_, regenerates_of none (by decide +kernel)⟩, ⟨_, regenerates_of (some 4) (by decide +kernel), by decide +kernel⟩,
    ⟨(regenerating (some 4)).setSeq tk1 { (base.team tk1).seq with wait := some (.page (.regen 1 0x1000) false) }, ⟨rfl, by decide +kernel⟩, by decide +kernel⟩,
    ⟨stored, b, ⟨rfl, by decide +kernel⟩, hb⟩,
    ⟨_, _, regenerates_of (some 0) (by decide +kernel), by decide +kernel, ok_of (by decide +kernel), ?_, by decide +kernel⟩⟩
  unfold PlainPlace
  decide +kernel

/-- The inbox holds flits of chip 3. -/
def forwardedTo (s : State) (bs : List FlitBody) : State :=
  event { s with fab := { s.fab with inbox := bs.map (fun b => ⟨0, 3, 0, 0, 0, b⟩) } } .forwardedAccess (.nat (bs.length - 1))
def forwarded (bs : List FlitBody) : State := forwardedTo base bs

/-- The same with the line that it names claimed, and with an access that waits at that line. -/
def forwardedHeld (b : FlitBody) : State := (forwarded [b]).setCore 0 { ce := [{ claims := [0x6010 / 64] }] }
def forwardedLast (b : FlitBody) : State :=
  { forwarded [b] with parked := [⟨tk1, [0], 0, [{ agent := .lane tk1 0, va := 0x10, runs := [(.pa 0x6010, 4)], op := .store 4 1 false }], true⟩] }

/-- A read, a write, an atomic step and a line that is asked for. -/
def bodies : List FlitBody :=
  [.fwdRead 9 0x6010 16, .fwdWrite 9 0x6010 [1, 2] false true, .fwdAtom 9 0x6010 0 1 1 0 false true, .moveAsk 9 0x6040]

/-- PagesMove, forwarded accesses: one behind another of its source; reads and writes that wait, for a claim or behind another access;
each kind; and poison for host memory. -/
theorem witness_forwarded :
    (∃ (s : State) (f : Flit), s.turn = .event .forwardedAccess (.nat 1) ∧ s.fab.inbox.drop 1 = [f] ∧ ∃ x ∈ s.fab.inbox.take 1, x.src = f.src) ∧
    (∀ b, ∀ x ∈ (forwarded [b]).fab.fwd, x.owner ≠ .flit 3 9) ∧ isFramePa 0x6010 = true ∧ isFramePa 0x6040 = true ∧ isFramePa 0x9000 = true ∧
    (∀ b ∈ bodies, (forwardedHeld b).mustWait 0 false [(.pa 0x6010, 16)] = true ∧ (forwardedHeld b).mustWait 0 true [(.pa 0x6010, 2)] = true ∧
      (forwardedHeld b).mustWait 0 true [(.pa 0x6000, 64)] = true ∧
      (forwardedLast b).queuedBefore (forwardedLast b).parked.length (.pa 0x6010) = true) ∧
    (∀ b ∈ bodies, (forwarded [b]).mustWait 0 false [(.pa 0x6010, 16)] = false ∧ (forwarded [b]).mustWait 0 true [(.pa 0x6010, 4)] = false ∧
      (forwarded [b]).mustWait 0 true [(.pa 0x6040, 64)] = false ∧
      (forwarded [b]).queuedBefore (forwarded [b]).parked.length (.pa 0x6010) = false ∧
      (forwarded [b]).queuedBefore (forwarded [b]).parked.length (.pa 0x6040) = false ∧ (forwarded [b]).inHost (.pa 0x6010) = false) ∧
    PlainPlace (forwarded [.fwdRead 9 0x6010 16]) (.pa 0x6010) 16 (hbmKey 0x6010) ∧
    PlainPlace (forwarded [.fwdWrite 9 0x6010 [1, 2] false true]) (.pa 0x6010) 2 (hbmKey 0x6010) ∧
    PlainPlace (forwarded [.move 9 0x6040 (List.replicate 64 7) true 5 6]) (.pa 0x6040) 64 (hbmKey 0x6040) ∧
    PlainPlace (forwarded [.moveAsk 9 0x6040]) (.pa 0x6040) 64 (hbmKey 0x6040) ∧
    (PlainPlace (forwarded [.fwdAtom 9 0x6010 0 1 1 0 false true]) (.pa 0x6010) (atomWidth 1 / 8) (hbmKey 0x6010) ∧
      hbmKey 0x6010 % (atomWidth 1 / 8) = 0 ∧ atomWidth 1 / 8 = 4) ∧
    (let s := forwardedTo (paging [] [] []) [.fwdWrite 9 0x9000 [1, 2] true true]
     PlainPlace s (.pa 0x9000) 2 (hostKey 0x9000) ∧ s.inHost (.pa 0x9000) = true ∧ s.mustWait 0 true [(.pa 0x9000, 2)] = false ∧
      s.queuedBefore s.parked.length (.pa 0x9000) = false) ∧
    (let s := forwardedTo (paging [] [] []) [.move 9 0x9000 (List.replicate 64 7) true 5 6]
     PlainPlace s (.pa 0x9000) 64 (hostKey 0x9000) ∧ s.inHost (.pa 0x9000) = true) := by
  refine ⟨⟨forwarded [.fwdRead 8 0 8, .fwdRead 9 8 8], _, rfl, rfl, by decide +kernel⟩, (fun b x hx => nomatch hx), by decide, by decide, by decide,
    ?_, ?_, ?_, ?_, ?_, ?_, ?_, ?_, ?_⟩
  all_goals try unfold PlainPlace
  all_goals decide +kernel

/-! ## Witnesses: the exchange -/

/-- The view of chips 0, 1 and 3, in which this chip is 0, at tick 10, with a schedule of four ticks. -/
def viewed (f : Fabric → Fabric) : State :=
  let g : Fabric := { base.fab with tick := 10, quota := 64, vnum := 6, members := [0, 1, 3], loaded := true }
  { base with fab := f { g with schedule := [(0x11, 100, [1, 1, 1, 1]), (0x15, 100, [1, 1, 1, 1])] } }

/-- ALLRED, or another operation, of two 8-byte integers from byte 64 of the window to byte 0. -/
def collective (op status code : Nat) : Cmd :=
  { command1 [op + 3 * 2 ^ 12 + 2 ^ 20 + 2 * 2 ^ 32, windowBase, windowBase + 64, 0, 9, 0, 0, 0] none with status := status, code := code, count0 := 3 }

/-- That command is queued and has its event's turn. -/
def exchanging (c : Cmd) (f : Fabric → Fabric) : State := event (viewed (fun g => f { g with xeq := [c] })) .allred (.nat 0)

/-- Its source can not be read; its arrival word stands at a. -/
def sourceless (a : Nat) : Cmd := { command1 [0x11 + 3 * 2 ^ 12 + 2 * 2 ^ 32, windowBase, 2 ^ 62, a, 9] none with count0 := 3 }

/-- The turn of a command's event that is not an operation in flight. -/
def XeTurn (s : State) (c : Cmd) : Prop :=
  s.turn = .event .allred (.nat 0) ∧ s.fab.xeq.drop 0 = [c] ∧ c.op = 0x11 ∧ ∀ x ∈ s.fab.xe, x.cmd.num ≠ c.num

theorem xeTurn_of {s : State} {c : Cmd} (h : s.turn = .event .allred (.nat 0)) (hq : s.fab.xeq = [c]) (hx : s.fab.xe = [])
    (ho : c.op = 0x11) : XeTurn s c := ⟨h, by rw [hq]; rfl, ho, by rw [hx]; exact fun _ h => nomatch h⟩

/-- The stretches that a command sends. -/
def sentFrom (s : State) (c : Cmd) : List (Nat × Nat) :=
  (c.xeRegions s.fab.chip c.count0).2.flatMap (fun r => copyStretches r.1 r.1 r.2)

/-- Nothing stands in the way of a command's error. -/
def Reports (s : State) (c : Cmd) : Prop :=
  c.fw = false ∧ s.arrivePlace c.team c.arriveAddr = none ∧ (s.team c.team).seq.exited = false ∧ SeqHandled s c.team

/-- ExchangeOperationsRun, commands: a code that waits or not, and a status. -/
theorem witness_exchange_codes :
    (∃ s c, XeTurn s c ∧ c.code ≠ 0 ∧ s.errorWaits c = true) ∧ (∃ s c, XeTurn s c ∧ c.code ≠ 0 ∧ Reports s c) ∧
    ∃ s c, XeTurn s c ∧ c.code = 0 ∧ c.status ≠ 0 := by
  let late : Cmd := { sourceless (windowBase + 16) with code := 1 }
  exact ⟨⟨(exchanging late id).setCore 0 { ce := [first] }, late, xeTurn_of rfl rfl rfl (by decide +kernel), by decide, by decide +kernel⟩,
    ⟨exchanging (collective 0x11 0 1) id, collective 0x11 0 1, xeTurn_of rfl rfl rfl (by decide +kernel), by decide,
      rfl, by decide +kernel, by decide +kernel, ⟨by decide +kernel, by decide +kernel⟩⟩,
    ⟨exchanging (collective 0x11 4 0) id, collective 0x11 4 0, xeTurn_of rfl rfl rfl (by decide +kernel), rfl, by decide⟩⟩

/-- A command that is taken up. -/
def Taken (s : State) (c : Cmd) : Prop := XeTurn s c ∧ c.code = 0 ∧ c.status = 0

/-- ExchangeOperationsRun, commands: sources that are claimed, that lie in storage, that are read, and that can not be read where the
error waits or not. -/
theorem witness_exchange_sources :
    (∃ s c, Taken s c ∧ s.srcWaits c.num c.srcs = true) ∧
    (∃ s c bs p u, Taken s c ∧ s.srcWaits c.num c.srcs = false ∧ s.readStretches c (sentFrom s c) = (bs, some p, u)) ∧
    (∃ s c bs u, Taken s c ∧ s.srcWaits c.num c.srcs = false ∧ s.readStretches c (sentFrom s c) = (bs, none, u) ∧ bs ≠ [] ∧ ∀ b ∈ bs, b.err = none) ∧
    (∃ s c bs u e, Taken s c ∧ s.srcWaits c.num c.srcs = false ∧ s.readStretches c (sentFrom s c) = (bs, none, u) ∧ lowestErr bs = some e ∧
      s.errorWaits c = true) ∧
    ∃ s c bs u e, Taken s c ∧ s.srcWaits c.num c.srcs = false ∧ s.readStretches c (sentFrom s c) = (bs, none, u) ∧ lowestErr bs = some e ∧
      s.arrivePlace c.team c.arriveAddr = none ∧ Reports u c := by
  let c := collective 0x11 0 0
  let held : Cmd := { c with srcs := [spad0 / 64] }
  let kept : Cmd := { command1 [0x11 + 3 * 2 ^ 12 + 2 * 2 ^ 32, windowBase, 0x1000, 0, 9] none with count0 := 3 }
  let away : State := ((exchanging kept id).setFrame 10 (BitVec.ofNat 64 (4 * 2 ^ 61 + 10 * 2 ^ 12))).putBytes (hbmKey 0x5008) (leBytes 8 0xA007)
  obtain ⟨p, hp⟩ := waiting_of (x := away.readStretches kept (sentFrom away kept)) (by decide +kernel)
  exact ⟨⟨(exchanging held id).setCore 0 { ce := [first] }, held, ⟨xeTurn_of rfl rfl rfl (by decide +kernel), rfl, rfl⟩, by decide +kernel⟩,
    ⟨away, kept, _, p, _, ⟨xeTurn_of rfl rfl rfl (by decide +kernel), rfl, rfl⟩, by decide +kernel, hp⟩,
    ⟨exchanging c id, c, _, _, ⟨xeTurn_of rfl rfl rfl (by decide +kernel), rfl, rfl⟩, by decide +kernel, triple_of (by decide +kernel), by decide +kernel, by decide +kernel⟩,
    ⟨(exchanging (sourceless (windowBase + 16)) id).setCore 0 { ce := [first] }, sourceless (windowBase + 16), _, _, (2, 4, 2 ^ 62),
      ⟨xeTurn_of rfl rfl rfl (by decide +kernel), rfl, rfl⟩, by decide +kernel, triple_of (by decide +kernel), by decide +kernel, by decide +kernel⟩,
    ⟨exchanging (sourceless 0) id, sourceless 0, _, _, (2, 4, 2 ^ 62), ⟨xeTurn_of rfl rfl rfl (by decide +kernel), rfl, rfl⟩, by decide +kernel,
      triple_of (by decide +kernel), by decide +kernel, by decide +kernel, rfl, by decide +kernel, by decide +kernel, ⟨by decide +kernel, by decide +kernel⟩⟩⟩

/-- The READY flit of another party, which agrees where the operation code is the command's. -/
def readyBody (op : Nat) (aborted : Bool) : ReadyBody := ⟨9, op, 0, 3, 2, 1, 0, 6, 3, aborted⟩

/-- An operation in flight: both other parties are ready since tick 3; begun at tick b, or not. -/
def inFlight (op : Nat) (r : ReadyBody) (b : Option Nat) (plan : Option (List PlanItem)) : XeOp :=
  { cmd := { collective op 0 0 with plan := plan }, frame := 6, parties := if op = 0x11 then [0, 1, 3] else [0, 1]
    src := (leBytes 16 5).map (fun x => (x, false)), ready := some 3, readys := [(1, 3, r), (3, 3, r)], begun := b
    data := if b.isSome then [(1, (leBytes 16 7).map (fun x => (x, false))), (3, (leBytes 16 9).map (fun x => (x, true)))] else []
    taking := if b.isSome then (if op = 0x11 then [0, 1, 3] else [0, 1]) else [], rerun := false, aborted := false }

/-- That operation, the turn of its event. -/
def flying (i : Instr) (x : XeOp) (tick : Nat) : State := event (viewed (fun g => { g with tick := tick, xe := [x] })) i (.nat 1)

/-- The operation has the turn of its event i. -/
def OpTurn (i : Instr) (s : State) (x : XeOp) : Prop := s.turn = .event i (.nat 1) ∧ s.xeOp 1 = some x

/-- ExchangeOperationsRun, beginnings: one not due, one that runs (SEND, so to one party), one that is aborted here, that a party
aborts, whose sizes no longer fit, and one that the parties disagree on. -/
theorem witness_exchange_begins :
    let ready := fun (s : State) (x : XeOp) => OpTurn .collectiveBegin s x ∧ x.due s.fab = true
    (∃ s x, OpTurn .collectiveBegin s x ∧ x.due s.fab = false) ∧
    (∃ s x p, ready s x ∧ x.aborted = false ∧ (∀ r ∈ x.bodies s.fab.chip, r.aborted = false ∧ x.agrees s.fab.chip r = true) ∧ x.sized s.fab.chip = true ∧
      ({ x with begun := some s.fab.tick, taking := x.parties, data := [], heard := 0, rerun := false } : XeOp).sendsTo s.fab.chip = [p] ∧
      (s.fab.row x.cmd).isSome = true) ∧
    (∃ s x, ready s x ∧ x.aborted = true) ∧ (∃ s x r, ready s x ∧ r ∈ x.bodies s.fab.chip ∧ r.aborted = true) ∧
    (∃ s x, ready s x ∧ (∀ r ∈ x.bodies s.fab.chip, x.agrees s.fab.chip r = true) ∧ x.sized s.fab.chip = false) ∧
    ∃ s x r, ready s x ∧ x.aborted = false ∧ (∀ r ∈ x.bodies s.fab.chip, r.aborted = false) ∧ r ∈ x.bodies s.fab.chip ∧ x.agrees s.fab.chip r = false := by
  let s (x : XeOp) (tick : Nat) : State := flying .collectiveBegin x tick
  let sent := inFlight 0x15 { readyBody 0x16 false with peer := 0 } none none
  let ends := inFlight 0x11 (readyBody 0x11 true) none none
  let other := inFlight 0x11 (readyBody 0x12 false) none none
  let own : XeOp := { inFlight 0x11 (readyBody 0x11 false) none none with aborted := true }
  exact ⟨⟨s ends 4, ends, ⟨rfl, rfl⟩, by decide +kernel⟩, ⟨s sent 10, sent, 1, ⟨⟨rfl, rfl⟩, by decide +kernel⟩, rfl, by decide +kernel⟩,
    ⟨s own 10, own, ⟨⟨rfl, rfl⟩, by decide +kernel⟩, rfl⟩, ⟨s ends 10, ends, readyBody 0x11 true, ⟨⟨rfl, rfl⟩, by decide +kernel⟩, by decide +kernel, rfl⟩,
    ⟨{ s (inFlight 0x13 (readyBody 0x13 false) none none) 10 with fab := { (s (inFlight 0x13 (readyBody 0x13 false) none none) 10).fab with schedule := [(0x13, 100, [1, 1, 1, 1])] } }, _,
      ⟨⟨rfl, rfl⟩, by decide +kernel⟩, by decide +kernel, by decide +kernel⟩,
    ⟨s other 10, other, readyBody 0x12 false, ⟨⟨rfl, rfl⟩, by decide +kernel⟩, rfl, by decide +kernel⟩⟩

/-- ExchangeOperationsRun, completions: one not finished, one that a view precedes, one finished, one in error, a write that waits, one
that is the last and one that is not. -/
theorem witness_exchange_completes :
    let completes := fun (s : State) (x : XeOp) => OpTurn .collectiveComplete s x
    let write := fun (s : State) (x : XeOp) (u : State) => s.checkAccess (s.cmdWho x.cmd) x.cmd.core .store true true true windowBase 2 = (.ok [(.spad tk1 0 0, 2)], u)
    (∃ s x, completes s x ∧ x.cmd.plan = none ∧ x.finished s.fab = false) ∧ (∃ s x, completes s x ∧ x.cmd.plan = none ∧ s.fab.viewDue = true) ∧
    (∃ s x, completes s x ∧ x.cmd.plan = none ∧ x.finished s.fab = true ∧ s.fab.viewDue = false ∧ x.cmd.result = 0 ∧
      x.cmd.dst + (x.output s.fab.chip).length ≤ 2 ^ 64 ∧ ∀ b ∈ x.output s.fab.chip, b.err = none ∧ b.mask ≠ 0) ∧
    (∃ s x, completes s x ∧ x.cmd.plan = some [.fail 7 0 0] ∧ Reports s x.cmd) ∧
    (∃ s x u, completes s x ∧ x.cmd.plan = some [write2] ∧ write s x u ∧ u.engineWaits x.cmd [(.spad tk1 0 0, 2)] = true) ∧
    ∀ more ∈ [[], [PlanItem.count 2, write2]], ∃ s x u, completes s x ∧ x.cmd.plan = some (write2 :: more) ∧ write s x u ∧ s.xeOp 1 = u.xeOp 1 ∧
      PlainPlace u (.spad tk1 0 0) 2 (spadKey tk1 0 0) ∧ u.engineWaits x.cmd [(.spad tk1 0 0, 2)] = false ∧ u.inHost (.spad tk1 0 0) = false ∧
      x.cmd.arriveAddr = 0 ∧ ∀ y ∈ u.fab.fwd, y.owner ≠ .engine 1 := by
  let x (plan : Option (List PlanItem)) : XeOp := inFlight 0x11 (readyBody 0x11 false) (some 10) plan
  let s (x : XeOp) (tick : Nat) : State := flying .collectiveComplete x tick
  let due : State := { s (x none) 14 with fab := { (s (x none) 14).fab with round := some 7 } }
  refine ⟨⟨s (x none) 13, x none, ⟨rfl, rfl⟩, rfl, by decide +kernel⟩, ⟨due, x none, ⟨rfl, rfl⟩, rfl, by decide +kernel⟩,
    ⟨s (x none) 14, x none, ⟨rfl, rfl⟩, rfl, by decide +kernel⟩,
    ⟨s (x (some [.fail 7 0 0])) 14, x (some [.fail 7 0 0]), ⟨rfl, rfl⟩, rfl, rfl, by decide +kernel, by decide +kernel, ⟨by decide +kernel, by decide +kernel⟩⟩,
    ⟨(s (x (some [write2])) 14).setCore 0 { ce := [first] }, x (some [write2]), _, ⟨rfl, rfl⟩, rfl, pair_of (by decide +kernel), by decide +kernel⟩, ?_⟩
  intro more h
  refine ⟨s (x (some (write2 :: more))) 14, x (some (write2 :: more)), _, ⟨rfl, rfl⟩, rfl, pair_of ?_, ?_, ?_, ?_, ?_, ?_, ?_⟩
  all_goals try unfold PlainPlace
  all_goals revert more; decide +kernel

/-- ExchangeOperationsRun, results: a sum of three parties, and each kind that copies. -/
theorem witness_exchange_results :
    let r := readyBody 0x11 false
    (∃ (x : XeOp) (sg : Bool) (w : Nat), x.rerun = false ∧ x.cmd.rop = 0 ∧ x.cmd.op = 0x11 ∧ laneKind x.cmd.ty = .int sg w ∧ x.taking ≠ []) ∧
    (inFlight 0x14 r (some 10) none).cmd.op = 0x14 ∧ (inFlight 0x15 r (some 10) none).cmd.op = 0x15 ∧
    ∃ x : XeOp, x.cmd.op = 0x13 ∧ x.parties ≠ [] ∧ ∀ p ∈ x.parties, p ∈ x.taking :=
  ⟨⟨inFlight 0x11 (readyBody 0x11 false) (some 10) none, true, 64, rfl, by decide +kernel⟩,
    by decide +kernel, by decide +kernel, ⟨inFlight 0x13 (readyBody 0x11 false) (some 10) none, by decide +kernel⟩⟩

/-! ## Witnesses: ticks, views and ports -/

/-- A flit from chip 3 to chip 0. -/
def flit0 (b : FlitBody) : Flit := ⟨0, 3, 6, 9, 0, b⟩

/-- A boundary whose deliveries are given, of a fabric that f makes. -/
def ticking (f : Fabric → Fabric) (l : List Flit) : State := event (viewed f) .tickBoundary (.flits l)

/-- A forwarded access to chip 3, of tag 5. -/
def forward5 (write : Bool) (o : FwdFor) : Forward := { tag := 5, chip := 3, owner := o, pa := 0x6010, n := 8, write := write, asid := 1, grid := 1 }

/-- TicksViewsAndPorts, boundaries: one that waits; one at which a flit leaves; flits delivered out of sequence, of a source whose
numbers begin anew, of another view, of a beacon, and of a suspicion on an isolated chip; the answers to a read, to a line move, to a
write and to no access; and an operation whose parts go on. -/
theorem witness_ticks :
    let plain := fun (s : State) (l : List Flit) => (l ++ s.fab.outbox.map (·.2)).all (fun x => match x.body with
      | .fwdReply _ _ _ h o => h.isNone && o.isNone
      | _ => true)
    let takes := fun (s : State) (l : List Flit) => s.turn = .event .tickBoundary (.flits l) ∧ s.fab.pending = false ∧ s.fab.olds = [] ∧
      s.fab.refused = [] ∧ plain s l = true
    let delivers := fun (s : State) (x : Flit) => takes s [x] ∧ x.fits = true ∧ x.dst = s.fab.chip ∧ ∀ y ∈ s.fab.outbox, y.2.dst ≠ s.fab.chip
    let anew := fun (s : State) (x : Flit) => ∃ y ∈ s.fab.seqFresh, y.1 = x.src ∧ y.2 ≤ fullTick (s.fab.tick + 1) x.tick
    (∃ (s : State) (l : List Flit), s.turn = .event .tickBoundary (.flits l) ∧ s.fab.pending = true) ∧
    (∃ s x, takes s [] ∧ s.fab.outbox = [(s.fab.tick, x)]) ∧
    (∃ s x, delivers s x ∧ s.fab.member = true ∧ s.fab.isol = false ∧ ¬ anew s x ∧ x.seq ≠ SMap.get 0 s.fab.seqIn x.src) ∧
    (∃ s x, delivers s x ∧ s.fab.member = true ∧ s.fab.isol = false ∧ anew s x ∧ x.seq ≠ 0) ∧
    (∃ s x, delivers s x ∧ x.body.tagged = true ∧ x.vtag ≠ s.fab.vnum.toNat % 2 ^ 16) ∧
    (∃ s x, delivers s x ∧ x.vtag = s.fab.vnum.toNat % 2 ^ 16 ∧ x.body = .beacon) ∧
    (∃ s x c t, delivers s x ∧ s.fab.isol = true ∧ x.body = .suspect c t) ∧
    (∀ y ∈ [forward5 false (.agent (.lane tk1 0)), forward5 true (.engine 1), forward5 true (.agent (.lane tk1 0))], ∀ tag ∈ [5, 6],
      let s := ticking (fun f => { f with fwd := [y] }) [flit0 (.fwdReply tag [1] true none none)]
      delivers s (flit0 (.fwdReply tag [1] true none none)) ∧ s.fab.fwd = [y] ∧ ∀ z ∈ s.fab.xe, z.ready ≠ none) ∧
    ∃ s x row, takes s [] ∧ s.fab.xe = [x] ∧ s.fab.outbox = [] ∧ x.begun = some 10 ∧ x.togo ≠ [] ∧ s.fab.row x.cmd = some row ∧ 2 < row.length := by
  let x : XeOp := { inFlight 0x11 (readyBody 0x11 false) (some 10) none with togo := [(1, .xdata 9 0 []), (3, .xdata 9 0 [])] }
  refine ⟨⟨ticking (fun f => { f with suspects := [3] }) [], [], rfl, by decide +kernel⟩,
   ⟨ticking (fun f => { f with outbox := [(10, ⟨3, 0, 6, 10, 0, .beacon⟩)] }) [], _, ⟨rfl, by decide +kernel⟩, rfl⟩,
   ⟨ticking id [{ flit0 .beacon with seq := 2 }], _, ⟨⟨rfl, by decide +kernel⟩, by decide +kernel⟩, by decide +kernel⟩,
   ⟨ticking (fun f => { f with seqFresh := [(3, 5)] }) [{ flit0 .beacon with seq := 2 }], _, ⟨⟨rfl, by decide +kernel⟩, by decide +kernel⟩, by decide +kernel⟩,
   ⟨ticking id [{ flit0 .beacon with vtag := 5 }], _, ⟨⟨rfl, by decide +kernel⟩, by decide +kernel⟩, by decide +kernel, by decide +kernel⟩,
   ⟨ticking id [flit0 .beacon], _, ⟨⟨rfl, by decide +kernel⟩, by decide +kernel⟩, by decide +kernel, rfl⟩,
   ⟨ticking (fun f => { f with isol := true }) [flit0 (.suspect 1 9)], _, 1, 9, ⟨⟨rfl, by decide +kernel⟩, by decide +kernel⟩, by decide +kernel, rfl⟩,
   by decide +kernel,
   ⟨ticking (fun f => { f with xe := [x] }) [], x, [1, 1, 1, 1], ⟨rfl, by decide +kernel⟩, rfl, by decide +kernel, rfl, by decide, by decide +kernel, by decide⟩⟩

/-- TicksViewsAndPorts: the servo, a stop, and each move of a port's state, at port 15, with a port in another state. -/
theorem witness_ports :
    (∃ s : State, s.turn = .event .servoOffsetExceeded .none) ∧ (∃ s : State, s.turn = .event .servoOffsetRestored .none) ∧
    (∃ s : State, s.turn = .event .chipStop .none) ∧
    (∀ (i : Instr) (src : PortState), ∃ s : State, s.turn = .event i (.nat 15) ∧ s.fab.port 15 = src) :=
  ⟨⟨event base .servoOffsetExceeded .none, rfl⟩, ⟨event base .servoOffsetRestored .none, rfl⟩, ⟨event base .chipStop .none, rfl⟩,
   fun i src => ⟨event { base with fab := { base.fab with ports := [(15, src)] } } i (.nat 15), rfl, rfl⟩⟩

/-- A round that began at boundary 7, with these events. -/
def roundEnds (es : List (Nat × Bool)) (xe : List XeOp) : State :=
  event (viewed (fun f => { f with round := some 7, events := es, xe := xe })) .viewInstallation .none

/-- The eleven parts of a view of chips 0 and 1, at a chip that rejoins or does not. -/
def rejoining (b : Bool) : State :=
  event (viewed (fun f => { f with viewrecs := (List.range 11).map (fun p => (p, 9, if p = 0 then [0, 1] else [])), rejoining := b })) .viewrec .none

/-- TicksViewsAndPorts: events of a round, the views at its end, and views that are brought. -/
theorem witness_member_views :
    let installs := fun (s : State) => s.turn = .event .viewInstallation .none ∧ s.fab.viewDue = true ∧ ∀ x ∈ s.fab.xe, x.due s.fab = false
    let stays := fun (s : State) => (s.fab.members.filter (fun m => !s.fab.events.contains (m, false))).length
    (∃ s : State, s.fab.viewDue = false ∧ s.turn = .event .raiseSuspicion (.nat 3) ∧ 3 ∈ s.fab.suspects ++ s.fab.gaps) ∧
    (∃ s : State, s.fab.viewDue = false ∧ s.turn = .event .joinNotice (.nat 4095) ∧ 4095 ∈ s.fab.joins ∧ s.fab.member = true ∧ 4095 ∉ s.fab.members) ∧
    (∃ s : State, installs s ∧ s.fab.members.length < 2 * stays s) ∧
    (∃ (s : State) (x : XeOp), installs s ∧ 2 * stays s ≤ s.fab.members.length ∧ s.fab.xe = [x] ∧ s.fab.xeq = [] ∧
      x.cmd.plan = none ∧ (s.team x.cmd.team).seq.exited = false) ∧
    (∃ s : State, s.turn = .event .firmwareViewInstall (.view 8 [1, 0])) ∧
    (∃ s : State, s.turn = .event .viewrec .none ∧ s.fab.viewParts = none) ∧
    (∀ b : Bool, ∃ s : State, s.turn = .event .viewrec .none ∧ s.fab.viewParts = some ((9 : BitVec 32).toNat, [0, 1]) ∧ s.fab.rejoining = b) :=
  ⟨⟨event (viewed (fun f => { f with gaps := [3] })) .raiseSuspicion (.nat 3), by decide +kernel, rfl, by decide +kernel⟩,
   ⟨event (viewed (fun f => { f with joins := [4095] })) .joinNotice (.nat 4095), by decide +kernel, rfl, by decide +kernel⟩,
   ⟨roundEnds [(3, false), (4095, true)] [], ⟨rfl, by decide +kernel⟩, by decide +kernel⟩,
   ⟨roundEnds [(3, false), (1, false)] [inFlight 0x11 (readyBody 0x11 false) (some 10) none], inFlight 0x11 (readyBody 0x11 false) (some 10) none, ⟨rfl, by decide +kernel⟩,
     by decide +kernel, rfl, rfl, rfl, by decide +kernel⟩,
   ⟨event base .firmwareViewInstall (.view 8 [1, 0]), rfl⟩, ⟨event base .viewrec .none, rfl, by decide +kernel⟩,
   fun b => ⟨rejoining b, rfl, by revert b; decide +kernel, rfl⟩⟩

/-! ## Witnesses: objects and images -/

/-- An image of one entry, of a level, magic number and width. -/
def image1 (magic level width : Nat) : List Byte :=
  leBytes 4 magic ++ [BitVec.ofNat 8 level, 1, 0, 0] ++ leBytes 4 0 ++ leBytes 4 64 ++ leBytes 8 0 ++ List.replicate 40 0 ++
    (leBytes 8 0 ++ leBytes 8 (width + 32 * 2 ^ 32) ++ leBytes 16 0)

/-- Object 1 in a state, which grid 1 uses or does not. -/
def objectIn (o : CodeObj) (used : Bool) (t : Turn) : State :=
  let s : State := { base with dsp := { base.dsp with objs := [(1, o)] } }
  let g := s.grid 1
  { s.setGrid 1 { g with launch := { g.launch with obj := if used then 1 else 0 } } with turn := t }

/-- A load at device address pa is made. -/
def loading (pa : Nat) (img : List Byte) : State := event base .loadRequest (.natBytes pa img)

/-- Whether an image's header and entries pass every check of a load. -/
def wellMade (img : List Byte) : Bool :=
  headerOk img && (objEntries img).all (fun e => entryOk img e && (decide (objLevel img ≠ 1) || entryOk img { e with width := 32 }))

/-- The management image hands over. -/
def busy (s : State) : State := { s with fw := { s.fw with handing := some 1 } }

/-- ObjectsAndImages: a load that waits, loads that fail each check and that pass, at both levels. (Whether the level-1 image can be
rewritten is open: level 2 never is, so 0x13 is reached through it.) -/
theorem witness_loads :
    (∃ (s : State) (img : List Byte), s.turn = .event .loadRequest (.natBytes 0x6000 img) ∧ s.fw.handing = some 1) ∧ base.fw.handing ≠ some 1 ∧
    (∃ (s : State) (img : List Byte), s.turn = .event .loadRequest (.natBytes 0x6000 img) ∧ headerOk img = false) ∧
    (∃ (s : State) (img : List Byte), s.turn = .event .loadRequest (.natBytes 0x6000 img) ∧ headerOk img = true ∧ wellMade img = false) ∧
    (∃ (s : State) (img : List Byte), s.turn = .event .loadRequest (.natBytes 0x100000 img) ∧ wellMade img = true ∧ s.backed 0x100000 img.length = false ∧
      ¬ (objLevel img = 1 ∧ levelTwoCode img = none)) ∧
    (∀ level ∈ [1, 2], ∃ (s : State) (img : List Byte), s.turn = .event .loadRequest (.natBytes 0x6000 img) ∧ wellMade img = true ∧
      s.backed 0x6000 img.length = true ∧ objLevel img = level) ∧
    ∃ (s : State) (img : List Byte), s.turn = .event .loadRequest (.natBytes 0x100000 img) ∧ wellMade img = true ∧ s.backed 0x100000 img.length = false ∧
      objLevel img = 1 := by
  refine ⟨⟨busy (loading 0x6000 []), _, rfl, rfl⟩, by decide +kernel, ⟨loading 0x6000 (image1 7 2 32), _, rfl, by decide +kernel⟩, ⟨loading 0x6000 (image1 0x4F435853 2 33), _, rfl, by decide +kernel, by decide +kernel⟩,
    ⟨loading 0x100000 (image1 0x4F435853 2 32), _, rfl, by decide +kernel, by decide +kernel, fun h => absurd h.1 (by decide +kernel)⟩, ?_,
    ⟨loading 0x100000 (image1 0x4F435853 1 32), _, rfl, by decide +kernel⟩⟩
  intro level h
  refine ⟨loading 0x6000 (image1 0x4F435853 level 32), _, rfl, ?_⟩
  revert level
  decide +kernel

/-- Object 1 is being translated, from an image of level 1. -/
def translating : State := objectIn { object1 with st := .translating, image := image1 0x4F435853 1 32 } false (.event .translation (.nat 1))

/-- ObjectsAndImages: a translation, which finds code that rewrites the image, other code or none, with place for it; and unloads of an object in use, out of use and draining. -/
theorem witness_objects :
    (∃ s : State, s.turn = .event .translation (.nat 1) ∧ (s.obj 1).st = .translating ∧ 64 + 32 * objNentry (s.obj 1).image ≤ (s.obj 1).image.length ∧
      (Config.levelOneCode (s.obj 1).image = none ∨ ∃ code, Config.levelOneCode (s.obj 1).image = some code ∧
        (rewrites (s.obj 1).image code = false ∨ rewrites (s.obj 1).image code = true ∧
          (s.backed (s.obj 1).pa (levelTwo (s.obj 1).image code).length = false ∨ s.backed (s.obj 1).pa (levelTwo (s.obj 1).image code).length = true)))) ∧
    (∃ s : State, s.turn = .event .unloadRequest (.nat 1) ∧ s.fw.handing = some 1) ∧
    (∃ s : State, s.turn = .event .unloadRequest (.nat 1) ∧ (s.obj 1).st = .resident ∧ s.references 1 ≠ 0) ∧
    (∃ s : State, s.turn = .event .unloadRequest (.nat 1) ∧ (s.obj 1).st = .resident ∧ s.references 1 = 0) ∧
    ∃ s : State, s.turn = .event .unloadRequest (.nat 1) ∧ (s.obj 1).st = .draining := by
  refine ⟨⟨translating, rfl, by decide +kernel, by decide +kernel, ?_⟩, ⟨busy (event base .unloadRequest (.nat 1)), rfl, rfl⟩,
    ⟨objectIn object1 true (.event .unloadRequest (.nat 1)), rfl, by decide +kernel, by decide +kernel⟩,
    ⟨objectIn object1 false (.event .unloadRequest (.nat 1)), rfl, by decide +kernel, by decide +kernel⟩,
    ⟨objectIn { object1 with st := .draining } true (.event .unloadRequest (.nat 1)), rfl, by decide +kernel⟩⟩
  cases Config.levelOneCode (translating.obj 1).image with
  | none => exact .inl rfl
  | some code =>
    refine .inr ⟨code, rfl, ?_⟩
    cases rewrites (translating.obj 1).image code with
    | false => exact .inl rfl
    | true => exact .inr ⟨rfl, (Bool.eq_false_or_eq_true _).symm⟩

/-- A staged image of kind k in a state, the rest of the management side as f makes it. -/
def firmware (i : Image) (f : Firmware → Firmware) (t : Turn) : State := { base with fw := f { base.fw with staging := i }, turn := t }

/-- A state record of kind k with an empty body. -/
def record (k : Nat) : List Byte := leBytes 4 0x53545652 ++ [BitVec.ofNat 8 k, 0, 0, 0] ++ leBytes 8 5 ++ sha384Bytes []

/-- A verified image of scheduler firmware, fabric firmware and so on. -/
def verified1 (k : Nat) : Image := { st := .verified, kind := k, minState := 1, maxState := 5 }

/-- A hand-over of a kind runs, and a request waits for it. -/
def handingOf (k : Nat) (f : Firmware) : Firmware := { f with handing := some k, waiting := [[.lease 16]] }

/-- ObjectsAndImages, images: requests that wait or are refused, a hand-over that is asked for, one outside its safe point for each
reason, one with a bad record and one with a good one; heartbeats. (That some image verifies, or has the keys whose digest is fused,
is not known: the digest is open. STAGE_IMAGE's and HAND_OVER's cases are the two values of one test.) -/
theorem witness_images :
    (∃ (s : State) (img : List Byte), s.turn = .event .stageImage (.bytes img) ∧ s.fw.handing = some 1) ∧
    (∃ (s : State) (img : List Byte), s.turn = .event .stageImage (.bytes img) ∧ s.fw.handing ≠ some 1 ∧ s.verifies img = false) ∧
    (∃ s : State, s.turn = .event .handOver (.nat 1) ∧ s.fw.handing ≠ none) ∧
    (∃ s : State, s.turn = .event .handOver (.nat 1) ∧ s.fw.handing = none ∧ s.fw.staging.st ≠ .verified) ∧
    (∃ s : State, s.turn = .event .handOver (.nat 3) ∧ s.fw.handing = none ∧ s.fw.staging.st = .verified ∧ s.fw.staging.kind = 3) ∧
    (∃ s : State, s.turn = .event .launch (.nat 3) ∧ s.fw.handing ≠ none) ∧
    (∃ (s : State) (r : List Byte), s.turn = .event .handOver (.natBytes 3 r) ∧ s.fw.handing = some 3 ∧ s.fab.round ≠ none) ∧
    (∃ (s : State) (r : List Byte), s.turn = .event .handOver (.natBytes 3 r) ∧ s.fw.handing = some 3 ∧ s.fab.loaded = false ∧ s.fab.member = true) ∧
    (∃ (s : State) (r : List Byte), s.turn = .event .handOver (.natBytes 3 r) ∧ s.fw.handing = some 3 ∧ ∃ x ∈ s.fab.outbox, x.2.body = .suspect 1 9) ∧
    (∃ (s : State) (r : List Byte), s.turn = .event .handOver (.natBytes 1 r) ∧ s.fw.handing = some 1 ∧ s.fw.waiting ≠ [] ∧
      recordOk s.fw.staging r = false) ∧
    (∃ (s : State) (r : List Byte), s.turn = .event .handOver (.natBytes 3 r) ∧ s.fw.handing = some 3 ∧ s.fw.staging.st = .verified ∧ s.fw.staging.kind = 3 ∧
      (s.fab.round = none ∧ s.fab.suspects = [] ∧ s.fab.gaps = [] ∧ s.fab.joins = [] ∧ s.fab.outbox = [] ∧ s.fab.loaded = true) ∧
      recordOk s.fw.staging r = true) ∧
    (∃ s : State, s.turn = .event .heartbeat (.natOptBytes 3 none)) ∧
    (∃ s : State, s.turn = .event .heartbeatWindowEnd (.nat 1) ∧ (if (s.kind 1).beat then 0 else (s.kind 1).missed + 1) ≠ 3) ∧
    (∃ s : State, s.turn = .event .heartbeatWindowEnd (.nat 1) ∧ (if (s.kind 1).beat then 0 else (s.kind 1).missed + 1) = 3 ∧ (s.kind 1).retained.st = .retained ∧
      (s.kind 1).inForce.st = .shadow) ∧
    ∃ s : State, s.turn = .event .heartbeatWindowEnd (.nat 1) ∧ (if (s.kind 1).beat then 0 else (s.kind 1).missed + 1) = 3 ∧ (s.kind 1).retained.st ≠ .retained ∧
      (s.kind 1).inForce.st = .active :=
  let handed (k : Nat) (r : List Byte) (f : Fabric → Fabric) : State :=
    { firmware (verified1 k) (handingOf k) (.event .handOver (.natBytes k r)) with fab := f base.fab }
  ⟨⟨busy (event base .stageImage (.bytes [])), [], rfl, rfl⟩,
   ⟨event base .stageImage (.bytes []), [], rfl, by decide +kernel, by simp [State.verifies, imageFormOk, imageNat, leNat]⟩,
   ⟨firmware {} (handingOf 2) (.event .handOver (.nat 1)), rfl, by decide⟩,
   ⟨event base .handOver (.nat 1), rfl, by decide +kernel, by decide +kernel⟩,
   ⟨firmware (verified1 3) id (.event .handOver (.nat 3)), rfl, by decide +kernel, rfl, rfl⟩,
   ⟨firmware {} (handingOf 2) (.event .launch (.nat 3)), rfl, by decide⟩,
   ⟨handed 3 [] (fun f => { f with round := some 7 }), [], rfl, rfl, by decide +kernel⟩,
   ⟨handed 3 [] (fun f => { f with members := [f.chip] }), [], rfl, rfl, by decide +kernel⟩,
   ⟨handed 3 [] (fun f => { f with outbox := [(9, flit0 (.suspect 1 9))] }), [], rfl, rfl, by decide +kernel⟩,
   ⟨handed 1 [] id, [], rfl, rfl, by decide +kernel, by decide +kernel⟩,
   ⟨handed 3 (record 3) (fun f => { f with members := [f.chip], loaded := true }), record 3, rfl, rfl, rfl, rfl, by decide +kernel, by decide +kernel⟩,
   ⟨event base .heartbeat (.natOptBytes 3 none), rfl⟩,
   ⟨event base .heartbeatWindowEnd (.nat 1), rfl, by decide +kernel⟩,
   ⟨firmware {} (fun f => { f with kinds := [(1, { inForce := { st := .shadow }, retained := { st := .retained }, missed := 2 })] }) (.event .heartbeatWindowEnd (.nat 1)),
     rfl, by decide +kernel⟩,
   ⟨firmware {} (fun f => { f with kinds := [(1, { missed := 2 })] }) (.event .heartbeatWindowEnd (.nat 1)), rfl, by decide +kernel⟩⟩

/-! ## Witnesses: resets, rollback and repair -/

/-- Grid 1 rolls back its first interval, with these lines in the log. -/
def rolling (u : List UndoEntry) : State :=
  event (farFrame (base.setGrid 1 { base.grid 1 with interval := { st := .rolling, first := true, undo := u } })) .rollback (.nat 1)

/-- A line of frame f in the log, and the image of the team, with a poisoned byte. -/
def logged (f : Nat) : UndoEntry := ⟨f * 64, List.replicate 64 7, true, (0, 0)⟩
def checkpoint1 : Checkpoint := { key := tk1, team := base.team tk1, bytes := [(spad0, 7)], poisoned := [spad0 / 64], parked := parking.parked, releases := [] }

/-- A row that is there, and one that is not. -/
def row5 : HbmRow := ⟨5, 3, 1, 9⟩
def row16 : HbmRow := ⟨16, 0, 0, 0⟩

/-- ResetsRollbackAndRepair: every clause. -/
theorem witness_resets :
    let rolls := fun (s : State) => s.turn = .event .rollback (.nat 1) ∧ (s.grid 1).interval.st = .rolling ∧
      (∀ x ∈ s.fab.fwd, x.grid = 1 → x.reply ≠ none) ∧
      ∀ c ∈ s.cores.flatMap (fun c => c.2.ce) ++ s.fab.xe.map (·.cmd) ++ s.dsp.pg, keyGrid c.team ≠ 1
    (∃ s : State, s.turn = .event .moduleReset .none) ∧ (∃ s : State, s.turn = .event .warmReset .none) ∧
    (∃ s : State, s.turn = .event .lifeCycleChange (.life .returned) ∧ (s.kind 3).inForce.st = .shadow) ∧
    (∃ s : State, s.turn = .event .lifeCycleChange (.life .returned) ∧ ∀ k, 1 ≤ k → k ≤ 3 → (s.kind k).inForce.st ≠ .shadow) ∧
    (∃ s : State, s.turn = .event .rollback (.nat 1) ∧ (s.grid 1).interval.st ≠ .rolling) ∧
    (∃ s : State, s.turn = .event .rollback (.nat 1) ∧ ∃ x ∈ s.fab.fwd, x.grid = 1 ∧ x.reply = none) ∧
    (∃ s : State, rolls s ∧ (s.grid 1).interval.first = true ∧ (s.grid 1).interval.undo = []) ∧
    (∃ (s : State) (u : UndoEntry) (key : Nat), rolls s ∧ (s.grid 1).interval.first = true ∧ (s.grid 1).interval.undo = [u] ∧
      s.reach (.pa (u.line * 64)) = .here key ∧ s.inHost (.pa (u.line * 64)) = false ∧ u.bytes.length = 64) ∧
    (∃ (s : State) (u : UndoEntry), rolls s ∧ (s.grid 1).interval.first = true ∧ (s.grid 1).interval.undo = [u] ∧
      s.reach (.pa (u.line * 64)) = .remote 3 11 ∧ u.bytes.length = 64) ∧
    (∃ (s : State) (c : Checkpoint), rolls s ∧ (s.grid 1).interval.first = false ∧ (s.grid 1).interval.undo = [] ∧ (s.grid 1).interval.images = [c] ∧
      keyGrid c.key = 1 ∧ c.parked ≠ [] ∧ c.bytes ≠ [] ∧ c.bytes.Pairwise (fun x y => x.1 ≠ y.1)) ∧
    (∀ r ∈ [AuditResult.faulted, .ran 77, .ran 78], ∃ (s : State) (x : Audit), s.turn = .event .auditReplay (.audit 0 r) ∧ s.dsp.audits.drop 0 = [x] ∧
      s.dsp.log.length < s.dsp.logCap) ∧
    (∀ i ∈ [Instr.softRepair, .hardRepair], ∀ r ∈ [row5, row16], ∃ s : State, s.turn = .event i (.row r)) ∧
    (row5.stack < 16 ∧ row5.channel < 64 ∧ row5.row < 2 ^ 32 ∧ ¬ row16.stack < 16) ∧
    (∃ s : State, s.turn = .event .repairQuiesceEnd (.nat2 5 3) ∧
      s.dsp.quiesced.find? (fun r => decide (r.stack = 5 ∧ r.channel = 3)) = some row5) ∧
    (∃ s : State, s.turn = .event .repairQuiesceEnd (.nat2 5 3) ∧ s.dsp.quiesced.find? (fun r => decide (r.stack = 5 ∧ r.channel = 3)) = none) ∧
    ∃ s : State, s.turn = .event .ageingThreshold (.natWord 3 0xFFFFFFFFFFFFFFFF) ∧ s.dsp.log.length < s.dsp.logCap ∧ wearOf (s.ageing 3) < s.dsp.ageLimit ∧
      s.dsp.ageLimit ≤ 1000 := by
  let disp (f : Dispatcher → Dispatcher) (i : Instr) (a : EvArg) : State := event { base with dsp := f { base.dsp with logCap := 1 } } i a
  refine ⟨⟨event base .moduleReset .none, rfl⟩, ⟨event base .warmReset .none, rfl⟩,
    ⟨firmware {} (fun f => { f with kinds := [(3, { inForce := { st := .shadow } })] }) (.event .lifeCycleChange (.life .returned)), rfl, by decide +kernel⟩,
    ⟨event base .lifeCycleChange (.life .returned), rfl, ?_⟩,
    ⟨event base .rollback (.nat 1), rfl, by decide +kernel⟩, ⟨forwarding (rolling []), rfl, by decide +kernel⟩,
    ⟨rolling [], ⟨rfl, by decide +kernel⟩, by decide +kernel⟩,
    ⟨rolling [logged 6], logged 6, hbmKey 0x6000, ⟨rfl, by decide +kernel⟩, by decide +kernel⟩,
    ⟨rolling [logged 11], logged 11, ⟨rfl, by decide +kernel⟩, by decide +kernel⟩,
    ⟨event (base.setGrid 1 { base.grid 1 with interval := { st := .rolling, first := false, images := [checkpoint1] } }) .rollback (.nat 1), checkpoint1,
      ⟨rfl, by decide +kernel⟩, by decide +kernel⟩,
    fun r _ => ⟨disp (fun d => { d with audits := [⟨4, 1, 9, 77⟩] }) .auditReplay (.audit 0 r), ⟨4, 1, 9, 77⟩, rfl, rfl, Nat.zero_lt_one⟩,
    fun i _ r _ => ⟨event base i (.row r), rfl⟩, by decide,
    ⟨disp (fun d => { d with quiesced := [row5] }) .repairQuiesceEnd (.nat2 5 3), rfl, by decide +kernel⟩,
    ⟨event base .repairQuiesceEnd (.nat2 5 3), rfl, by decide +kernel⟩,
    ⟨disp (fun d => { d with ageLimit := 1000 }) .ageingThreshold (.natWord 3 0xFFFFFFFFFFFFFFFF), rfl, by decide +kernel⟩⟩
  intro k h1 h3
  obtain rfl | rfl | rfl : k = 1 ∨ k = 2 ∨ k = 3 := by omega
  all_goals decide +kernel

/-! ## Single steps, with results worked out by hand from the rules -/

/-- The state after an instruction. -/
def after (i : Instr) (s : State) : State := match exec i s with
  | .next t => t
  | _ => s

/-- Every lane holds x in v2 and y in v3; a lane's register afterwards. -/
def pairState (x y : Word) : State := laneState (fun _ l => { l with v := SMap.set {} (SMap.set {} l.v 2 ⟨x, false⟩) 3 ⟨y, false⟩ })
def vreg (s : State) (n k : Nat) : Nat := (((s.team tk1).lane n).reg false k).val.toNat

/-- Lane n holds n + 10 in v2. -/
def counted : State := laneState (fun n l => { l with v := SMap.set {} l.v 2 ⟨BitVec.ofNat 64 (n + 10), false⟩ })

/-- The sequencer holds x in s2 and y in s3. -/
def sregs (x y : Word) : State := seqState (fun q => { q with s := [(2, x), (3, y)] })
def sreg (s : State) (k : Nat) : Nat := ((s.team tk1).seq.reg k).toNat

/-- R182: a sum wraps, and each I8 element does so alone. -/
theorem test_add : vreg (after (.add 0 0 3 3 2 4) (pairState (2 ^ 64 - 1) 1)) 7 4 = 0 ∧
    vreg (after (.add 0 0 0 3 2 4) (pairState 0x00FF 0x0101)) 7 4 = 0x0100 := by decide +kernel

/-- R182: SHRA.I32 shifts each half and keeps its sign. -/
theorem test_shra : vreg (after (.shra 0 0 2 3 2 4) (pairState 0x8000000000000010 0x0000000400000004)) 0 4 = 0xF800000000000001 := by
  decide +kernel

/-- R182: the high half of -2^63 times 4 is -2; -7 divided by 2 is -3. -/
theorem test_mulh_div : vreg (after (.mulh 0 0 3 3 2 4) (pairState (2 ^ 63) 4)) 0 4 = 2 ^ 64 - 2 ∧
    vreg (after (.div 0 0 3 3 2 4) (pairState (2 ^ 64 - 7) 2)) 0 4 = 2 ^ 64 - 3 := by decide +kernel

/-- R184: a signed comparison finds -1 less than 1. -/
theorem test_cmp : ((after (.cmp 0 0 3 3 2 2 4) (pairState (2 ^ 64 - 1) 1)).team tk1).lane 3 |>.pv.getLsbD 4 := by decide +kernel

/-- R188: 1.5 times 2 and 0.25 make 3.25 in F32. -/
theorem test_fma :
    vreg (after (.fma 2 0 4 3 2 4) (laneState (fun _ l => { l with v := [(2, ⟨0x3FC00000, false⟩), (3, ⟨0x40000000, false⟩), (4, ⟨0x3E800000, false⟩)] }))) 0 4 =
      0x40500000 := by decide +kernel

/-- R194, R197: every lane reads lane 5; the sum of 10 to 17; the sum up to lane 6. -/
theorem test_cross_lane : vreg (after (.xiShfl 3 5 0 2 4) counted) 0 4 = 15 ∧ vreg (after (.rdc 0 0 0 3 2 4) counted) 6 4 = 108 ∧
    vreg (after (.scan 0 0 0 3 2 4) counted) 6 4 = 91 := by decide +kernel

/-- R147: -7 divided by 2 is -3; an immediate is sign-extended. -/
theorem test_sequencer_arithmetic : sreg (after (.smulDiv 3 2 4) (sregs (2 ^ 64 - 7) 2)) 4 = 2 ^ 64 - 3 ∧
    sreg (after (.siAdd 0xFF00 2 4) (sregs 0x100 0)) 4 = 0 := by decide +kernel

/-- R150, R151: TRAP 5 of the sequencer goes to SVEC, with class 0x07, and saves the next address. -/
theorem test_sequencer_trap :
    let q := ((after (.sctlTrap 5) (sregs 0 0)).team tk1).seq
    q.pc = 0xC00 ∧ q.trap = true ∧ q.scause = 0x0705 ∧ q.sepc = 4 ∧ q.saddr = 0 := by decide +kernel

/-- R171, R172: TRAP 5 of a lane goes to LVEC, with class 0x07, and saves the next address. -/
theorem test_lane_trap :
    let l := ((after (.trap 5) (laneState (fun _ l => l))).team tk1).lane 2
    l.pc = 0x800 ∧ l.trap = true ∧ l.lcause = 0x0705 ∧ l.lepc = 4 ∧ l.laddr = 0 := by decide +kernel

/-! ## Witnesses: registers and tiles -/

/-- RegistersReadBack: the registers at the bounds of the handler registers, in and out of trap mode. -/
theorem witness_registers :
    (∃ (q : Sequencer) (k n : Nat), k < 32 ∧ n < 32 ∧ q.trap = true ∧ 24 ≤ k) ∧ (∃ (q : Sequencer) (k n : Nat), k < 32 ∧ n < 32 ∧ q.trap = false) ∧
    (∃ (trap : Bool) (k n : Nat), k < 64 ∧ n < 64 ∧ trap = true ∧ 56 ≤ k) ∧ ∃ (trap : Bool) (k n : Nat), k < 64 ∧ n < 64 ∧ trap = false :=
  ⟨⟨{ trap := true }, 24, 31, by decide, by decide, rfl, by decide⟩, ⟨{}, 0, 31, by decide, by decide, rfl⟩, ⟨true, 56, 63, by decide, by decide, rfl, by decide⟩,
   ⟨false, 63, 0, by decide, by decide, rfl⟩⟩

/-- A tile of two by two I32 numbers. -/
def tile2 : Tile := { rows := 2, cols := 2, vfmt := 0x0A, val := [1, 2, 3, 4] }

/-- TileArithmetic: a product with an addend and without, a difference, a transposition and a conversion. -/
theorem witness_tile_arithmetic :
    (∃ (x y : Tile) (z : Option Tile), (0x0A : Nat) ≤ 0x12 ∧ x.vkind = 0 ∧ y.vkind = 0 ∧ x.vfmt = 0x0A ∧ y.vfmt = 0x0A ∧ x.full 1 ∧ y.full 1 ∧ x.cols = y.rows ∧
      z = some tile2 ∧ ∀ w, z = some w → w.full 1 ∧ w.vkind = 0 ∧ w.vfmt ≤ 0x12 ∧ w.rows = x.rows ∧ w.cols = y.cols) ∧
    (∃ (x y : Tile) (op : Nat), op = 7 ∧ x.vkind = 0 ∧ y.vkind = 0 ∧ x.vfmt = 0x0A ∧ y.vfmt = 0x0A ∧ x.full 1 ∧ y.full 1 ∧ y.rows = x.rows ∧ y.cols = x.cols) ∧
    (∃ x : Tile, 0 < x.per ∧ x.full x.per ∧ 0 < x.rows) ∧
    ∃ (fmt : Nat) (x : Tile), x.vkind ≠ 2 ∧ (0x13 ≤ x.vfmt ↔ 0x13 ≤ fmt) ∧ x.full x.per ∧ x.val ≠ [] :=
  ⟨⟨tile2, tile2, some tile2, by decide, rfl, rfl, rfl, rfl, rfl, rfl, rfl, rfl, fun w h => by cases h; exact ⟨rfl, rfl, by decide, rfl, rfl⟩⟩,
   ⟨tile2, tile2, 7, rfl, rfl, rfl, rfl, rfl, rfl, rfl, rfl, rfl⟩, ⟨tile2, by decide +kernel, rfl, by decide⟩, ⟨1, tile2, by decide, by decide, rfl, by decide⟩⟩

/-- A pair of complex numbers in rows and columns, all ones. -/
def complexTile (r c : Nat) : Tile := { rows := r, cols := c, vfmt := 0x14, val := List.replicate (r * c * 2) 1 }
/-- A tile of r by c numbers of a format of one component, all ones. -/
def onesTile (fmt r c : Nat) : Tile := { rows := r, cols := c, vfmt := fmt, val := List.replicate (r * c) 1 }
/-- Two by two elements of two block partials. -/
def partialTile (fmt : Nat) : Tile := { rows := 2, cols := 2, vkind := 2, vfmt := fmt, kdim := 64, val := List.replicate 8 1 }

/-- TileArithmetic: a complex product with an addend; block partials of two blocks; their scaling with an addend, and with
the super-scales of format 0x12. -/
theorem witness_complex_and_blocks :
    (∃ (x y : Tile) (z : Option Tile), 0x13 ≤ 0x14 ∧ 0x14 ≤ 0x17 ∧ x.vkind = 0 ∧ y.vkind = 0 ∧ x.vfmt = 0x14 ∧ y.vfmt = 0x14 ∧
      x.full 2 ∧ y.full 2 ∧ x.cols = y.rows ∧ 0 < x.cols ∧ z ≠ none ∧
      ∀ w, z = some w → w.full 2 ∧ w.vkind ≠ 2 ∧ 0x13 ≤ w.vfmt ∧ w.rows = x.rows ∧ w.cols = y.cols) ∧
    (∃ x y : Tile, 5 ∈ [5, 6, 7, 8, 9, 0x0C, 0x12] ∧ x.vkind = 0 ∧ y.vkind = 0 ∧ x.vfmt = 5 ∧ y.vfmt = 5 ∧
      x.full 1 ∧ y.full 1 ∧ x.cols = y.rows ∧ x.cols % 32 = 0 ∧ 0 < x.cols) ∧
    ∀ fmt ∈ [5, 0x12], ∃ (p sa sb : Tile) (z : Option Tile), p.vkind = 2 ∧ p.vfmt = fmt ∧ 32 ≤ p.kdim ∧ p.full (p.kdim / 32) ∧
      (let ka := p.kdim / 32 + if fmt = 0x12 then 4 else 0
       (sa.full 1 ∧ sa.vkind = 0 ∧ sa.vfmt = 0x0D ∧ sa.rows = p.rows ∧ sa.cols = ka) ∧
       (sb.full 1 ∧ sb.vkind = 0 ∧ sb.vfmt = 0x0D ∧ sb.rows = ka ∧ sb.cols = p.cols)) ∧ z ≠ none ∧
      ∀ w, z = some w → w.full 1 ∧ w.vkind = 0 ∧ w.vfmt = 1 ∧ w.rows = p.rows ∧ w.cols = p.cols := by
  refine ⟨⟨complexTile 2 3, complexTile 3 2, some (complexTile 2 2), by decide, by decide, rfl, rfl, rfl, rfl, rfl, rfl, rfl,
      by decide, by simp, fun w h => by cases h; exact ⟨rfl, by decide, by decide, rfl, rfl⟩⟩,
    ⟨onesTile 5 2 64, onesTile 5 64 2, by decide, rfl, rfl, rfl, rfl, rfl, rfl, rfl, by decide, by decide⟩, fun fmt hf => ?_⟩
  simp only [List.mem_cons, List.not_mem_nil, or_false] at hf
  rcases hf with rfl | rfl
  · exact ⟨partialTile 5, onesTile 0x0D 2 2, onesTile 0x0D 2 2, some (onesTile 1 2 2), rfl, rfl, by decide, rfl,
      ⟨⟨rfl, rfl, rfl, rfl, rfl⟩, rfl, rfl, rfl, rfl, rfl⟩, by simp, fun w h => by cases h; exact ⟨rfl, rfl, rfl, rfl, rfl⟩⟩
  · exact ⟨partialTile 0x12, onesTile 0x0D 2 6, onesTile 0x0D 6 2, some (onesTile 1 2 2), rfl, rfl, by decide, rfl,
      ⟨⟨rfl, rfl, rfl, rfl, rfl⟩, rfl, rfl, rfl, rfl, rfl⟩, by simp, fun w h => by cases h; exact ⟨rfl, rfl, rfl, rfl, rfl⟩⟩

/-- A lane's entry in a team image (R145): flags 5, in trap mode, waiting at barrier 3 in phase 2, and %stklim at 0x10. -/
theorem test_lane_state_entry :
    let l : Lane := { lflags := 5, trap := true, wait := some (3, 2), stklim := 0x1234 }
    leNat (l.stateEntry.take 8) = 0x5 + 0x100 + 0x200 + 3 * 0x400 + 2 * 0x4000 ∧ leNat ((l.stateEntry.drop 0x10).take 8) = 0x1234 := by
  decide +kernel

/-- The manifest section (R283): t1 names the node in entry 0, t0 none, and the node's first word holds its fields. -/
theorem test_manifest_section :
    let n : Node := ⟨21, [], [], [7], 1, 0, 2, 3, 0, 1, 0, 0x100, 1, .built, 0, 0, [], 0, 0, [], 0, 0, 0⟩
    let m : Manifest := { tregs := [(1, 6)], nodes := [(5, n)], create := 6 }
    let b := m.section_
    leNat (b.take 8) = 0xFF ∧ leNat ((b.drop 8).take 8) = 0 ∧ leNat ((b.drop 0x80).take 8) = 6 ∧
      leNat ((b.drop 0x400).take 8) = 5 * 2 ^ 32 + 1 * 2 ^ 28 + 21 * 2 ^ 22 + 1 * 2 ^ 17 + 1 * 2 ^ 10 ∧
      leNat ((b.drop 0x408).take 8) = 2 ^ 56 + 0x100 ∧ leNat ((b.drop 0x410).take 8) = 0xFFFFFF := by
  decide +kernel

/-! ## Witnesses: every form -/

/-- Lane 7 is elsewhere than the other seven. -/
def apart : State := laneState (fun n l => if n = 7 then { l with pc := 4 } else l)

/-- FormsTakeEffect, barriers in automatic mode: of the lanes that issue, with one that has not arrived, and of the sequencer. -/
theorem witness_automatic_barriers :
    (∃ (s s1 : State) (r : Run), s.issuing = some (r, s1) ∧ r.lanes ≠ [] ∧ ((s1.team r.team).bar 3).expected = 0 ∧
      7 < (s1.gridOf r.team).launch.lanes ∧ 7 ∉ r.lanes ∧ (laneAt s1 r 7).exited = false ∧ (laneAt s1 r 7).arrived.getLsbD 3 = false ∧
      (laneAt s1 r 7).wait ≠ some (3, ((s1.team r.team).bar 3).phase) ∧ ∀ n ∈ r.lanes, (laneAt s1 r n).arrived.getLsbD 3 = false) ∧
    ∃ s s1 : State, SeqIssues s tk1 s1 ∧ (s1.team tk1).seq.sbuf = [] ∧ (s1.team tk1).seq.held = none ∧ ((s1.team tk1).bar 3).expected = 0 ∧
      ((s1.team tk1).bar 3).seqArr = false ∧ 7 < (s1.gridOf tk1).launch.lanes ∧ ((s1.team tk1).lane 7).exited = false ∧
      ((s1.team tk1).lane 7).arrived.getLsbD 3 = false ∧ ((s1.team tk1).lane 7).wait ≠ some (3, ((s1.team tk1).bar 3).phase) :=
  ⟨⟨apart, _, _, issuing_of (by decide +kernel), by decide +kernel⟩,
   ⟨seqState id, _, seqIssues_of rfl (by decide +kernel), by decide +kernel⟩⟩

/-- FormsTakeEffect, RED.D into an empty buffer. -/
theorem witness_reduction_form :
    ∃ (s s1 s2 : State) (r : Run) (xs : List (LaneReq × Checked)), LaneIssues s [4, 5] r s1 ∧ s1.checkReqs r .red (redReqs s1 r) = (xs, s2) ∧
      (∀ y ∈ xs, y.1.az = false ∧ ∃ l m rest, y.2 = .ok ((l, m) :: rest)) ∧ s1.redHeld r.team + r.lanes.length ≤ 65536 :=
  ⟨buffered 0, _, _, _, _, laneIssues_of (by decide +kernel) (by decide +kernel), rfl, placed_of (by decide +kernel), by decide +kernel⟩

/-- The state after the check of an 8-byte access of the sequencer to the address in register a, and the access. -/
def afterLoad (s : State) (a : Nat) : State :=
  ((seqFrom s).checkAccess ((seqFrom s).whoOf tk1) ((seqFrom s).coreOf tk1) .load true true false (((seqFrom s).team tk1).seq.reg a).toNat 8).2
def afterStore (s : State) (a : Nat) : State :=
  ((seqFrom s).checkAccess ((seqFrom s).whoOf tk1) ((seqFrom s).coreOf tk1) .store true true false (((seqFrom s).team tk1).seq.reg a).toNat 8).2

/-- FormsTakeEffect, SLD of the window's first doubleword: what stands between its check and its effect. -/
theorem witness_load_form :
    let s2 := afterLoad addressing 2
    let l : Loc := .spad tk1 0 0
    PlainPlace s2 l 8 spad0 ∧ pieces [(l, 8)] = [(l, 8)] ∧ s2.pace = none ∧ ((seqFrom addressing).team tk1).seq.sbuf = [] ∧
      ((seqFrom addressing).team tk1).seq.parked = false ∧ poisonAt s2 spad0 8 = false ∧ (∀ m, s2.forwarded (.agent (.seq tk1)) l m = none) ∧
      (s2.gridOf tk1).rcd.det = false ∧
      s2.pieceWaits s2.parked.length { agent := .seq tk1, va := window0, runs := [(l, 8)], op := .load 6 8 false } (l, 8) = false := by
  unfold PlainPlace
  exact ⟨by decide +kernel, by decide +kernel, by decide +kernel, by decide +kernel, by decide +kernel, by decide +kernel, fun _ => rfl,
    by decide +kernel, by decide +kernel⟩

/-- FormsTakeEffect, SST to the window, which is buffered, and to device memory. -/
theorem witness_store_form :
    (let s2 := afterStore addressing 2
     PlainPlace s2 (.spad tk1 0 0) 8 spad0 ∧ (s2.gridOf tk1).rcd.det = false ∧ ((seqFrom addressing).team tk1).seq.parked = false ∧
       (s2.team tk1).ownCapture [(.spad tk1 0 0, 8)] = false) ∧
    let s2 := afterStore writable 3
    let l : Loc := .pa 0x6040
    PlainPlace s2 l 8 (hbmKey 0x6040) ∧ (s2.gridOf tk1).rcd.det = false ∧ ((seqFrom writable).team tk1).seq.parked = false ∧
      pieces [(l, 8)] = [(l, 8)] ∧ s2.pace = none ∧
      s2.pieceWaits s2.parked.length { agent := .seq tk1, va := 0x40, runs := [(l, 8)], op := .store 8 5 false } (l, 8) = false := by
  unfold PlainPlace
  decide +kernel

/-- A forwarded access of a stream is not performed. -/
def outstanding (o : Agent) (s : State) : State :=
  { s with fab := { s.fab with fwd := [{ tag := 0, chip := 3, owner := .agent o, pa := 0x7000, n := 8, write := true, asid := 1, grid := 1 }] } }

/-- AdvancingLaneInstructions, SequencerMemoryInstructions and FormsTakeEffect, fences: of lanes and of the sequencer, with a
forwarded access that is not performed and with none. -/
theorem witness_fences :
    (∃ (s s1 : State) (r : Run), s.issuing = some (r, s1) ∧ ∃ x ∈ s1.fab.fwd, ∃ n ∈ r.lanes, x.owner = .agent (.lane r.team n)) ∧
    (∃ (s s1 : State) (r : Run), s.issuing = some (r, s1) ∧ ∀ x ∈ s1.fab.fwd, ∀ n ∈ r.lanes, x.owner ≠ .agent (.lane r.team n)) ∧
    (∃ s s1 : State, SeqIssues s tk1 s1 ∧ (s1.team tk1).seq.sbuf = [] ∧ ∃ x ∈ s1.fab.fwd, x.owner = .agent (.seq tk1)) ∧
    ∃ s s1 : State, SeqIssues s tk1 s1 ∧ (s1.team tk1).seq.sbuf = [] ∧ ∀ x ∈ s1.fab.fwd, x.owner ≠ .agent (.seq tk1) :=
  ⟨⟨outstanding (.lane tk1 7) (laneState (fun _ l => l)), _, _, issuing_of (by decide +kernel), by decide +kernel⟩,
   ⟨laneState (fun _ l => l), _, _, issuing_of (by decide +kernel), by decide +kernel⟩,
   ⟨outstanding (.seq tk1) (seqState id), _, seqIssues_of rfl (by decide +kernel), by decide +kernel, by decide +kernel⟩,
   ⟨seqState id, _, seqIssues_of rfl (by decide +kernel), by decide +kernel, by decide +kernel⟩⟩

/-- FormsTakeEffect, events: every event can have the turn. What else each clause asks for, the witnesses of the event's own
statement show; here stand those that differ. -/
theorem witness_event_turns : ∀ (i : Instr) (a : EvArg), ∃ s : State, s.turn = .event i a := fun i a => ⟨event base i a, rfl⟩

theorem witness_event_forms :
    (let s := event (withTeam (fun t => { t with st := .swapped })) .swapOut (.nat tk1)
     s.evaluates tk1 = false ∧ s.spadBusy tk1 = false) ∧
    (let s := event parking .waitingAccessPerform (.nat 0)
     s.parked = [⟨tk1, List.range 8, 0, [store0], true⟩] ∧ s.issues tk1 = true ∧ s.pace = none ∧ store0.runs ≠ [] ∧ outcome (s.stepPiece 0 0 store0) = 2) ∧
    (let s := event twoGrids .teamPlacement (.nat3 3 15 9)
     ∀ r, r < (s.grid 2).clusterSize 0 → (s.team (teamKey 2 (0 * (s.grid 2).q + r))).st ≠ .retired) ∧
    (let s := event (base.setCore 0 { base.coreAt 0 with acq := [(tk1, 4, 2)] }) .acqGrant (.nat 0)
     (s.coreAt 0).acq = [(tk1, 4, 2)] ∧ 4 ≤ (s.freeAcc 0).length) ∧
    (∀ k, ((switching (.event .bankModeSwitch (.nat tk1))).team k).seq.sbuf = []) ∧
    (let s := (demoting 1 [(2, [99])] []).setVictim 1 (some 7)
     let t : State := { s with dsp := { s.dsp with demoting := [1] } }
     1 ∈ t.dsp.demoting ∧ SMap.get 0 t.dsp.victim 1 = 7 + 1 ∧ FrameFree t 7 ∧ t.freeFrames (1 + 1) 0 = [99] ∧ entryLoc (t.frame 7) = 1 ∧
       frameKey 1 (entryLocation (t.frame 7)) = some (hbmKey (7 * 4096)) ∧ frameKey (1 + 1) 99 = some (lpddrKey (99 * 4096))) :=
  ⟨by decide +kernel, by decide +kernel, by decide +kernel, by decide +kernel, team_all (fun t => t.seq.sbuf = []) rfl (by decide +kernel),
    by decide +kernel, by decide +kernel, frameFree_of (by decide +kernel), by decide +kernel⟩

/-- FormsTakeEffect and ResetsRollbackAndRepair, spares: a bank group with a spare row and one with none left. -/
theorem witness_spares : base.sparesOf row5 ≠ 0 ∧ (base.spend row5).sparesOf row5 = 0 ∧ row5.stack < 16 ∧ row5.channel < 64 ∧ row5.row < 2 ^ 32 := by
  decide +kernel

/-- FormsTakeEffect, hand-over of the fabric set: the fabric is settled and nothing waits; witness_images has the rest. -/
theorem witness_settled : base.fab.settled = true ∧ base.fw.waiting = [] := by decide +kernel

/-- A barrier's doubleword (R312): phase 3, armed, its sequencer arrived, a count of 9, and 2 arrivals with 1 pending. -/
theorem test_barrier_doubleword :
    Barrier.word { phase := 3, st := .arming, seqArr := true, expected := 9, pend := 1, arr := 2 } =
      3 * 2 ^ 40 + 2 * 2 ^ 38 + 2 ^ 37 + 9 * 2 ^ 26 + 2 ^ 15 + 2 * 2 ^ 4 := by decide +kernel

/-- Every section of a team image starts at a 4 KiB boundary (R145). -/
theorem test_image_boundary : (toBoundary []).length = 0 ∧ (toBoundary [1]).length = 4096 ∧ (toBoundary (leBytes 8 7)).take 1 = [7] := by
  decide +kernel

end Sys2Proof.Tests
end

section
/-! SUPPORT. Memory keeps its canonical form, whatever acts.

A function of the model that leaves memory as it was has a lemma State.f_mem; one that may write it has canon_f, that it keeps
the form; one that answers an outcome has canonNext_f, that the next state's memory has it. These three sorts of lemma follow
the model's files in their order, and `simp` puts them together. (A lemma proved by `(rfl)` in parentheses is one that `simp`
uses as an equation and not by unfolding, which the side conditions of the canon_ lemmas want.) -/

namespace Sys2Proof.Machine

/-! ## Answers and folds -/

/-- A memory in canonical form: what memWf says of a state's. -/
def Canon (m : SMap Byte) : Prop := SMap.wf 0 m = true

/-- An answer whose next state has its memory in canonical form. -/
def CanonNext (o : Out) : Prop := ∀ t, o = .next t → Canon t.mem

@[simp] theorem canonNext_next (t : State) : CanonNext (.next t) ↔ Canon t.mem :=
  ⟨fun h => h t rfl, fun h _ e => by cases e; exact h⟩

/-- What an operation that answers a pair leaves is the pair's second part. -/
theorem mem_of_eq_pair {α : Type} {p : α × State} {x : α} {t : State} (e : p = (x, t)) : t.mem = p.2.mem := by rw [e]

theorem canon_of_eq_pair {α : Type} {p : α × State} {x : α} {t : State} (e : p = (x, t)) (h : Canon p.2.mem) : Canon t.mem := by
  rwa [mem_of_eq_pair e]

@[simp] theorem foldl_mem {α : Type} {f : State → α → State} (hf : ∀ s x, (f s x).mem = s.mem) (l : List α) (s : State) :
    (l.foldl f s).mem = s.mem := by
  induction l generalizing s with
  | nil => rfl
  | cons x r ih => exact (ih _).trans (hf s x)

/-- The same for a fold that carries something beside the state. -/
theorem foldl_snd_mem {α β : Type} {f : β × State → α → β × State} (hf : ∀ a x, (f a x).2.mem = a.2.mem) (l : List α)
    (a : β × State) : (l.foldl f a).2.mem = a.2.mem := by
  induction l generalizing a with
  | nil => rfl
  | cons x r ih => exact (ih _).trans (hf a x)

theorem canon_foldl {α : Type} {f : State → α → State}
    (hf : ∀ s x, Canon s.mem → Canon (f s x).mem) (l : List α) {s : State} (h : Canon s.mem) :
    Canon (l.foldl f s).mem := by
  induction l generalizing s with
  | nil => exact h
  | cons x r ih => exact ih (hf s x h)

@[simp] theorem canon_ite (c : Prop) [Decidable c] {m m' : SMap Byte} (h : Canon m) (h' : Canon m') :
    Canon (if c then m else m') := by
  split
  · exact h
  · exact h'

@[simp] theorem canon_ite_snd {α : Type} (c : Prop) [Decidable c] {p q : α × State} (hp : Canon p.2.mem) (hq : Canon q.2.mem) :
    Canon (if c then p else q).2.mem := by
  split
  · exact hp
  · exact hq

@[simp] theorem ite_mem (c : Prop) [Decidable c] (s t : State) : (if c then s else t).mem = if c then s.mem else t.mem :=
  apply_ite State.mem c s t

theorem canon_ite_state {c : Prop} [Decidable c] {s t : State} (h : Canon s.mem) (h' : Canon t.mem) :
    Canon (if c then s else t).mem := by
  rw [ite_mem]
  exact canon_ite c h h'

/-! ## Memory and its lines -/

@[simp] theorem State.modCmd_mem (s : State) (num : Nat) (f : Cmd → Cmd) : (s.modCmd num f).mem = s.mem := (rfl)
@[simp] theorem State.raiseCore_mem (s : State) (c ts : Nat) : (s.raiseCore c ts).mem = s.mem := (rfl)
@[simp] theorem State.setLoc_mem (s : State) (f loc : Nat) : (s.setLoc f loc).mem = s.mem := State.setFrame_mem ..
@[simp] theorem State.dropForward_mem (s : State) (tag : Nat) : (s.dropForward tag).mem = s.mem := (rfl)

@[simp] theorem State.detectAt_mem (s : State) (w : Who) (l : Loc) : (s.detectAt w l).mem = s.mem := by
  unfold State.detectAt
  split
  · rfl
  · simp [State.detect_mem]

@[simp] theorem State.askRemote_mem (s : State) (w : Who) (ps : List (Loc × Nat)) : (s.askRemote w ps).mem = s.mem := by
  simp [State.askRemote, State.forward_mem]

@[simp] theorem canon_putBytes {s : State} (k : Nat) (bs : List Byte) (h : Canon s.mem) : Canon (s.putBytes k bs).mem :=
  memWf_putBytes k bs h

@[simp] theorem canon_storePiece {s : State} (w : Who) (l : Loc) (bs : List Byte) (poison clears : Bool) (h : Canon s.mem) :
    Canon (s.storePiece w l bs poison clears).mem :=
  memWf_storePiece w l bs poison clears h

@[simp] theorem canon_storeRuns {s : State} (w : Who) (done : Nat) (ps : List (Loc × Nat)) (bs : List Byte) (poison full : Bool)
    (h : Canon s.mem) : Canon (s.storeRuns w done ps bs poison full).mem :=
  memWf_storeRuns w done ps bs poison full h

@[simp] theorem State.afterWalk_mem (s : State) (asid : Nat) (o : Walk) : (s.afterWalk asid o).mem = s.mem := by
  unfold State.afterWalk
  split
  · rfl
  · dsimp only
    split <;> simp [State.failHost_mem]
  · rfl

@[simp] theorem State.translate_mem (s : State) (core asid va : Nat) : (s.translate core asid va).2.mem = s.mem := by
  unfold State.translate
  dsimp only
  split
  · rfl
  · split <;> simp

@[simp] theorem State.walkEntry_mem (s : State) (asid entry : Nat) : (s.walkEntry asid entry).mem = s.mem := by
  simp [State.walkEntry]

/-! ## Checks -/

@[simp] theorem State.afterRegen_mem (s : State) (asid page slot : Nat) : (s.afterRegen asid page slot).mem = s.mem := by
  unfold State.afterRegen
  split <;> simp

@[simp] theorem State.askWalk_mem (s : State) (asid : Nat) (b : Block) : (s.askWalk asid b).mem = s.mem := by
  unfold State.askWalk
  split <;> simp

@[simp] theorem State.startRegen_mem (s : State) (g : Grid) (asid page slot frame : Nat) :
    (s.startRegen g asid page slot frame).mem = s.mem := by
  unfold State.startRegen
  split <;> simp

@[simp] theorem State.startWait_mem (s : State) (g : Grid) (p : PageWait) : (s.startWait g p).mem = s.mem := by
  unfold State.startWait
  split <;> simp

@[simp] theorem State.checkContext_mem (s : State) (tk core : Nat) (k : AccKind) (hostOk : Bool) (va n : Nat) :
    (s.checkContext tk core k hostOk va n).2.mem = s.mem := by
  unfold State.checkContext
  dsimp only
  split
  · simp
  · simp
  · simp [apply_ite Prod.snd]
  · split <;> simp [apply_ite Prod.snd]

@[simp] theorem State.checkChunk_mem (s : State) (tk core : Nat) (k : AccKind) (hostOk engine : Bool) (va0 size : Nat)
    (c : Nat × Nat) :
    (s.checkChunk tk core k hostOk engine va0 size c).2.mem = s.mem := by
  simp [State.checkChunk, apply_ite Prod.snd]

@[simp] theorem State.checkChunks_mem (s : State) (tk core : Nat) (k : AccKind) (hostOk engine : Bool) (va0 size : Nat)
    (cs : List (Nat × Nat)) : (s.checkChunks tk core k hostOk engine va0 size cs).2.mem = s.mem := by
  induction cs generalizing s with
  | nil => rfl
  | cons c r ih => simp [State.checkChunks, ih]

@[simp] theorem State.checkAccess_mem (s : State) (w : Who) (core : Nat) (k : AccKind) (aligned hostOk engine : Bool)
    (va n : Nat) :
    (s.checkAccess w core k aligned hostOk engine va n).2.mem = s.mem := by
  unfold State.checkAccess
  dsimp only
  split
  · simp [apply_ite Prod.snd]
  · simp [apply_ite Prod.snd]
  · split
    · simp
    · split <;> simp

/-! ## The head run -/

@[simp] theorem State.clearMarks_mem (s : State) (core idx : Nat) : (s.clearMarks core idx).mem = s.mem := (rfl)
@[simp] theorem State.clearBlocks_mem (s : State) (r : Run) : (s.clearBlocks r).mem = s.mem := (rfl)

theorem State.issuing_mem {s t : State} {r : Run} (e : s.issuing = some (r, t)) : t.mem = s.mem := by
  unfold State.issuing at e
  split at e
  · split at e
    · cases e; simp
    · cases e
  · cases e

/-- An instruction of the head run keeps memory canonical where its meaning does. -/
theorem canonNext_onRun {s : State} {f : Run → State → Out} (h : Canon s.mem)
    (hf : ∀ r t, Canon t.mem → CanonNext (f r t)) : CanonNext (onRun s f) := by
  unfold onRun
  split
  · next r t e => exact hf r t (by rwa [State.issuing_mem e])
  · simpa using h

/-! ## Accesses of the dispatcher -/

@[simp] theorem State.endPageWait_mem (s : State) (asid page : Nat) : (s.endPageWait asid page).mem = s.mem := (rfl)

@[simp] theorem State.dispPlace_mem (s : State) (asid : Option Nat) (va : Nat) (writes : Bool) :
    (s.dispPlace asid va writes).2.mem = s.mem := by
  unfold State.dispPlace
  dsimp only
  split
  · rfl
  · split <;> simp [apply_ite Prod.snd]

@[simp] theorem State.dispPlaces_mem (s : State) (asid : Option Nat) (writes : Bool) (cs : List (Nat × Nat)) :
    (s.dispPlaces asid writes cs).2.mem = s.mem := by
  induction cs generalizing s with
  | nil => rfl
  | cons c r ih =>
    unfold State.dispPlaces
    split
    · next e =>
      split
      · next e2 => simp [mem_of_eq_pair e2, ih, mem_of_eq_pair e]
      · simp [ih, mem_of_eq_pair e]
    · next e => simp [mem_of_eq_pair e]
    · next e => split <;> next e2 => simp [mem_of_eq_pair e2, ih, mem_of_eq_pair e]

@[simp] theorem State.dispRuns_mem (s : State) (asid : Option Nat) (va n : Nat) (writes : Bool) :
    (s.dispRuns asid va n writes).2.mem = s.mem := by
  simp [State.dispRuns, apply_ite Prod.snd]

@[simp] theorem State.dispHold_mem (s : State) (asid : Option Nat) (p : PageWait) : (s.dispHold asid p).mem = s.mem := by
  unfold State.dispHold
  dsimp only
  split <;> simp

@[simp] theorem canon_dispStore {s : State} (asid : Option Nat) (va : Nat) (bs : List Byte) (full : Bool) (h : Canon s.mem) :
    Canon (s.dispStore asid va bs full).2.mem := by
  unfold State.dispStore
  split
  · next e => simp [mem_of_eq_pair e, h]
  · next e => simp [mem_of_eq_pair e, h]
  · next e => split <;> simp [mem_of_eq_pair e, h]

/-! ## Traps, records and fetch -/

@[simp] theorem State.dispLoad_mem (s : State) (asid : Option Nat) (va n : Nat) : (s.dispLoad asid va n).2.mem = s.mem := by
  unfold State.dispLoad
  split
  · next e => simp [mem_of_eq_pair e]
  · next e => simp [mem_of_eq_pair e]
  · next e => simp [apply_ite Prod.snd, State.loadRuns_mem, mem_of_eq_pair e]

@[simp] theorem State.postpone_mem (s : State) (x : LateWrite) : (s.postpone x).mem = s.mem := (rfl)

@[simp] theorem canon_traceWrite {s : State} (asid : Nat) (bs : List Byte) (h : Canon s.mem) :
    Canon (s.traceWrite asid bs).mem := by
  unfold State.traceWrite
  dsimp only
  split
  · exact h
  · split
    · exact h
    · simp [h]
    · split <;> next e => simp [mem_of_eq_pair e, h]

@[simp] theorem canon_traceEvent {s : State} (tk event : Nat) (h : Canon s.mem) : Canon (s.traceEvent tk event).mem := by
  simp [State.traceEvent, h]

@[simp] theorem canon_stopTeams {s : State} (asid : Nat) (h : Canon s.mem) : Canon (s.stopTeams asid).mem :=
  canon_foldl (fun s e hs => by simp -implicitDefEqProofs [hs]) _ h

@[simp] theorem State.noRecord_mem (s : State) (grid : Nat) : (s.noRecord grid).mem = s.mem := by
  simp [State.logEntry_mem, State.noRecord]

@[simp] theorem canon_writeRecord {s : State} (tk : Nat) (r : FaultRec) (h : Canon s.mem) : Canon (s.writeRecord tk r).mem := by
  unfold State.writeRecord
  dsimp only
  split
  · exact h
  · split <;> next e => simp [mem_of_eq_pair e, h]

@[simp] theorem State.endMoving_mem (s : State) (asid : Nat) : (s.endMoving asid).mem = s.mem := (rfl)

@[simp] theorem canon_faultContext {s : State} (tk : Nat) (r : FaultRec) (h : Canon s.mem) :
    Canon (s.faultContext tk r).mem := by
  unfold State.faultContext
  dsimp only
  repeat' split
  all_goals simp [h]

@[simp] theorem canon_settleFault {s : State} (asid : Nat) (h : Canon s.mem) : Canon (s.settleFault asid).mem := by
  unfold State.settleFault
  split
  · exact canon_writeRecord _ _ h
  · exact h

@[simp] theorem canon_unhandled {s : State} (tk : Nat) (r : FaultRec) (h : Canon s.mem) : Canon (s.unhandled tk r).mem := by
  unfold State.unhandled
  dsimp only
  split
  · split <;> simp [State.logEntry_mem, h]
  · simp [h]

@[simp] theorem canon_laneTrap {s : State} (r : Run) (epc : Word) (fs : List LaneFault) (h : Canon s.mem) :
    Canon (laneTrap s r epc fs).mem := by
  unfold laneTrap
  dsimp only
  split
  · split
    · exact h
    · exact canon_unhandled _ _ h
  · exact h

@[simp] theorem canonNext_trapAll {s : State} (r : Run) (cls code : Nat) (h : Canon s.mem) :
    CanonNext (trapAll s r cls code) := by
  simp [trapAll, h]

@[simp] theorem canonNext_undefinedInRun {s : State} (r : Run) (h : Canon s.mem) : CanonNext (undefinedInRun s r) := by
  simp [undefinedInRun, h]

theorem canonNext_onRunRegs {s : State} {fields : List Nat} {f : Run → State → Out} (h : Canon s.mem)
    (hf : ∀ r t, Canon t.mem → CanonNext (f r t)) : CanonNext (onRunRegs s fields f) := by
  refine canonNext_onRun h fun r t ht => ?_
  split
  · simp [ht]
  · exact hf r t ht

@[simp] theorem State.blockLanes_mem (s : State) (r : Run) (b : Block) : (s.blockLanes r b).mem = s.mem := (rfl)

@[simp] theorem State.holdLanes_mem (s : State) (r : Run) (p : PageWait) : (s.holdLanes r p).mem = s.mem := by
  simp [State.holdLanes]

@[simp] theorem canonNext_finishLanes {s : State} (r : Run) (len : Nat) (f : Nat → Lane → LaneOut) (h : Canon s.mem) :
    CanonNext (finishLanes s r len f) := by
  simp [finishLanes, h]

@[simp] theorem canonNext_laneOp {s : State} (len : Nat) (fields : List Nat) (f : Run → Team → Nat → Lane → LaneOut)
    (h : Canon s.mem) : CanonNext (laneOp s len fields f) :=
  canonNext_onRunRegs h fun _ _ ht => canonNext_finishLanes _ _ _ ht

theorem canonNext_onSeq {s : State} {f : Nat → Sequencer → State → Out} (h : Canon s.mem)
    (hf : ∀ tk q t, Canon t.mem → CanonNext (f tk q t)) : CanonNext (onSeq s f) := by
  unfold onSeq
  split
  · split
    · exact hf _ _ _ h
    · simp [h]
  · simp [h]

@[simp] theorem State.setSeq_mem (s : State) (tk : Nat) (q : Sequencer) : (s.setSeq tk q).mem = s.mem := (rfl)

@[simp] theorem canon_seqTrapAt {s : State} (tk : Nat) (cls code : Nat) (epc addr : Word) (h : Canon s.mem) :
    Canon (seqTrapAt s tk cls code epc addr).mem := by
  simp [seqTrapAt, h]

@[simp] theorem canonNext_seqTrap {s : State} (tk cls code : Nat) (addr : Word) (h : Canon s.mem) :
    CanonNext (seqTrap s tk cls code addr) := by
  simp [seqTrap, h]

@[simp] theorem canon_takeAsync {s : State} (tk : Nat) (a : AsyncTrap) (h : Canon s.mem) : Canon (takeAsync s tk a).mem := by
  unfold takeAsync
  dsimp only
  split <;> simp [h]

@[simp] theorem canon_raiseAsync {s : State} (tk : Nat) (a : AsyncTrap) (rec : FaultRec) (h : Canon s.mem) :
    Canon (raiseAsync s tk a rec).mem := by
  simp [raiseAsync, h]

@[simp] theorem State.seqDone_mem (s : State) (tk : Nat) (f : Sequencer → Sequencer) : (s.seqDone tk f).mem = s.mem := (rfl)

@[simp] theorem State.seqStay_mem (s : State) (tk : Nat) : (s.seqStay tk).mem = s.mem := (rfl)

@[simp] theorem State.seqPage_mem (s : State) (tk : Nat) (p : PageWait) (fetch : Bool) :
    (s.seqPage tk p fetch).mem = s.mem := by
  simp [State.seqPage]

@[simp] theorem canonNext_seqOp {s : State} (len : Nat) (f : Sequencer → Sequencer) (h : Canon s.mem) :
    CanonNext (seqOp s len f) := by
  unfold seqOp
  refine canonNext_onSeq h fun tk q t ht => ?_
  simp [ht]

@[simp] theorem State.putCode_mem (s : State) (core pl data : Nat) : (s.putCode core pl data).mem = s.mem := by
  simp [State.putCode]

@[simp] theorem State.fillLine_mem (s : State) (core asid vl pl : Nat) : (s.fillLine core asid vl pl).2.mem = s.mem := by
  unfold State.fillLine
  dsimp only
  repeat' split
  all_goals simp [State.failHost_mem]

@[simp] theorem State.fetchHalf_mem (s : State) (tk va : Nat) : (s.fetchHalf tk va).2.mem = s.mem := by
  unfold State.fetchHalf
  split
  · rfl
  · dsimp only
    split
    · simp
    · simp
    · simp [apply_ite Prod.snd]
    · split
      · split
        · simp
        · split
          · simp
          · split
            · next e => simp [mem_of_eq_pair e]
            · simp
      · simp

@[simp] theorem State.fetchInstr_mem (s : State) (tk va : Nat) : (s.fetchInstr tk va).2.mem = s.mem := by
  unfold State.fetchInstr
  split
  · next e =>
    split
    · simp [mem_of_eq_pair e]
    · split
      · next e' => simp [apply_ite Prod.snd, mem_of_eq_pair e', mem_of_eq_pair e]
      · simp [mem_of_eq_pair e]
  · simp

/-! ## Accesses, stores and reductions -/

@[simp] theorem canon_storeOrConsume {s : State} (w : Who) (done : Nat) (ps : List (Loc × Nat)) (bs : List Byte)
    (poison full : Bool) (tk : Nat) (r : FaultRec) (h : Canon s.mem) :
    Canon (s.storeOrConsume w done ps bs poison full tk r).mem := by
  unfold State.storeOrConsume
  split <;> simp [h]

@[simp] theorem State.recordStore_mem (s : State) (a : Agent) (va : Word) (size data : Nat) :
    (s.recordStore a va size data).mem = s.mem := by
  unfold State.recordStore
  split <;> simp

@[simp] theorem State.fifoRead_mem (s : State) (t b o : Nat) : (s.fifoRead t b o).2.mem = s.mem := by
  unfold State.fifoRead
  dsimp only
  split
  · split <;> simp
  · simp

@[simp] theorem State.fifoPush_mem (s : State) (t b : Nat) (x : VReg) : (s.fifoPush t b x).mem = s.mem := (rfl)

@[simp] theorem State.fifoEvent_mem (s : State) (w : Who) (t b o : Nat) : (s.fifoEvent w t b o).mem = s.mem := by
  simp [State.touchLoad_mem, State.touchStore_mem, State.setTag_mem, State.fifoEvent]

@[simp] theorem State.modLane_mem (s : State) (tk n : Nat) (f : Lane → Lane) : (s.modLane tk n f).mem = s.mem := (rfl)

@[simp] theorem canon_localAtom {s : State} (w : Who) (l : Loc) (op t : Nat) (y c : Word) (poison : Bool) (tk : Nat)
    (r : FaultRec) (h : Canon s.mem) :
    Canon (s.localAtom w l op t y c poison tk r).2.mem := by
  simp [State.localAtom, h]

@[simp] theorem canon_atomAt {s : State} (w : Who) (l : Loc) (op t : Nat) (y c : Word) (poison red : Bool) (tk : Nat)
    (r : FaultRec) (h : Canon s.mem) :
    Canon (s.atomAt w l op t y c poison red tk r).2.mem := by
  unfold State.atomAt
  dsimp only
  split
  · simp [State.touchStore_mem, h]
  · split <;> simp [State.failHost_mem, State.discardWrite_mem, h]

@[simp] theorem canon_planeAt {s : State} (w : Who) (l : Loc) (mask data : Nat) (poison : Bool) (h : Canon s.mem) :
    Canon (s.planeAt w l mask data poison).2.mem := by
  simp [State.planeAt, h]

@[simp] theorem State.askPiece_mem (s : State) (iaddr : Word) (a : Access) (p : Loc × Nat) :
    (s.askPiece iaddr a p).mem = s.mem := by
  unfold State.askPiece
  split <;> simp [State.undoLog_mem, State.forward_mem]

@[simp] theorem canon_doPiece {s : State} (iaddr : Word) (a : Access) (p : Loc × Nat) (rest : List (Loc × Nat))
    (h : Canon s.mem) :
    Canon (s.doPiece iaddr a p rest).2.mem := by
  unfold State.doPiece
  dsimp only
  repeat' split
  all_goals simp [State.loadPiece_mem, h]

@[simp] theorem canon_finish {s : State} (a : Access) (h : Canon s.mem) : Canon (s.finish a).mem := by
  unfold State.finish
  dsimp only
  split
  · split <;> simp [h]
  · split
    · split
      · exact canon_seqTrapAt _ _ _ _ _ h
      · simp [h]
    · simp [h]
    · exact h

/-- The state that performing the next piece of an access leaves. -/
def PieceOut.state : PieceOut → State
  | .wait s => s
  | .more _ s => s
  | .done s => s

@[simp] theorem PieceOut.state_wait (s : State) : (PieceOut.wait s).state = s := rfl
@[simp] theorem PieceOut.state_more (a : Access) (s : State) : (PieceOut.more a s).state = s := rfl
@[simp] theorem PieceOut.state_done (s : State) : (PieceOut.done s).state = s := rfl

@[simp] theorem canon_stepPiece {s : State} (idx : Nat) (iaddr : Word) (a : Access) (h : Canon s.mem) :
    Canon (s.stepPiece idx iaddr a).state.mem := by
  unfold State.stepPiece
  split
  · simp [h]
  · split
    · exact h
    · split
      · simp [h]
      · dsimp only
        split <;> simp [h]

/-- By induction on the pieces performed: each step keeps the form. -/
@[simp] theorem canon_performList {s : State} (fuel idx : Nat) (iaddr : Word) (as : List Access) (h : Canon s.mem) :
    Canon (s.performList fuel idx iaddr as).2.mem := by
  have step {s t : State} {a : Access} {o : PieceOut} (h : Canon s.mem) (e : s.stepPiece idx iaddr a = o) (ho : o.state = t) :
      Canon t.mem := by
    rw [← ho, ← e]
    exact canon_stepPiece idx iaddr a h
  fun_induction State.performList s fuel idx iaddr as with
  | case1 => exact h
  | case2 => exact h
  | case3 s a r k t e => exact step h e rfl
  | case4 s a r k b t e ih => exact ih (step h e rfl)
  | case5 s a r k t e ih => exact ih (step h e rfl)

@[simp] theorem State.markWaiting_mem (s : State) (tk : Nat) (lanes : List Nat) : (s.markWaiting tk lanes).mem = s.mem := (rfl)

@[simp] theorem State.laneDone_mem (s : State) (tk : Nat) (lanes : List Nat) : (s.laneDone tk lanes).mem = s.mem := by
  simp [State.laneDone]

@[simp] theorem State.tagAll_mem (s : State) (as : List Access) : (s.tagAll as).mem = s.mem :=
  foldl_mem (fun s a => by simp [State.setTag_mem]) _ _

@[simp] theorem canon_performOrPark {s : State} (tk : Nat) (lanes : List Nat) (iaddr : Word) (as : List Access)
    (h : Canon s.mem) :
    Canon (s.performOrPark tk lanes iaddr as).mem := by
  unfold State.performOrPark
  dsimp only
  split <;> simp [h]

@[simp] theorem canon_resumeParked {s : State} (idx : Nat) (h : Canon s.mem) : Canon (s.resumeParked idx).mem := by
  unfold State.resumeParked
  split
  · exact h
  · dsimp only
    split
    · split <;> simp [h]
    · exact h

@[simp] theorem canon_applyRed {s : State} (grid : Nat) (e : RedEntry) (h : Canon s.mem) : Canon (s.applyRed grid e).mem := by
  simp [State.applyRed, h]

@[simp] theorem canon_stepRed {s : State} (grid : Nat) (e : RedEntry) (h : Canon s.mem) : Canon (s.stepRed grid e).2.mem := by
  unfold State.stepRed
  split
  · simp [h]
  · split <;> simp [State.touchStore_mem, State.undoLog_mem, State.forward_mem, h]

@[simp] theorem canon_applyReds {s : State} (idx grid : Nat) (es : List RedEntry) (h : Canon s.mem) :
    Canon (s.applyReds idx grid es).2.mem := by
  fun_induction State.applyReds s idx grid es with
  | case1 => exact h
  | case2 => exact h
  | case3 s x r hb e t hs => exact canon_of_eq_pair hs (canon_stepRed grid x h)
  | case4 s x r hb t hs ih => exact ih (canon_of_eq_pair hs (canon_stepRed grid x h))

@[simp] theorem canon_joinStores {s : State} (tk : Nat) (buf : List BufByte) (ns : List Nat) (h : Canon s.mem) :
    Canon (s.joinStores tk buf ns).2.mem := by
  induction ns generalizing s with
  | nil => exact h
  | cons n r ih =>
    unfold State.joinStores
    dsimp only
    split
    · exact h
    · exact ih (canon_storeRuns _ _ _ _ _ _ h)

@[simp] theorem canon_drainIf {s : State} (tk : Nat) (p : BufByte → Bool) (h : Canon s.mem) : Canon (s.drainIf tk p).mem := by
  simp [State.drainIf, h]

@[simp] theorem canon_drainAll {s : State} (tk : Nat) (h : Canon s.mem) : Canon (s.drainAll tk).mem := by
  simp [State.drainAll, h]

@[simp] theorem canonNext_unary {s : State} (len d a : Nat) (f : Word → Word × Flags) (h : Canon s.mem) :
    CanonNext (unary s len d a f) := by
  simp [unary, h]

@[simp] theorem canonNext_binary {s : State} (len d a b : Nat) (f : Word → Word → Word × Flags) (h : Canon s.mem) :
    CanonNext (binary s len d a b f) := by
  simp [binary, h]

@[simp] theorem canonNext_ternary {s : State} (len d a b c : Nat) (f : Word → Word → Word → Word × Flags) (h : Canon s.mem) :
    CanonNext (ternary s len d a b c f) := by
  simp [ternary, h]

@[simp] theorem canonNext_compare2 {s : State} (p a b : Nat) (f : Word → Word → Bool × Flags) (h : Canon s.mem) :
    CanonNext (compare2 s p a b f) := by
  simp [compare2, h]

@[simp] theorem canonNext_crossOp {s : State} (fields : List Nat) (f : Run → Nat → Team → Nat → Lane → LaneOut)
    (h : Canon s.mem) :
    CanonNext (crossOp s fields f) := by
  unfold crossOp
  refine canonNext_onRunRegs h fun r t ht => ?_
  simp [ht]

/-! ## Barriers and releases -/

@[simp] theorem State.nextInterval_mem (s : State) (grid : Nat) : (s.nextInterval grid).mem = s.mem := by
  simp [State.nextInterval]

@[simp] theorem State.raiseTeams_mem (s : State) (tks : List Nat) : (s.raiseTeams tks).mem = s.mem := by
  simp [State.raiseTeams]

@[simp] theorem canon_endRelease {s : State} (r : Release) (h : Canon s.mem) : Canon (s.endRelease r).mem := by
  unfold State.endRelease
  split <;> simp -implicitDefEqProofs [h]

@[simp] theorem canon_progressRelease {s : State} (idx : Nat) (h : Canon s.mem) : Canon (s.progressRelease idx).mem := by
  unfold State.progressRelease
  dsimp only
  split
  · simp [h]
  · split <;> simp [h]

@[simp] theorem canon_startRelease {s : State} (r : Release) (h : Canon s.mem) : Canon (s.startRelease r).mem := by
  simp [State.startRelease, h]

@[simp] theorem State.flushTeam_mem (s : State) (tk : Nat) (es : List RedEntry) : (s.flushTeam tk es).2.mem = s.mem := by
  simp [State.flushTeam, apply_ite Prod.snd]

@[simp] theorem canon_releaseBar {s : State} (tk b : Nat) (h : Canon s.mem) : Canon (s.releaseBar tk b).mem := by
  simp [State.releaseBar, h]

@[simp] theorem canon_testAuto {s : State} (tk b : Nat) (h : Canon s.mem) : Canon (s.testAuto tk b).mem := by
  simp [State.testAuto, h]

@[simp] theorem canon_arriveOne {s : State} (tk b : Nat) (lane : Option Nat) (waits : Bool) (h : Canon s.mem) :
    Canon (s.arriveOne tk b lane waits).mem := by
  unfold State.arriveOne
  dsimp only
  repeat' split
  all_goals simp -implicitDefEqProofs [h]

@[simp] theorem canon_testCbar {s : State} (grid cluster : Nat) (h : Canon s.mem) : Canon (s.testCbar grid cluster).mem := by
  simp -implicitDefEqProofs [State.testCbar, h]

@[simp] theorem State.takeReds_mem (s : State) (grid : Nat) : (s.takeReds grid).2.mem = s.mem := (rfl)

@[simp] theorem canon_testGbar {s : State} (grid : Nat) (h : Canon s.mem) : Canon (s.testGbar grid).mem := by
  simp [State.testGbar, h]

@[simp] theorem canon_afterExit {s : State} (tk : Nat) (seqExit : Bool) (h : Canon s.mem) :
    Canon (s.afterExit tk seqExit).mem := by
  have hb : Canon ((List.range 16).foldl (fun s b => s.testAuto tk b) s).mem :=
    canon_foldl (fun _ _ ht => canon_testAuto _ _ ht) _ h
  have hg : ∀ g c k, Canon (((((List.range 16).foldl (fun s b => s.testAuto tk b) s).testCbar g c).testGbar k).mem) :=
    fun _ _ _ => canon_testGbar _ (canon_testCbar _ _ hb)
  simp [State.afterExit, hb, hg]

@[simp] theorem State.passLanes_mem (s : State) (r : Run) : (s.passLanes r).mem = s.mem := (rfl)

@[simp] theorem canonNext_laneArrive {s : State} (b : Nat) (waits : Bool) (h : Canon s.mem) :
    CanonNext (laneArrive s b waits) := by
  refine canonNext_onRun h fun r t ht => ?_
  rw [canonNext_next]
  exact canon_foldl (fun _ _ hu => canon_arriveOne _ _ _ _ hu) _ ht

@[simp] theorem canonNext_execBarw {s : State} (b : BitVec 4) (h : Canon s.mem) : CanonNext (execBarw b s) := by
  unfold execBarw
  refine canonNext_onRun h fun r t ht => ?_
  simp [ht]

@[simp] theorem canonNext_execBari {s : State} (c : BitVec 11) (b : BitVec 4) (h : Canon s.mem) :
    CanonNext (execBari c b s) := by
  unfold execBari
  refine canonNext_onSeq h fun tk q t ht => ?_
  simp [ht]

theorem canonNext_fenced {s : State} {f : BitVec 1} {g : Nat → State → Out} (h : Canon s.mem)
    (hg : ∀ tk t, Canon t.mem → CanonNext (g tk t)) : CanonNext (fenced s f g) := by
  refine canonNext_onSeq h fun tk q t ht => ?_
  dsimp only
  split
  · split
    · exact hg _ _ (canon_drainAll _ ht)
    · simp [ht]
  · exact hg _ _ ht

@[simp] theorem canonNext_execBarBara {s : State} (f : BitVec 1) (b : BitVec 4) (h : Canon s.mem) :
    CanonNext (execBarBara f b s) :=
  canonNext_fenced h fun _ _ ht => by simp [ht]

theorem State.resumeHeld_mem {s t : State} {tk : Nat} (e : s.resumeHeld tk = some t) : t.mem = s.mem := by
  unfold State.resumeHeld at e
  dsimp only at e
  split at e
  · cases e
  · split at e
    · cases e
      simp
    · cases e

@[simp] theorem canonNext_execBarBarw {s : State} (f : BitVec 1) (b : BitVec 4) (h : Canon s.mem) :
    CanonNext (execBarBarw f b s) := by
  refine canonNext_fenced h fun tk t ht => ?_
  split
  · next e => simp [State.resumeHeld_mem e, ht]
  · simp [ht]

@[simp] theorem canonNext_execBarBaraw {s : State} (f : BitVec 1) (b : BitVec 4) (h : Canon s.mem) :
    CanonNext (execBarBaraw f b s) := by
  refine canonNext_fenced h fun tk t ht => ?_
  split
  · next e => simp [State.resumeHeld_mem e, ht]
  · simp [ht]

@[simp] theorem canonNext_execCbar {s : State} (h : Canon s.mem) : CanonNext (execCbar s) := by
  refine canonNext_onSeq h fun tk q t ht => ?_
  split
  · next e => simp [State.resumeHeld_mem e, ht]
  · simp -implicitDefEqProofs [ht]

@[simp] theorem canonNext_execGbar {s : State} (h : Canon s.mem) : CanonNext (execGbar s) := by
  refine canonNext_onSeq h fun tk q t ht => ?_
  split
  · next e => simp [State.resumeHeld_mem e, ht]
  · simp -implicitDefEqProofs [ht]

@[simp] theorem canonNext_execReleaseWaitEnd {s : State} (h : Canon s.mem) : CanonNext (execReleaseWaitEnd s) := by
  unfold execReleaseWaitEnd
  dsimp only
  repeat' split
  all_goals simp [h]

/-! ## Command engines -/

@[simp] theorem State.readPieces_mem (s : State) (w : Who) (ps : List (Loc × Nat)) : (s.readPieces w ps).2.mem = s.mem := by
  induction ps generalizing s with
  | nil => rfl
  | cons p r ih => simp [State.readPieces, ih, State.loadPiece_mem]

@[simp] theorem State.readHold_mem (s : State) (w : Who) (ps : List (Loc × Nat)) : (s.readHold w ps).2.mem = s.mem := by
  simp [State.readHold, apply_ite Prod.snd]

@[simp] theorem State.readStretch_mem (s : State) (c : Cmd) (va n : Nat) : (s.readStretch c va n).2.2.mem = s.mem := by
  unfold State.readStretch
  dsimp only
  repeat' split
  all_goals simp

@[simp] theorem State.readStretches_mem (s : State) (c : Cmd) (xs : List (Nat × Nat)) :
    (s.readStretches c xs).2.2.mem = s.mem := by
  induction xs generalizing s with
  | nil => rfl
  | cons x r ih => simp [State.readStretches, ih]

@[simp] theorem State.asked_mem (s t : State) : (s.asked t).mem = s.mem := (rfl)

@[simp] theorem State.recall_mem (s : State) (name : Nat) : (s.recall name).mem = s.mem := by
  unfold State.recall
  split
  · split <;> simp
  · simp

@[simp] theorem State.readIndexes_mem (s : State) (c : Cmd) (k : Nat) : (s.readIndexes c k).2.2.mem = s.mem := by
  induction k with
  | zero => rfl
  | succ j ih => simp [State.readIndexes, ih]

@[simp] theorem canon_arrive {s : State} (w : Who) (l : Loc) (n : Nat) (h : Canon s.mem) : Canon (s.arrive w l n).mem := by
  simp [State.arrive, h]

@[simp] theorem canon_arriveErr {s : State} (w : Who) (l : Loc) (code cause : Nat) (h : Canon s.mem) :
    Canon (s.arriveErr w l code cause).mem := by
  simp [State.arriveErr, h]

@[simp] theorem canon_cmdError {s : State} (c : Cmd) (code cause addr : Nat) (h : Canon s.mem) :
    Canon (s.cmdError c code cause addr).mem := by
  unfold State.cmdError
  dsimp only
  split
  · exact h
  · split <;> simp [h]

@[simp] theorem State.cmdPage_mem (s : State) (num : Nat) (b : Block) : (s.cmdPage num b).mem = s.mem := by
  unfold State.cmdPage
  split <;> simp

@[simp] theorem State.holdCmd_mem (s : State) (c : Cmd) (p : PageWait) : (s.holdCmd c p).mem = s.mem := by
  simp [State.holdCmd]

/-! ### Plans -/

/-- The state that one item of a plan leaves. -/
def ItemOut.state : ItemOut → State
  | .wait s => s
  | .done s => s
  | .stop s => s
  | .late _ s => s

@[simp] theorem ItemOut.state_wait (s : State) : (ItemOut.wait s).state = s := rfl
@[simp] theorem ItemOut.state_done (s : State) : (ItemOut.done s).state = s := rfl
@[simp] theorem ItemOut.state_stop (s : State) : (ItemOut.stop s).state = s := rfl
@[simp] theorem ItemOut.state_late (i : PlanItem) (s : State) : (ItemOut.late i s).state = s := rfl

/-- The state that one turn of a plan leaves. -/
def PlanOut.state : PlanOut → State
  | .wait s => s
  | .left _ _ s => s
  | .stop s => s

@[simp] theorem PlanOut.state_wait (s : State) : (PlanOut.wait s).state = s := rfl
@[simp] theorem PlanOut.state_left (xs : List PlanItem) (n : Nat) (s : State) : (PlanOut.left xs n s).state = s := rfl
@[simp] theorem PlanOut.state_stop (s : State) : (PlanOut.stop s).state = s := rfl

@[simp] theorem canon_failItem {s : State} (c : Cmd) (code cause addr : Nat) (h : Canon s.mem) :
    Canon (s.failItem c code cause addr).state.mem := by
  unfold State.failItem
  split <;> simp [h]

theorem canon_writeLine {s : State} (c : Cmd) (runs : List (Loc × Nat)) (bytes : List (Nat × Nat)) (poison : Bool)
    (h : Canon s.mem) : Canon (s.writeLine c runs bytes poison).state.mem := by
  unfold State.writeLine
  extract_lets ps w' w whole sent u old v data t
  have hu : Canon u.mem := by simp [u, h]
  have hv : Canon v.mem := canon_foldl (fun t p ht => by split <;> simp [ht]) _ hu
  have ht : Canon t.mem := canon_storeOrConsume _ _ _ _ _ _ _ _ hv
  split
  · split <;> simp [h]
  · split
    · exact hu
    · split
      · exact ht
      · exact ht

@[simp] theorem canon_doItem {s : State} (c : Cmd) (it : PlanItem) (h : Canon s.mem) : Canon (s.doItem c it).state.mem := by
  unfold State.doItem
  dsimp only
  split
  · split
    · simp [h]
    · simp [h]
    · split
      · simp [h]
      · exact canon_writeLine _ _ _ _ (by simpa using h)
  · split
    · exact h
    · split
      · exact h
      · split
        · simp [h]
        · exact canon_arrive _ _ _ h
  · exact canon_failItem _ _ _ _ h

theorem canon_of_doItem {s t : State} {c : Cmd} {it : PlanItem} {o : ItemOut} (h : Canon s.mem) (e : s.doItem c it = o)
    (ho : o.state = t) : Canon t.mem := by
  rw [← ho, ← e]
  exact canon_doItem c it h

@[simp] theorem canon_runPlan {s : State} (c : Cmd) (it : PlanItem) (rest : List PlanItem) (h : Canon s.mem) :
    Canon (s.runPlan c it rest).state.mem := by
  unfold State.runPlan
  split
  · next e => exact canon_of_doItem h e rfl
  · next e => exact canon_of_doItem h e rfl
  · next e => exact canon_of_doItem h e rfl
  · next e =>
    have ht := canon_of_doItem h e rfl
    split
    · split <;> next e' => exact canon_of_doItem ht e' rfl
    · exact ht

theorem canon_of_runPlan {s t : State} {c : Cmd} {it : PlanItem} {rest : List PlanItem} {o : PlanOut} (h : Canon s.mem)
    (e : s.runPlan c it rest = o) (ho : o.state = t) : Canon t.mem := by
  rw [← ho, ← e]
  exact canon_runPlan c it rest h

@[simp] theorem State.tagCmd_mem (s : State) (c : Cmd) (dst src : List (Loc × Nat)) : (s.tagCmd c dst src).mem = s.mem := by
  simp [State.setTag_mem, State.tagCmd]

@[simp] theorem State.pushCmd_mem (s : State) (q tk : Nat) (lane : Option Nat) (iaddr : Word) (words : List Word) :
    (s.pushCmd q tk lane iaddr words).mem = s.mem := by
  unfold State.pushCmd
  dsimp only
  split <;> simp [State.undoLog_mem]

@[simp] theorem State.markPushed_mem (s : State) (tk : Nat) : (s.markPushed tk).mem = s.mem := (rfl)

@[simp] theorem State.pushLanes_mem (s : State) (q : Nat) (r : Run) (d : Nat) (ns : List Nat) :
    (s.pushLanes q r d ns).2.mem = s.mem := by
  induction ns generalizing s with
  | nil => rfl
  | cons n rest ih => simp [State.pushLanes, apply_ite Prod.snd, ih]

@[simp] theorem canonNext_lanePush {s : State} (q p d : Nat) (h : Canon s.mem) : CanonNext (lanePush s q p d) := by
  refine canonNext_onRunRegs h fun r t ht => ?_
  dsimp only
  split
  · exact canonNext_trapAll _ _ _ ht
  · split
    · simp [ht]
    · split <;> simp [ht]

@[simp] theorem canonNext_seqPush {s : State} (q f d : Nat) (h : Canon s.mem) : CanonNext (seqPush s q f d) := by
  refine canonNext_onSeq h fun tk sq t ht => ?_
  dsimp only
  split
  · exact canonNext_seqTrap _ _ _ _ ht
  · split <;> simp [ht]

/-! ## Pages and forwarded accesses -/

@[simp] theorem State.invalidate_mem (s : State) (asid va size : Nat) : (s.invalidate asid va size).mem = s.mem := (rfl)

@[simp] theorem State.invalidateAll_mem (s : State) (asid : Nat) : (s.invalidateAll asid).mem = s.mem := (rfl)

@[simp] theorem State.dropCode_mem (s : State) (frame : Nat) : (s.dropCode frame).mem = s.mem := (rfl)

@[simp] theorem State.scanFrame_mem (s : State) (f : Nat) : (s.scanFrame f).mem = s.mem := by
  simp [State.detect_mem, State.scanFrame]

@[simp] theorem canon_moveLine {s : State} (k k' : Nat) (h : Canon s.mem) : Canon (s.moveLine k k').mem :=
  canon_putBytes _ _ h

@[simp] theorem canon_moveLines {s : State} (f loc location : Nat) (h : Canon s.mem) :
    Canon (s.moveLines f loc location).mem := by
  unfold State.moveLines
  dsimp only
  split
  · exact canon_foldl (fun _ _ ht => canon_moveLine _ _ ht) _ h
  · exact h

@[simp] theorem State.setFree_mem (s : State) (tier chip : Nat) (l : List Nat) : (s.setFree tier chip l).mem = s.mem := (rfl)

@[simp] theorem State.endMove_mem (s : State) (f loc location : Nat) : (s.endMove f loc location).mem = s.mem := by
  unfold State.endMove
  extract_lets e old place t
  have ht : t.mem = s.mem := by simp [t]
  rw [State.setFrame_mem, ht]

@[simp] theorem canon_finishMove {s : State} (f loc location : Nat) (h : Canon s.mem) :
    Canon (s.finishMove f loc location).mem := by
  simp [State.finishMove, h]

@[simp] theorem State.setMig_mem (s : State) (f : Nat) (on : Bool) : (s.setMig f on).mem = s.mem :=
  State.setFrame_mem ..

@[simp] theorem State.putPg_mem (s : State) (num : Nat) (c : Option Cmd) : (s.putPg num c).mem = s.mem := (rfl)

@[simp] theorem State.stopPg_mem (s : State) (c : Cmd) (code : Nat) : (s.stopPg c code).mem = s.mem := (rfl)

@[simp] theorem State.pgHandled_mem (s : State) (c : Cmd) : (s.pgHandled c).mem = s.mem := (rfl)

@[simp] theorem State.sendLine_mem (s : State) (c : Cmd) (f i : Nat) (bytes : List Byte) (poison : Bool) (wts rts : Nat) :
    (s.sendLine c f i bytes poison wts rts).mem = s.mem := by
  simp [State.sendFor_mem, State.sendLine]

@[simp] theorem State.launchLine_mem (s : State) (c : Cmd) (f : Nat) : (s.launchLine c f).mem = s.mem := by
  unfold State.launchLine
  dsimp only
  split
  · simp
  · split <;> simp [State.detect_mem, State.sendFor_mem]

@[simp] theorem canon_landLine {s : State} (k : Nat) (x : Forward) (h : Canon s.mem) : Canon (s.landLine k x).mem :=
  canon_putBytes _ _ h

@[simp] theorem State.dropFlights_mem (s : State) (c : Cmd) : (s.dropFlights c).mem = s.mem := by
  simp [State.dropFlights]

@[simp] theorem State.stopFlight_mem (s : State) (c : Cmd) (f chip code : Nat) : (s.stopFlight c f chip code).mem = s.mem := by
  simp only [State.stopFlight, State.stopPg_mem, State.setFree_mem, State.setMig_mem, State.dropFlights_mem]

@[simp] theorem canon_landLines {s : State} (c : Cmd) (f chip : Nat) (h : Canon s.mem) : Canon (s.landLines c f chip).mem := by
  unfold State.landLines
  extract_lets xs came bad t
  have ht : t.mem = s.mem := State.dropFlights_mem s c
  split
  · simp [h]
  · split
    · rw [State.pgHandled_mem, State.endMove_mem]
      exact canon_foldl (fun _ _ hu => canon_landLine _ _ hu) _ (by rwa [ht])
    · split
      · rwa [State.pgHandled_mem, State.endMove_mem, ht]
      · exact canon_foldl (fun _ _ hu => by simp [hu]) _ (by rwa [ht])

@[simp] theorem canon_flyFrame {s : State} (c : Cmd) (f chip : Nat) (h : Canon s.mem) : Canon (s.flyFrame c f chip).mem := by
  unfold State.flyFrame
  split
  · simp [h]
  · split
    · simp [h]
    · split
      · simp [h]
      · split <;> simp [h]

@[simp] theorem canon_migrate {s : State} (c : Cmd) (f chip : Nat) (h : Canon s.mem) : Canon (s.migrate c f chip).mem := by
  unfold State.migrate
  dsimp only
  split
  · exact h
  · split
    · simp [h]
    · split
      · simp [h]
      · simp only [State.pgHandled_mem]
        exact canon_finishMove _ _ _ (by simp [h])

@[simp] theorem canon_pgFrame {s : State} (c : Cmd) (h : Canon s.mem) : Canon (s.pgFrame c).mem := by
  unfold State.pgFrame
  extract_lets f e chip code
  split
  · rwa [State.pgHandled_mem, State.setFrame_mem]
  · rwa [State.pgHandled_mem, State.setFrame_mem]
  · split
    · exact canon_flyFrame c f chip h
    · split
      · exact canon_migrate c f chip h
      · split
        · exact h
        · split
          · rwa [State.stopPg_mem]
          · split
            · rwa [State.pgHandled_mem]
            · rwa [State.putPg_mem, State.setMig_mem]

@[simp] theorem canon_advancePg {s : State} (c : Cmd) (h : Canon s.mem) : Canon (s.advancePg c).mem := by
  unfold State.advancePg
  split
  · split
    · next e => exact canon_of_runPlan h e rfl
    · next e =>
      rw [State.putPg_mem]
      exact canon_of_runPlan h e rfl
    · next e =>
      rw [State.putPg_mem]
      exact canon_of_runPlan h e rfl
    · next e =>
      split <;>
      · rw [State.putPg_mem]
        exact canon_of_runPlan h e rfl
  · dsimp only
    split <;> simp [h]

@[simp] theorem canonNext_pgEvent {s : State} (op : Nat) (h : Canon s.mem) : CanonNext (pgEvent s op) := by
  unfold pgEvent
  split
  · split
    · simp [h]
    · split <;> simp [h]
  · simp [h]

@[simp] theorem canon_demoteFrame {s : State} (tier f : Nat) (h : Canon s.mem) : Canon (s.demoteFrame tier f).mem := by
  unfold State.demoteFrame
  dsimp only
  split
  · exact h
  · split
    · rwa [State.setVictim_mem, State.setMig_mem, State.scanFrame_mem]
    · split
      · rwa [State.scanFrame_mem]
      · rw [State.setVictim_mem]
        exact canon_finishMove _ _ _ (by rwa [State.setFree_mem, State.scanFrame_mem])

@[simp] theorem State.endDemotion_mem (s : State) (tier : Nat) : (s.endDemotion tier).mem = s.mem := (rfl)

@[simp] theorem canon_demote {s : State} (tier : Nat) (h : Canon s.mem) : Canon (s.demote tier).mem := by
  unfold State.demote
  dsimp only
  split <;> simp [h]

@[simp] theorem canonNext_execDemotion {s : State} (h : Canon s.mem) : CanonNext (execDemotion s) := by
  unfold execDemotion
  split
  · split <;> simp [h]
  · simp [h]

@[simp] theorem canonNext_execPageReadback {s : State} (h : Canon s.mem) : CanonNext (execPageReadback s) := by
  unfold execPageReadback
  split
  · split
    · exact (canonNext_next s).2 h
    · split
      · exact (canonNext_next _).2 (by rwa [State.setLoc_mem])
      · exact (canonNext_next _).2 (by rw [State.setFrame_mem]; exact canon_moveLines _ _ _ h)
  · exact (canonNext_next s).2 h

@[simp] theorem State.endForwards_mem (s : State) : s.endForwards.mem = s.mem := by
  simp [State.discardWrite_mem, State.endForwards]

@[simp] theorem State.loseFrames_mem (s : State) : s.loseFrames.mem = s.mem := by
  simp [State.loseFrames]

@[simp] theorem canonNext_execIndirectionEntryWrite {s : State} (h : Canon s.mem) :
    CanonNext (execIndirectionEntryWrite s) := by
  unfold execIndirectionEntryWrite
  split
  · split
    · exact (canonNext_next _).2 (by rwa [State.loseFrames_mem, State.setFrame_mem])
    · exact (canonNext_next s).2 h
  · exact (canonNext_next s).2 h

theorem State.relay_mem {s : State} (o : FwdFor) {ask : State → State} (ha : (ask s).mem = s.mem) :
    (s.relay o ask).2.mem = s.mem := by
  unfold State.relay
  split
  · exact ha
  · split <;> simp

@[simp] theorem State.answer_mem (s : State) (dst tag : Nat) (r : List Byte × Bool) (host : Option Nat)
    (old : Option (List Byte × Bool)) :
    (s.answer dst tag r host old).mem = s.mem := by
  simp [State.enqueue_mem, State.answer]

@[simp] theorem canon_serveFlit {s : State} (f : Flit) (h : Canon s.mem) : Canon (s.serveFlit f).2.mem := by
  unfold State.serveFlit
  dsimp only
  split
  · split
    · exact h
    · split <;> simp [State.loadRuns_mem, h]
  · split
    · exact h
    · split
      · split <;> next e => simp [mem_of_eq_pair e, State.relay_mem, State.forward_mem, State.touchStore_mem, h]
      · split <;> simp [h]
  · split
    · exact h
    · split
      · split <;> next e => simp [mem_of_eq_pair e, State.relay_mem, State.forward_mem, h]
      · split <;> simp [h]
  · split
    · rwa [State.answer_mem]
    · rw [State.answer_mem]
      split
      · exact canon_putBytes _ _ h
      · exact h
  · split
    · exact h
    · split <;> simp [State.enqueue_mem, h]
  · exact h

@[simp] theorem canonNext_execForwardedAccess {s : State} (h : Canon s.mem) : CanonNext (execForwardedAccess s) := by
  unfold execForwardedAccess
  split
  · split
    · simp [h]
    · split
      · simp [h]
      · split <;> next e => simpa [mem_of_eq_pair e] using canon_serveFlit _ h
  · simp [h]

@[simp] theorem canonNext_execHostBridgeError {s : State} (h : Canon s.mem) : CanonNext (execHostBridgeError s) := by
  unfold execHostBridgeError
  split <;> simp [h]

@[simp] theorem canon_validatePage {s : State} (asid page : Nat) (h : Canon s.mem) :
    Canon (s.validatePage asid page).2.mem := by
  unfold State.validatePage
  dsimp only
  split
  · exact h
  · split
    · split
      · exact h
      · simp only [State.invalidate_mem]
        exact canon_storePiece _ _ _ _ _ (by simp [h])
    · exact h
  · exact h

@[simp] theorem canonNext_execRegenerationComplete {s : State} (h : Canon s.mem) : CanonNext (execRegenerationComplete s) := by
  unfold execRegenerationComplete
  dsimp only
  split
  · next asid page _ =>
    split
    · simp [h]
    · split
      · simp [h]
      · split
        · split <;> next e => simpa [mem_of_eq_pair e] using canon_validatePage asid page h
        · split <;> simp [h]
  · simp [h]

/-! ## Packets and contexts -/

@[simp] theorem State.setPort_mem (s : State) (c : Nat) (x : PortQueue) : (s.setPort c x).mem = s.mem := (rfl)

@[simp] theorem State.sendMsi_mem (s : State) (v : Nat) : (s.sendMsi v).mem = s.mem := by
  simp [State.sendMsi]

@[simp] theorem State.interrupt_mem (s : State) (c : CompWord) : (s.interrupt c).mem = s.mem := by
  simp [State.interrupt]

@[simp] theorem State.countDrop_mem (s : State) (port : Nat) : (s.countDrop port).mem = s.mem := (rfl)

@[simp] theorem State.unload_mem (s : State) (k : Nat) : (s.unload k).mem = s.mem := (rfl)

@[simp] theorem State.releaseObj_mem (s : State) (k : Nat) : (s.releaseObj k).mem = s.mem := by
  simp [State.releaseObj]

@[simp] theorem canon_storeWord {s : State} (c : CompWord) (w : Word) (h : Canon s.mem) : Canon (s.storeWord c w).2.mem := by
  simp [State.storeWord, h]

@[simp] theorem State.postponeWord_mem (s : State) (w : HeldWrite) (drop : Bool) : (s.postponeWord w drop).mem = s.mem := (rfl)

@[simp] theorem State.wordFault_mem (s : State) (w : HeldWrite) (drop : Bool) : (s.wordFault w drop).mem = s.mem := by
  unfold State.wordFault
  split
  · rfl
  · split <;> simp

@[simp] theorem canon_writeWord {s : State} (w : HeldWrite) (drop : Bool) (h : Canon s.mem) :
    Canon (s.writeWord w drop).mem := by
  unfold State.writeWord
  split
  · exact h
  · split
    · simp [h]
    · split <;> next e => simp [mem_of_eq_pair e, h]

@[simp] theorem canon_complete {s : State} (c : CompWord) (low : Nat) (h : Canon s.mem) : Canon (s.complete c low).mem := by
  simp [State.complete, h]

@[simp] theorem canon_tryLate {s : State} (h : Canon s.mem) : Canon s.tryLate.mem := by
  unfold State.tryLate
  dsimp only
  split
  · exact h
  · split
    · next e => simp [mem_of_eq_pair e, h]
    · next e => split <;> simp [mem_of_eq_pair e, h]
    · next e => split <;> simp [mem_of_eq_pair e, h]

@[simp] theorem canon_rejectPacket {s : State} (p : Packet) (r : QueueRights) (h : Canon s.mem) :
    Canon (s.rejectPacket p r).mem := by
  simp [State.rejectPacket, h]

@[simp] theorem State.dependence_mem (s : State) (p : Packet) : (s.dependence p).2.mem = s.mem := by
  unfold State.dependence
  split
  · rfl
  · split <;> next e => simp [mem_of_eq_pair e]

@[simp] theorem State.headPacket_mem (s : State) (q : Nat) : (s.headPacket q).2.mem = s.mem := by
  unfold State.headPacket
  split
  · split <;> next e => simp [mem_of_eq_pair e]
  · split <;> simp

@[simp] theorem State.popPacket_mem (s : State) (q : Nat) : (s.popPacket q).mem = s.mem := by
  simp [State.popPacket]

@[simp] theorem State.blockQueue_mem (s : State) (q : Nat) : (s.blockQueue q).mem = s.mem := by
  simp [State.blockQueue]

@[simp] theorem State.dropHead_mem (s : State) (q : Nat) (r : QueueRights) : (s.dropHead q r).mem = s.mem := by
  simp [State.dropHead]

@[simp] theorem canon_rejectHead {s : State} (q : Nat) (r : QueueRights) (p : Packet) (h : Canon s.mem) :
    Canon (s.rejectHead q r p).mem := by
  simp [State.rejectHead, h]

@[simp] theorem State.rewind_mem (s t : State) : (s.rewind t).mem = t.mem := (rfl)

/-- The state that acting on a packet leaves. -/
def Acted.state : Acted → State
  | .done s => s
  | .reject s => s
  | .wait s => s

@[simp] theorem Acted.state_done (s : State) : (Acted.done s).state = s := rfl
@[simp] theorem Acted.state_reject (s : State) : (Acted.reject s).state = s := rfl
@[simp] theorem Acted.state_wait (s : State) : (Acted.wait s).state = s := rfl

theorem canon_takePacket {s : State} (before : State) (q : Nat) (r : QueueRights) (p : Packet)
    {f : QueueRights → Packet → State → Acted} (h : Canon s.mem) (hf : ∀ t, Canon t.mem → Canon (f r p t).state.mem) :
    Canon (s.takePacket before q r p f).mem := by
  unfold State.takePacket
  split
  · simp [h]
  · split
    · simp [h]
    · split
      · next e => simp [mem_of_eq_pair e, h]
      · next e => simp [mem_of_eq_pair e, h]
      · next e => simp [mem_of_eq_pair e, h]
      · next t e =>
        have ht := hf t (by simp [mem_of_eq_pair e, h])
        split
        · next e =>
          rw [e, Acted.state_done] at ht
          simp [ht]
        · next e =>
          rw [e, Acted.state_reject] at ht
          simp [ht]
        · next e =>
          rw [e, Acted.state_wait] at ht
          simp [ht]

@[simp] theorem State.readRecord_mem (s : State) (pa : Nat) : (s.readRecord pa).2.mem = s.mem := by
  unfold State.readRecord
  split <;> next e => simp [mem_of_eq_pair e]

@[simp] theorem State.readBreaks_mem (s : State) (asid : Nat) (r : CtxRecord) : (s.readBreaks asid r).2.mem = s.mem := by
  unfold State.readBreaks
  split <;> next e => simp [mem_of_eq_pair e]

@[simp] theorem State.setCtxSt_mem (s : State) (a : Nat) (st : CtxState) : (s.setCtxSt a st).mem = s.mem := (rfl)

@[simp] theorem canon_wipeSpad {s : State} (tk : Nat) (h : Canon s.mem) : Canon (s.wipeSpad tk).mem :=
  memWf_wipeSpad tk h

@[simp] theorem canon_dropTeams {s : State} (k : Nat) (h : Canon s.mem) : Canon (s.dropTeams k).mem :=
  canon_foldl (fun _ _ ht => canon_wipeSpad _ ht) _ h

@[simp] theorem canon_dropGrid {s : State} (k : Nat) (h : Canon s.mem) : Canon (s.dropGrid k).mem := by
  simp [State.dropGrid, h]

@[simp] theorem canon_endGrid {s : State} (k status : Nat) (h : Canon s.mem) : Canon (s.endGrid k status).mem := by
  unfold State.endGrid
  dsimp only
  split <;> simp [h]

@[simp] theorem canon_freeLine {s : State} (w : Who) (l : Loc) (h : Canon s.mem) : Canon (s.freeLine w l).mem := by
  simp [State.freeLine, h]

@[simp] theorem canon_smear {s : State} (hostOnly : Bool) (c : Cmd) (h : Canon s.mem) : Canon (s.smear hostOnly c).mem := by
  unfold State.smear
  dsimp only
  split
  · simp [h]
  · split <;> simp [h]

@[simp] theorem canon_cancelCmds {s : State} (hostOnly : Bool) (p : Nat → Bool) (h : Canon s.mem) :
    Canon (s.cancelCmds hostOnly p).mem :=
  canon_foldl (fun _ _ ht => canon_smear _ _ ht) _ h

@[simp] theorem State.testMoved_mem (s : State) (asid : Nat) : (s.testMoved asid).mem = s.mem := by
  simp [State.testMoved]

@[simp] theorem State.doLaunch_mem (s : State) (q : Nat) (p : Packet) (r : QueueRights) (l : Launch) :
    (s.doLaunch q p r l).mem = s.mem := (rfl)

@[simp] theorem canon_destroyWord {s : State} (k : Nat) (h : Canon s.mem) : Canon (s.destroyWord k).mem := by
  unfold State.destroyWord
  dsimp only
  split
  · exact h
  · exact canon_writeWord _ _ h

@[simp] theorem canon_destroyPacket {s : State} (r : QueueRights) (p : Packet) (h : Canon s.mem) :
    Canon (s.destroyPacket r p).mem := by
  unfold State.destroyPacket
  split
  · exact canon_complete _ _ h
  · extract_lets a t ks u v x y
    have ht : Canon t.mem := canon_cancelCmds _ _ (canon_settleFault _ h)
    have hu : Canon u.mem := canon_foldl (fun _ _ hw => canon_dropTeams _ hw) _ ht
    have hv : Canon v.mem := canon_foldl (fun _ _ hw => canon_destroyWord _ hw) _ hu
    have hx : Canon x.mem := canon_complete _ _ hv
    have hy : Canon y.mem := canon_foldl (fun _ _ hw => canon_dropGrid _ hw) _ hx
    simpa using hy

@[simp] theorem canon_capstartPacket {s : State} (q : Nat) (r : QueueRights) (p : Packet) (h : Canon s.mem) :
    Canon (s.capstartPacket q r p).mem := by
  simp -implicitDefEqProofs [State.capstartPacket, h]

@[simp] theorem canon_capstopPacket {s : State} (q : Nat) (r : QueueRights) (p : Packet) (h : Canon s.mem) :
    Canon (s.capstopPacket q r p).mem := by
  simp [State.capstopPacket, h]

theorem canon_serveQueue {s : State} (q : Nat) {kind : Nat → Bool} {act : QueueRights → Packet → State → Acted}
    (h : Canon s.mem)
    (ha : ∀ r p t, Canon t.mem → Canon (act r p t).state.mem) : Canon (s.serveQueue q kind act).mem := by
  unfold State.serveQueue
  split
  · next e => simp [mem_of_eq_pair e, h]
  · next e =>
    split
    · exact canon_takePacket _ _ _ _ (by simp [mem_of_eq_pair e, h]) (ha _ _)
    · exact h

theorem canonNext_packetEvent {s : State} {kind : Nat → Bool} {act : Nat → QueueRights → Packet → State → Acted}
    (h : Canon s.mem)
    (ha : ∀ q r p t, Canon t.mem → Canon (act q r p t).state.mem) : CanonNext (packetEvent s kind act) := by
  unfold packetEvent
  split
  · rw [canonNext_next]
    split
    · exact canon_serveQueue _ h (ha _)
    · exact h
  · simp [h]

/-! ### What acting on a packet leaves -/

theorem canon_launchPacket {s : State} (q : Nat) (r : QueueRights) (p : Packet) (h : Canon s.mem) :
    Canon (s.launchPacket q r p).state.mem := by
  unfold State.launchPacket
  split
  · simp [h]
  · dsimp only
    split <;> simp [h]

theorem canon_createPacket {s : State} (r : QueueRights) (p : Packet) (h : Canon s.mem) :
    Canon (s.createPacket r p).state.mem := by
  unfold State.createPacket
  split <;> next e => simp -implicitDefEqProofs [mem_of_eq_pair e, h]

theorem canon_updatePacket {s : State} (r : QueueRights) (p : Packet) (h : Canon s.mem) :
    Canon (s.updatePacket r p).state.mem := by
  unfold State.updatePacket
  split
  · simp [h]
  · split
    · next e => simp [mem_of_eq_pair e, h]
    · next t e =>
      have ht : Canon t.mem := by simp [mem_of_eq_pair e, h]
      dsimp only
      split
      · simp [ht]
      · split <;> next e' => simp -implicitDefEqProofs [mem_of_eq_pair e', ht]

theorem canon_movePacket {s : State} (r : QueueRights) (p : Packet) (h : Canon s.mem) : Canon (s.movePacket r p).state.mem := by
  unfold State.movePacket
  dsimp only
  split <;> simp -implicitDefEqProofs [h]

theorem canon_resumePacket {s : State} (r : QueueRights) (p : Packet) (h : Canon s.mem) :
    Canon (s.resumePacket r p).state.mem := by
  unfold State.resumePacket
  split
  · exact canon_complete _ _ (canon_foldl (fun _ _ ht => canon_endGrid _ _ ht) _ (canon_settleFault _ h))
  · exact canon_complete _ _ h

theorem canon_actPacket {s : State} (q : Nat) (r : QueueRights) (p : Packet) (h : Canon s.mem) :
    Canon (State.actPacket q r p s).state.mem := by
  unfold State.actPacket
  split
  · exact canon_launchPacket q r p h
  · exact canon_createPacket r p h
  · exact canon_updatePacket r p h
  · exact canon_movePacket r p h
  · exact canon_resumePacket r p h
  · exact canon_destroyPacket r p h
  · exact canon_capstartPacket q r p h
  · exact canon_capstopPacket q r p h
  · exact h

@[simp] theorem canonNext_execLaunch {s : State} (h : Canon s.mem) : CanonNext (execLaunch s) :=
  canonNext_packetEvent h fun q r p _ ht => canon_launchPacket q r p ht

@[simp] theorem canonNext_execCreate {s : State} (h : Canon s.mem) : CanonNext (execCreate s) :=
  canonNext_packetEvent h fun _ r p _ ht => canon_createPacket r p ht

@[simp] theorem canonNext_execUpdate {s : State} (h : Canon s.mem) : CanonNext (execUpdate s) :=
  canonNext_packetEvent h fun _ r p _ ht => canon_updatePacket r p ht

@[simp] theorem canonNext_execMove {s : State} (h : Canon s.mem) : CanonNext (execMove s) :=
  canonNext_packetEvent h fun _ r p _ ht => canon_movePacket r p ht

@[simp] theorem canonNext_execResume {s : State} (h : Canon s.mem) : CanonNext (execResume s) :=
  canonNext_packetEvent h fun _ r p _ ht => canon_resumePacket r p ht

@[simp] theorem canonNext_execDestroy {s : State} (h : Canon s.mem) : CanonNext (execDestroy s) :=
  canonNext_packetEvent h fun _ r p _ ht => canon_destroyPacket r p ht

@[simp] theorem canonNext_execCapstart {s : State} (h : Canon s.mem) : CanonNext (execCapstart s) :=
  canonNext_packetEvent h fun q r p _ ht => canon_capstartPacket q r p ht

@[simp] theorem canonNext_execCapstop {s : State} (h : Canon s.mem) : CanonNext (execCapstop s) :=
  canonNext_packetEvent h fun q r p _ ht => canon_capstopPacket q r p ht

@[simp] theorem canonNext_execDependenceReread {s : State} (h : Canon s.mem) : CanonNext (execDependenceReread s) := by
  unfold execDependenceReread
  split
  · rw [canonNext_next]
    split
    · exact canon_serveQueue _ h fun r p _ ht => canon_actPacket _ r p ht
    · exact h
  · simp [h]

@[simp] theorem canonNext_execContextLoaded {s : State} (h : Canon s.mem) : CanonNext (execContextLoaded s) := by
  unfold execContextLoaded
  dsimp only
  split
  · split
    · split <;> next e => simp [mem_of_eq_pair e, h]
    · simp [h]
  · simp [h]

@[simp] theorem State.dropTagged_mem (s : State) (a : Nat) : (s.dropTagged a).mem = s.mem := (rfl)

@[simp] theorem State.dropHeld_mem (s : State) (a : Nat) : (s.dropHeld a).mem = s.mem := by
  simp [State.dropHeld]

@[simp] theorem canon_carryGrid {s : State} (k : Nat) (h : Canon s.mem) : Canon (s.carryGrid k).mem := by
  simp [State.carryGrid, h]

@[simp] theorem canonNext_execErasureComplete {s : State} (h : Canon s.mem) : CanonNext (execErasureComplete s) := by
  unfold execErasureComplete
  dsimp only
  split
  · next a _ =>
    split
    · have hg : Canon ((s.gridsOf a).foldl State.carryGrid s).mem := canon_foldl (fun _ _ ht => canon_carryGrid _ ht) _ h
      simp [hg]
    · simp [h]
  · simp [h]

@[simp] theorem canonNext_execCapstopComplete {s : State} (h : Canon s.mem) : CanonNext (execCapstopComplete s) := by
  unfold execCapstopComplete
  dsimp only
  split
  · split
    · simp [h]
    · split
      · simp [h]
      · split
        · next e => simp [mem_of_eq_pair e, h]
        · next e =>
          rw [canonNext_next]
          exact canon_complete _ _ (by simp [mem_of_eq_pair e, h])
  · simp [h]

/-! ## Copy commands and collectives -/

@[simp] theorem State.planCopy_mem (s : State) (c : Cmd) (dst src n : Nat) : (s.planCopy c dst src n).2.2.mem = s.mem :=
  State.readStretches_mem ..

@[simp] theorem State.planRows_mem (s : State) (c : Cmd) (k : Nat) : (s.planRows c k).2.2.mem = s.mem := by
  induction k with
  | zero => rfl
  | succ j ih => simp [State.planRows, ih]

@[simp] theorem State.gatherBytes_mem (s : State) (c : Cmd) (ixs : List (List SrcByte)) :
    (s.gatherBytes c ixs).2.2.mem = s.mem := by
  induction ixs generalizing s with
  | nil => rfl
  | cons b r ih =>
    unfold State.gatherBytes
    dsimp only
    rw [ih]
    split
    · rfl
    · split <;> simp

@[simp] theorem State.scatterUnits_mem (s : State) (c : Cmd) (k : Nat) (ixs : List (List SrcByte)) :
    (s.scatterUnits c k ixs).2.2.mem = s.mem := by
  induction ixs generalizing s k with
  | nil => rfl
  | cons b r ih =>
    unfold State.scatterUnits
    split
    · rfl
    · split
      · rfl
      · simp [ih]

@[simp] theorem State.planCe_mem (s : State) (c : Cmd) : (s.planCe c).2.2.mem = s.mem := by
  unfold State.planCe
  dsimp only
  split
  · simp
  · simp
  · simp
  · simp
  · simp
  · split <;> simp

@[simp] theorem State.putCe_mem (s : State) (core idx : Nat) (c : Option Cmd) : (s.putCe core idx c).mem = s.mem := (rfl)

@[simp] theorem State.keepCe_mem (s : State) (core idx : Nat) (c : Cmd) : (s.keepCe core idx c).mem = s.mem := by
  unfold State.keepCe
  split <;> simp

@[simp] theorem State.startCe_mem (s : State) (core idx : Nat) (c : Cmd) : (s.startCe core idx c).mem = s.mem := by
  unfold State.startCe
  dsimp only
  split
  · simp
  · split
    · rfl
    · split <;> simp

@[simp] theorem canon_advanceCe {s : State} (core idx : Nat) (c : Cmd) (h : Canon s.mem) :
    Canon (s.advanceCe core idx c).mem := by
  unfold State.advanceCe
  split
  · simp [h]
  · simp [h]
  · split <;> next e => simpa using canon_of_runPlan h e rfl

@[simp] theorem canonNext_ceEvent {s : State} (op : Nat) (h : Canon s.mem) : CanonNext (ceEvent s op) := by
  unfold ceEvent
  dsimp only
  repeat' split
  all_goals simp [h]

@[simp] theorem canonNext_shuffle {s : State} (w d a : Nat) (bs : List Nat) (src : Run → Lane → Nat → Nat → Nat × Nat)
    (h : Canon s.mem) :
    CanonNext (shuffle s w d a bs src) := by
  simp [shuffle, h]

@[simp] theorem State.putXe_mem (s : State) (num : Nat) (x : Option XeOp) : (s.putXe num x).mem = s.mem := (rfl)

@[simp] theorem State.sendReady_mem (s : State) (x : XeOp) : (s.sendReady x).2.mem = s.mem := by
  unfold State.sendReady
  split <;> simp

@[simp] theorem State.abortXe_mem (s : State) (x : XeOp) (status : Nat) (err : List PlanItem) :
    (s.abortXe x status err).mem = s.mem := (rfl)

@[simp] theorem State.startXe_mem (s : State) (c : Cmd) (src : List SrcByte) (aborted : Bool) :
    (s.startXe c src aborted).mem = s.mem := by
  simp [State.startXe]

@[simp] theorem State.refuseXe_mem (s : State) (c : Cmd) : (s.refuseXe c).mem = s.mem := (rfl)

@[simp] theorem canon_acceptXe {s : State} (c : Cmd) (h : Canon s.mem) : Canon (s.acceptXe c).mem := by
  unfold State.acceptXe
  dsimp only
  repeat' split
  all_goals simp [h]

@[simp] theorem canonNext_xeEvent {s : State} (op : Nat) (h : Canon s.mem) : CanonNext (xeEvent s op) := by
  unfold xeEvent
  split
  · split
    · simp [h]
    · split <;> simp [h]
  · simp [h]

@[simp] theorem State.pumpXe_mem (s : State) (x : XeOp) : (s.pumpXe x).mem = s.mem := by
  simp [State.enqueue_mem, State.pumpXe]

@[simp] theorem State.runXe_mem (s : State) (x : XeOp) (taking : List Nat) (rerun : Bool) :
    (s.runXe x taking rerun).mem = s.mem := by
  simp [State.runXe]

@[simp] theorem State.beginXe_mem (s : State) (x : XeOp) : (s.beginXe x).mem = s.mem := by
  simp [State.beginXe]

@[simp] theorem canonNext_execCollectiveBegin {s : State} (h : Canon s.mem) : CanonNext (execCollectiveBegin s) := by
  unfold execCollectiveBegin
  split
  · split
    · split <;> simp [h]
    · simp [h]
  · simp [h]

@[simp] theorem State.completeXe_mem (s : State) (x : XeOp) : (s.completeXe x).mem = s.mem := (rfl)

@[simp] theorem canon_advanceXe {s : State} (x : XeOp) (h : Canon s.mem) : Canon (s.advanceXe x).mem := by
  unfold State.advanceXe
  split
  · split <;> simp [h]
  · simp [h]
  · split <;> next e => simpa using canon_of_runPlan h e rfl

@[simp] theorem canonNext_execCollectiveComplete {s : State} (h : Canon s.mem) : CanonNext (execCollectiveComplete s) := by
  unfold execCollectiveComplete
  split
  · split <;> simp [h]
  · simp [h]

@[simp] theorem State.changeXe_mem (s : State) (x : XeOp) (v : ViewChange) : (s.changeXe x v).2.mem = s.mem := by
  unfold State.changeXe
  dsimp only
  repeat' split
  all_goals simp

@[simp] theorem State.viewTrap_mem (s : State) (tk code : Nat) : (s.viewTrap tk code).mem = s.mem := by
  simp [State.viewTrap]

@[simp] theorem State.changeView_mem (s : State) (v : ViewChange) : (s.changeView v).mem = s.mem := by
  unfold State.changeView
  refine (foldl_mem (fun t tk => ?_) _ _).trans ?_
  · simp
  · refine foldl_snd_mem (fun a n => ?_) _ _
    split <;> simp

/-! ## The fabric and forces -/

@[simp] theorem State.modFab_mem (s : State) (f : Fabric → Fabric) : (s.modFab f).mem = s.mem := (rfl)

@[simp] theorem State.installView_mem (s : State) (vnum : BitVec 32) (members admitted : List Nat) (first : Nat) :
    (s.installView vnum members admitted first).mem = s.mem := by
  simp [State.installView]

@[simp] theorem State.sponsor_mem (s : State) (joins : List Nat) : (s.sponsor joins).mem = s.mem := by
  simp [State.enqueue_mem, State.sponsor]

@[simp] theorem canonNext_execViewInstallation {s : State} (h : Canon s.mem) : CanonNext (execViewInstallation s) := by
  unfold execViewInstallation
  dsimp only
  split
  · split <;> simp [h]
  · simp [h]

@[simp] theorem canonNext_execFirmwareViewInstall {s : State} (h : Canon s.mem) : CanonNext (execFirmwareViewInstall s) := by
  unfold execFirmwareViewInstall
  split <;> simp [h]

@[simp] theorem canonNext_execViewrec {s : State} (h : Canon s.mem) : CanonNext (execViewrec s) := by
  unfold execViewrec
  split
  · split <;> simp [h]
  · simp [h]

@[simp] theorem State.raiseEvent_mem (s : State) (b : FlitBody) : (s.raiseEvent b).mem = s.mem := (rfl)

@[simp] theorem canonNext_execRaiseSuspicion {s : State} (h : Canon s.mem) : CanonNext (execRaiseSuspicion s) := by
  unfold execRaiseSuspicion
  dsimp only
  split
  · split <;> simp [h]
  · simp [h]

@[simp] theorem canonNext_execJoinNotice {s : State} (h : Canon s.mem) : CanonNext (execJoinNotice s) := by
  unfold execJoinNotice
  dsimp only
  repeat' split
  all_goals simp [h]

@[simp] theorem State.retryFlit_mem (s : State) (x : Nat × FlitBody) : (s.retryFlit x).mem = s.mem := by
  unfold State.retryFlit
  split <;> simp

@[simp] theorem State.retryFlits_mem (s : State) : s.retryFlits.mem = s.mem := by
  simp [State.retryFlits]

@[simp] theorem canon_consumeRefused {s : State} (h : Canon s.mem) : Canon s.consumeRefused.mem :=
  canon_foldl (fun _ _ ht => canon_unhandled _ _ ht) _ h

@[simp] theorem State.takeOlds_mem (s : State) : s.takeOlds.mem = s.mem :=
  foldl_mem (fun _ _ => State.setGrid_mem ..) _ _

@[simp] theorem canon_tickOver {s : State} (arriving : List Flit) (h : Canon s.mem) : Canon (s.tickOver arriving).mem := by
  simp [State.tickOver, h]

@[simp] theorem canonNext_execTickBoundary {s : State} (h : Canon s.mem) : CanonNext (execTickBoundary s) := by
  unfold execTickBoundary
  split
  · split <;> simp [h]
  · simp [h]

@[simp] theorem canonNext_execServoOffsetExceeded {s : State} (h : Canon s.mem) : CanonNext (execServoOffsetExceeded s) := by
  simp [execServoOffsetExceeded, h]

@[simp] theorem canonNext_execServoOffsetRestored {s : State} (h : Canon s.mem) : CanonNext (execServoOffsetRestored s) := by
  simp [execServoOffsetRestored, h]

@[simp] theorem canonNext_portEvent {s : State} (src : Option PortState) (dst : PortState) (tells : Bool) (h : Canon s.mem) :
    CanonNext (portEvent s src dst tells) := by
  unfold portEvent
  split
  · split <;> simp [h]
  · simp [h]

@[simp] theorem canonNext_execView {s : State} (a d : BitVec 5) (h : Canon s.mem) : CanonNext (execView a d s) := by
  unfold execView
  refine canonNext_onSeq h fun tk q t ht => ?_
  simp [ht]

@[simp] theorem canonNext_execJoin {s : State} (a : BitVec 5) (h : Canon s.mem) : CanonNext (execJoin a s) := by
  refine canonNext_onSeq h fun tk q t ht => ?_
  split
  · exact canonNext_seqTrap _ _ _ _ ht
  · split <;> simp [State.enqueue_mem, ht]

@[simp] theorem canonNext_execVwait {s : State} (a : BitVec 5) (h : Canon s.mem) : CanonNext (execVwait a s) := by
  unfold execVwait
  refine canonNext_onSeq h fun tk q t ht => ?_
  dsimp only
  split <;> simp [ht]

@[simp] theorem canonNext_execChipStop {s : State} (h : Canon s.mem) : CanonNext (execChipStop s) := by
  simp [execChipStop, h]

@[simp] theorem State.setMf_mem (s : State) (tk : Nat) (m : Manifest) : (s.setMf tk m).mem = s.mem := (rfl)

@[simp] theorem State.readLeaf_mem (s : State) (tk leaf : Nat) : (s.readLeaf tk leaf).2.mem = s.mem := by
  unfold State.readLeaf
  dsimp only
  split <;> simp [State.logEntry_mem, apply_ite Prod.snd]

@[simp] theorem State.operandValues_mem (s : State) (tk : Nat) (w : Work) (os : List Nat) :
    (s.operandValues tk w os).2.mem = s.mem := by
  induction os generalizing s with
  | nil => rfl
  | cons o r ih =>
    unfold State.operandValues
    dsimp only
    rw [ih]
    split
    · split
      · split <;> simp
      · rfl
    · rfl

@[simp] theorem canon_forceFault {s : State} (tk i : Nat) (f : Force) (code : Nat) (origs : List Nat) (creator : Word)
    (h : Canon s.mem) :
    Canon (s.forceFault tk i f code origs creator).mem := by
  simp [State.forceFault, h]

@[simp] theorem canon_placeFault {s : State} (tk i : Nat) (f : Force) (code : Nat) (n : CopyNode) (h : Canon s.mem) :
    Canon (s.placeFault tk i f code n).mem := by
  simp [State.placeFault, h]

@[simp] theorem State.startForce_mem (s : State) (tk i : Nat) (f : Force) : (s.startForce tk i f).mem = s.mem := (rfl)

@[simp] theorem State.computePlace_mem (s : State) (tk i : Nat) (f : Force) (w : Work) (k : Nat) (n : CopyNode) :
    (s.computePlace tk i f w k n).mem = s.mem := by
  unfold State.computePlace
  split
  · split <;> simp
  · simp

@[simp] theorem canon_stepPlace {s : State} (tk i : Nat) (f : Force) (w : Work) (k : Nat) (n : CopyNode) (h : Canon s.mem) :
    Canon (s.stepPlace tk i f w k n).mem := by
  unfold State.stepPlace
  dsimp only
  repeat' split
  all_goals simp [h]

@[simp] theorem canon_workForce {s : State} (tk i : Nat) (f : Force) (w : Work) (h : Canon s.mem) :
    Canon (s.workForce tk i f w).mem := by
  unfold State.workForce
  dsimp only
  repeat' split
  all_goals simp [h]

@[simp] theorem canon_writeTst {s : State} (tk : Nat) (f : Force) (bytes : List (Nat × Nat)) (x : Nat × Loc × Nat)
    (h : Canon s.mem) :
    Canon (s.writeTst tk f bytes x).mem := by
  simp [State.writeTst, h]

@[simp] theorem canon_finishTst {s : State} (tk i : Nat) (f : Force) (fmt : Nat) (d : Word) (h : Canon s.mem) :
    Canon (s.finishTst tk i f fmt d).mem := by
  unfold State.finishTst
  dsimp only
  repeat' split
  all_goals simp [h]

@[simp] theorem canonNext_execForceEvaluation {s : State} (h : Canon s.mem) : CanonNext (execForceEvaluation s) := by
  unfold execForceEvaluation
  dsimp only
  repeat' split
  all_goals simp -implicitDefEqProofs [h]

/-! ## Device registers, host accesses and images -/

@[simp] theorem State.writeTail_mem (s : State) (q v : Nat) : (s.writeTail q v).mem = s.mem := (rfl)

@[simp] theorem State.enableQueue_mem (s : State) (q : Nat) : (s.enableQueue q).mem = s.mem := by
  simp [State.enableQueue]

@[simp] theorem State.disableQueue_mem (s : State) (q : Nat) : (s.disableQueue q).mem = s.mem := (rfl)

@[simp] theorem canon_retryHeld {s : State} (hs : List HeldWrite) (h : Canon s.mem) : Canon (s.retryHeld hs).2.mem := by
  induction hs generalizing s with
  | nil => exact h
  | cons w r ih =>
    unfold State.retryHeld
    split
    · next e => exact ih (by simp [mem_of_eq_pair e, h])
    · next e => exact ih (by simp [mem_of_eq_pair e, h])
    · next e => exact ih (by simp [mem_of_eq_pair e, h])

@[simp] theorem canon_clearError {s : State} (q : Nat) (h : Canon s.mem) : Canon (s.clearError q).mem := by
  simp -implicitDefEqProofs [State.clearError, h]

@[simp] theorem canon_writeQctl {s : State} (q : Nat) (w : Word) (h : Canon s.mem) : Canon (s.writeQctl q w).mem := by
  simp [State.writeQctl, h]

@[simp] theorem State.writeQbase_mem (s : State) (q : Nat) (w : Word) : (s.writeQbase q w).mem = s.mem := by
  simp [State.writeQbase]

theorem canonNext_queueEvent {s : State} {f : State → Nat → State} (h : Canon s.mem)
    (hf : ∀ q, Canon (f s q).mem) : CanonNext (queueEvent s f) := by
  unfold queueEvent
  split
  · split
    · exact (canonNext_next _).2 (hf _)
    · simp [h]
  · simp [h]

@[simp] theorem canonNext_execQtailWrite {s : State} (h : Canon s.mem) : CanonNext (execQtailWrite s) := by
  unfold execQtailWrite
  split
  · split <;> simp [h]
  · simp [h]

@[simp] theorem canonNext_execQueueEnable {s : State} (h : Canon s.mem) : CanonNext (execQueueEnable s) :=
  canonNext_queueEvent h fun _ => by simp [h]

@[simp] theorem canonNext_execQueueDisable {s : State} (h : Canon s.mem) : CanonNext (execQueueDisable s) :=
  canonNext_queueEvent h fun _ => by simp [h]

@[simp] theorem canonNext_execErrClear {s : State} (h : Canon s.mem) : CanonNext (execErrClear s) :=
  canonNext_queueEvent h fun _ => canon_clearError _ h

@[simp] theorem State.sendPending_mem (s : State) (v : Nat) : (s.sendPending v).mem = s.mem := by
  simp [State.sendPending]

@[simp] theorem State.unmask_mem (s : State) (v : Nat) : (s.unmask v).mem = s.mem := by
  simp [State.unmask]

@[simp] theorem State.writeControl_mem (s : State) (w : Word) : (s.writeControl w).mem = s.mem := by
  simp [State.writeControl]

@[simp] theorem State.writeMsix_mem (s : State) (i : Nat) (w : Word) : (s.writeMsix i w).mem = s.mem := by
  simp [State.writeMsix]

@[simp] theorem canonNext_execVectorUnmask {s : State} (h : Canon s.mem) : CanonNext (execVectorUnmask s) := by
  unfold execVectorUnmask
  split
  · split <;> simp [h]
  · simp [h]

@[simp] theorem State.writeTlbinv_mem (s : State) (w : Word) : (s.writeTlbinv w).mem = s.mem := by
  simp [State.writeTlbinv]

@[simp] theorem canonNext_execTlbinv {s : State} (h : Canon s.mem) : CanonNext (execTlbinv s) := by
  unfold execTlbinv
  split <;> simp [h]

@[simp] theorem canon_writeRegister {s : State} (off : Nat) (w : Word) (h : Canon s.mem) :
    Canon (s.writeRegister off w).mem := by
  unfold State.writeRegister
  split
  · split <;> simp [h]
  · simp [h]

@[simp] theorem canonNext_execRegisterWrite {s : State} (h : Canon s.mem) : CanonNext (execRegisterWrite s) := by
  unfold execRegisterWrite
  split <;> simp [h]

@[simp] theorem canon_freeBytes {s : State} (k n : Nat) (h : Canon s.mem) : Canon (s.freeBytes k n).mem := by
  simp [State.freeBytes, h]

@[simp] theorem canon_hostStore {s : State} (pa : Nat) (bs : List Byte) (h : Canon s.mem) : Canon (s.hostStore pa bs).mem := by
  refine canon_foldl (fun t c ht => ?_) _ h
  dsimp only
  split
  · split <;> simp [ht]
  · split
    · exact ht
    · simp [ht]

@[simp] theorem canonNext_execHostAccess {s : State} (h : Canon s.mem) : CanonNext (execHostAccess s) := by
  unfold execHostAccess
  dsimp only
  split
  · split <;> simp [h]
  · simp [h]

@[simp] theorem State.portRecord_mem (s : State) (port cls : Nat) (bs : List Byte) :
    (s.portRecord port cls bs).mem = s.mem := by
  simp [State.portRecord]

@[simp] theorem canonNext_execEthernetFrame {s : State} (h : Canon s.mem) : CanonNext (execEthernetFrame s) := by
  unfold execEthernetFrame
  dsimp only
  repeat' split
  all_goals simp [h]

@[simp] theorem State.moveIn_mem (s : State) (a entry first : Nat) (l : Launch) (cw : CompWord)
    (st : Option (CtxRecord × List Word)) :
    (s.moveIn a entry first l cw st).mem = s.mem := by
  unfold State.moveIn
  split <;> simp

@[simp] theorem State.setFirmware_mem (s : State) (x : FwSet) : (s.setFirmware x).mem = s.mem := by
  unfold State.setFirmware
  split <;> simp

@[simp] theorem State.requestDone_mem (s : State) : s.requestDone.mem = s.mem := by
  simp [State.requestDone]

@[simp] theorem State.serveRequest_mem (s : State) (l : List FwSet) : (s.serveRequest l).mem = s.mem := by
  simp [State.serveRequest]

@[simp] theorem canonNext_execMbdoor {s : State} (h : Canon s.mem) : CanonNext (execMbdoor s) := by
  unfold execMbdoor
  dsimp only
  split <;> simp [h]

@[simp] theorem State.report_mem (s : State) (k : Nat) (o : CodeObj) (n : Nat) : (s.report k o n).mem = s.mem := (rfl)

@[simp] theorem canon_placeImage {s : State} (pa : Nat) (img : List Byte) (h : Canon s.mem) :
    Canon (s.placeImage pa img).mem := by
  simp [State.placeImage, h]

@[simp] theorem canonNext_execLoadRequest {s : State} (h : Canon s.mem) : CanonNext (execLoadRequest s) := by
  unfold execLoadRequest
  dsimp only
  repeat' split
  all_goals simp [h]

@[simp] theorem canonNext_execTranslation {s : State} (h : Canon s.mem) : CanonNext (execTranslation s) := by
  unfold execTranslation
  dsimp only
  repeat' split
  all_goals simp [h]

@[simp] theorem canonNext_execUnloadRequest {s : State} (h : Canon s.mem) : CanonNext (execUnloadRequest s) := by
  unfold execUnloadRequest
  dsimp only
  repeat' split
  all_goals simp [h]

@[simp] theorem State.attest_mem (s : State) (event kind : Nat) (svn : BitVec 32) (digest : Nat) :
    (s.attest event kind svn digest).mem = s.mem := (rfl)

@[simp] theorem State.setStatus_mem (s : State) (n : Nat) : (s.setStatus n).mem = s.mem := (rfl)

@[simp] theorem canonNext_execStageImage {s : State} (h : Canon s.mem) : CanonNext (execStageImage s) := by
  unfold execStageImage
  dsimp only
  repeat' split
  all_goals simp [h]

@[simp] theorem State.requestHandOver_mem (s : State) (k : Nat) : (s.requestHandOver k).mem = s.mem := by
  simp [State.requestHandOver]

@[simp] theorem State.endHandOver_mem (s : State) (status : Nat) : (s.endHandOver status).mem = s.mem := by
  simp [State.endHandOver]

@[simp] theorem canonNext_execHandOver {s : State} (h : Canon s.mem) : CanonNext (execHandOver s) := by
  unfold execHandOver
  dsimp only
  repeat' split
  all_goals simp [h]

@[simp] theorem canonNext_execHeartbeat {s : State} (h : Canon s.mem) : CanonNext (execHeartbeat s) := by
  unfold execHeartbeat
  split
  · split <;> simp [h]
  · simp [h]

@[simp] theorem State.imageFails_mem (s : State) (k : Nat) : (s.imageFails k).mem = s.mem := by
  simp [State.imageFails]

@[simp] theorem canonNext_execHeartbeatWindowEnd {s : State} (h : Canon s.mem) : CanonNext (execHeartbeatWindowEnd s) := by
  unfold execHeartbeatWindowEnd
  dsimp only
  repeat' split
  all_goals simp [h]

@[simp] theorem canon_wipe {s : State} (h : Canon s.mem) : Canon s.wipe.mem := memWf_wipe h

@[simp] theorem State.boot_mem (s : State) : s.boot.mem = s.mem := (rfl)

@[simp] theorem canonNext_execModuleReset {s : State} (h : Canon s.mem) : CanonNext (execModuleReset s) := by
  simp [execModuleReset, h]

@[simp] theorem canonNext_execWarmReset {s : State} (h : Canon s.mem) : CanonNext (execWarmReset s) := by
  simp [execWarmReset, h]

@[simp] theorem canonNext_execLifeCycleChange {s : State} (h : Canon s.mem) : CanonNext (execLifeCycleChange s) := by
  unfold execLifeCycleChange
  split
  · split <;> simp [h]
  · simp [h]

/-! ## Lane and sequencer control -/

@[simp] theorem canonNext_jumpLanes {s : State} (r : Run) (f : Nat → Lane → Lane) (h : Canon s.mem) :
    CanonNext (jumpLanes s r f) := by
  simp [jumpLanes, h]

@[simp] theorem canonNext_execBra {s : State} (o : BitVec 22) (h : Canon s.mem) : CanonNext (execBra o s) := by
  unfold execBra
  refine canonNext_onRun h fun r t ht => ?_
  simp [ht]

@[simp] theorem canonNext_execCall {s : State} (o : BitVec 22) (h : Canon s.mem) : CanonNext (execCall o s) := by
  unfold execCall
  refine canonNext_onRun h fun r t ht => ?_
  simp [ht]

@[simp] theorem canonNext_branchOn {s : State} (o : BitVec 22) (p : Nat) (sense : Bool) (h : Canon s.mem) :
    CanonNext (branchOn s o p sense) := by
  refine canonNext_onRun h fun r t ht => ?_
  dsimp only
  split <;> simp [ht]

@[simp] theorem canonNext_jumpReg {s : State} (a : Nat) (h : Canon s.mem) : CanonNext (jumpReg s a) := by
  refine canonNext_onRunRegs h fun r t ht => ?_
  dsimp only
  split <;> simp [ht]

@[simp] theorem canonNext_execYld {s : State} (h : Canon s.mem) : CanonNext (execYld s) := by
  unfold execYld
  refine canonNext_onRun h fun r t ht => ?_
  simp [ht]

@[simp] theorem canonNext_execExit {s : State} (h : Canon s.mem) : CanonNext (execExit s) := by
  unfold execExit
  refine canonNext_onRun h fun r t ht => ?_
  simp -implicitDefEqProofs [ht]

@[simp] theorem canonNext_execTrap {s : State} (n : BitVec 6) (h : Canon s.mem) : CanonNext (execTrap n s) := by
  unfold execTrap
  refine canonNext_onRun h fun r t ht => ?_
  simp [ht]

@[simp] theorem State.prefetchCode_mem (s : State) (tk va : Nat) : (s.prefetchCode tk va).mem = s.mem := by
  unfold State.prefetchCode
  split
  · rfl
  · split
    · next e =>
      split
      · simp [mem_of_eq_pair e]
      · simp [mem_of_eq_pair e]
      · split
        · simp [mem_of_eq_pair e]
        · split <;> next e' => simp [mem_of_eq_pair e', mem_of_eq_pair e]
    · rfl

@[simp] theorem canonNext_execPfi {s : State} (o : BitVec 6) (h : Canon s.mem) : CanonNext (execPfi o s) := by
  unfold execPfi
  refine canonNext_onRun h fun r t ht => ?_
  simp [ht]

theorem canonNext_inTrap {s : State} {fields : List Nat} {f : Run → State → Out} (h : Canon s.mem)
    (hf : ∀ r t, Canon t.mem → CanonNext (f r t)) : CanonNext (inTrap s fields f) := by
  refine canonNext_onRunRegs h fun r t ht => ?_
  split
  · exact hf r t ht
  · exact canonNext_undefinedInRun r ht

@[simp] theorem canonNext_execVget {s : State} (n : BitVec 3) (d : BitVec 6) (h : Canon s.mem) :
    CanonNext (execVget n d s) := by
  refine canonNext_inTrap h fun r t ht => ?_
  split
  · exact canonNext_undefinedInRun r ht
  · exact canonNext_finishLanes r _ _ ht

@[simp] theorem canonNext_execVput {s : State} (n : BitVec 3) (a : BitVec 6) (h : Canon s.mem) :
    CanonNext (execVput n a s) := by
  refine canonNext_inTrap h fun r t ht => ?_
  split
  · exact canonNext_undefinedInRun r ht
  · exact canonNext_jumpLanes r _ ht

@[simp] theorem canonNext_execTret {s : State} (h : Canon s.mem) : CanonNext (execTret s) :=
  canonNext_inTrap h fun r _ ht => canonNext_jumpLanes r _ ht

@[simp] theorem canonNext_execMovs {s : State} (x_s : BitVec 12) (d : BitVec 6) (h : Canon s.mem) :
    CanonNext (execMovs x_s d s) := by
  unfold execMovs
  refine canonNext_onRunRegs h fun r t ht => ?_
  simp [ht]

theorem canonNext_setsOp {s : State} {a : Nat} {f : Run → State → Out} (h : Canon s.mem)
    (hf : ∀ r t, Canon t.mem → CanonNext (f r t)) : CanonNext (setsOp s a f) := by
  refine canonNext_onRunRegs h fun r t ht => ?_
  dsimp only
  split
  · simp [ht]
  · exact hf r t ht

@[simp] theorem canonNext_execSetsStklim {s : State} (a : BitVec 6) (h : Canon s.mem) : CanonNext (execSetsStklim a s) :=
  canonNext_setsOp h fun r _ ht => canonNext_jumpLanes r _ ht

@[simp] theorem canonNext_execSetsLepc {s : State} (a : BitVec 6) (h : Canon s.mem) : CanonNext (execSetsLepc a s) := by
  unfold execSetsLepc
  refine canonNext_onRun h fun r t ht => ?_
  split
  · exact canonNext_setsOp h fun r t ht => canonNext_jumpLanes r _ ht
  · exact canonNext_undefinedInRun r ht

@[simp] theorem canonNext_execSetsLflags {s : State} (a : BitVec 6) (h : Canon s.mem) : CanonNext (execSetsLflags a s) :=
  canonNext_setsOp h fun r _ ht => canonNext_jumpLanes r _ ht

@[simp] theorem canon_zeroBank {s : State} (tk bank : Nat) (h : Canon s.mem) : Canon (s.zeroBank tk bank).mem :=
  memWf_zeroBank tk bank h

@[simp] theorem canon_drainBank {s : State} (tk bank : Nat) (h : Canon s.mem) : Canon (s.drainBank tk bank).mem :=
  canon_foldl (fun _ _ ht => canon_drainIf _ _ ht) _ h

@[simp] theorem canon_switchBanks {s : State} (tk : Nat) (vs : List (BitVec 16)) (h : Canon s.mem) :
    Canon (s.switchBanks tk vs).mem :=
  canon_foldl (fun _ _ ht => canon_zeroBank _ _ (canon_drainBank _ _ ht)) _ h

@[simp] theorem canonNext_execSetsBmode {s : State} (a : BitVec 6) (h : Canon s.mem) : CanonNext (execSetsBmode a s) := by
  refine canonNext_setsOp h fun r t ht => ?_
  dsimp only
  split <;> simp [ht]

@[simp] theorem canonNext_execBankModeSwitch {s : State} (h : Canon s.mem) : CanonNext (execBankModeSwitch s) := by
  unfold execBankModeSwitch
  dsimp only
  repeat' split
  all_goals simp [h]

@[simp] theorem canonNext_execWaitingAccessPerform {s : State} (h : Canon s.mem) : CanonNext (execWaitingAccessPerform s) := by
  unfold execWaitingAccessPerform
  split <;> simp [h]

@[simp] theorem canonNext_tileTrapAt {s : State} (tk code : Nat) (h : Canon s.mem) : CanonNext (tileTrapAt s tk code) := by
  simp -implicitDefEqProofs [tileTrapAt, h]

theorem canonNext_seqAccess {s : State} {tk : Nat} {k : AccKind} {va : Word} {size : Nat} {f : List (Loc × Nat) → State → Out}
    (h : Canon s.mem) (hf : ∀ runs t, Canon t.mem → CanonNext (f runs t)) : CanonNext (seqAccess s tk k va size f) := by
  unfold seqAccess
  dsimp only
  split
  · simp [h]
  · simp [h]
  · split
    · simp [h]
    · exact hf _ _ (by simp [h])

@[simp] theorem canonNext_performSeq {s : State} (tk : Nat) (pc : Word) (a : Access) (h : Canon s.mem) :
    CanonNext (performSeq s tk pc a) := by
  unfold performSeq
  split <;> simp [h]

@[simp] theorem canonNext_execSld {s : State} (i : BitVec 8) (f : BitVec 3) (a d : BitVec 5) (h : Canon s.mem) :
    CanonNext (execSld i f a d s) :=
  canonNext_onSeq h fun _ _ _ ht => canonNext_seqAccess ht fun _ _ hu => canonNext_performSeq _ _ _ hu

@[simp] theorem canonNext_execSst {s : State} (i : BitVec 8) (w : BitVec 2) (b a : BitVec 5) (h : Canon s.mem) :
    CanonNext (execSst i w b a s) := by
  refine canonNext_onSeq h fun tk q t ht => canonNext_seqAccess ht fun runs u hu => ?_
  dsimp only
  split
  · split
    · simp [hu]
    · split <;> simp [State.setTag_mem, hu]
  · exact canonNext_performSeq _ _ _ hu

@[simp] theorem canonNext_seqBranch {s : State} (i : BitVec 16) (a : BitVec 5) (c : Int → Bool) (h : Canon s.mem) :
    CanonNext (seqBranch s i a c) := by
  unfold seqBranch
  refine canonNext_onSeq h fun tk q t ht => ?_
  split <;> simp [ht]

@[simp] theorem canonNext_execJmp {s : State} (o : BitVec 22) (h : Canon s.mem) : CanonNext (execJmp o s) := by
  unfold execJmp
  refine canonNext_onSeq h fun tk q t ht => ?_
  simp [ht]

@[simp] theorem canonNext_execJumpCall {s : State} (o : BitVec 22) (h : Canon s.mem) : CanonNext (execJumpCall o s) := by
  unfold execJumpCall
  refine canonNext_onSeq h fun tk q t ht => ?_
  simp [ht]

@[simp] theorem canonNext_execSctlJmpr {s : State} (a : BitVec 5) (h : Canon s.mem) : CanonNext (execSctlJmpr a s) := by
  unfold execSctlJmpr
  refine canonNext_onSeq h fun tk q t ht => ?_
  simp [ht]

@[simp] theorem canonNext_execSctlRet {s : State} (h : Canon s.mem) : CanonNext (execSctlRet s) := by
  unfold execSctlRet
  refine canonNext_onSeq h fun tk q t ht => ?_
  simp [ht]

@[simp] theorem canonNext_execSctlExit {s : State} (h : Canon s.mem) : CanonNext (execSctlExit s) := by
  unfold execSctlExit
  refine canonNext_onSeq h fun tk q t ht => ?_
  simp [ht]

@[simp] theorem canonNext_seqFence {s : State} (far : Bool) (h : Canon s.mem) : CanonNext (seqFence s far) := by
  unfold seqFence
  refine canonNext_onSeq h fun tk q t ht => ?_
  dsimp only
  split <;> simp [ht]

@[simp] theorem canonNext_execSctlTrap {s : State} (n : BitVec 8) (h : Canon s.mem) : CanonNext (execSctlTrap n s) := by
  unfold execSctlTrap
  refine canonNext_onSeq h fun tk q t ht => ?_
  simp [ht]

@[simp] theorem canonNext_execSctlTret {s : State} (a : BitVec 5) (h : Canon s.mem) : CanonNext (execSctlTret a s) := by
  unfold execSctlTret
  refine canonNext_onSeq h fun tk q t ht => ?_
  split <;> simp [ht]

@[simp] theorem canonNext_execSctlMovs {s : State} (x_s : BitVec 8) (d : BitVec 5) (h : Canon s.mem) :
    CanonNext (execSctlMovs x_s d s) := by
  unfold execSctlMovs
  refine canonNext_onSeq h fun tk q t ht => ?_
  simp [ht]

@[simp] theorem canonNext_execMovsTflagsc {s : State} (d : BitVec 5) (h : Canon s.mem) : CanonNext (execMovsTflagsc d s) := by
  unfold execMovsTflagsc
  refine canonNext_onSeq h fun tk q t ht => ?_
  simp [ht]

@[simp] theorem State.fetchBody_mem (s : State) (tk pc0 n va : Nat) (allowed : Bool) :
    (s.fetchBody tk pc0 n va allowed).2.mem = s.mem := by
  induction n generalizing s va allowed with
  | zero => rfl
  | succ k ih =>
    unfold State.fetchBody
    split
    · next e => simp [apply_ite Prod.snd, ih, mem_of_eq_pair e]
    · next e => simp [mem_of_eq_pair e]
    · next e => simp [mem_of_eq_pair e]

@[simp] theorem canonNext_execLoop {s : State} (n b a : BitVec 5) (h : Canon s.mem) : CanonNext (execLoop n b a s) := by
  refine canonNext_onSeq h fun tk q t ht => ?_
  dsimp only
  split
  · exact canonNext_seqTrap _ _ _ _ ht
  · split
    · simp [ht]
    · simp [ht]
    · split
      · simp [ht]
      · split <;> simp [ht]

/-! ## Tile instructions and placement -/

theorem canonNext_onTile {s : State} {f : Nat → Sequencer → State → Out} (h : Canon s.mem)
    (hf : ∀ tk q t, Canon t.mem → CanonNext (f tk q t)) : CanonNext (onTile s f) :=
  canonNext_onSeq h fun _ _ _ ht => hf _ _ _ ht

theorem canonNext_withOperand {s : State} {tk r : Nat} {f : Nat → Node → Out} (h : Canon s.mem)
    (hf : ∀ k n, CanonNext (f k n)) : CanonNext (withOperand s tk r f) := by
  unfold withOperand
  split
  · exact hf _ _
  · simp [h]

@[simp] theorem canon_drainRegion {s : State} (tk : Nat) (runs : List (Loc × Nat)) (h : Canon s.mem) :
    Canon (s.drainRegion tk runs).mem := by
  simp [State.drainRegion, h]

@[simp] theorem State.issueForce_mem (s : State) (tk root : Nat) (kind : ForceKind) (target : List (Loc × Nat)) :
    (s.issueForce tk root kind target).mem = s.mem := (rfl)

@[simp] theorem State.forceFor_mem (s : State) (tk k : Nat) : (s.forceFor tk k).mem = s.mem := by
  simp [State.forceFor]

@[simp] theorem State.addNode_mem (s : State) (tk d : Nat) (x : NewNode) (region : List (Loc × Nat)) (val : List Nat) :
    (s.addNode tk d x region val).mem = s.mem := (rfl)

theorem State.room_wait_mem {s t : State} {tk : Nat} {os : List Nat} (e : s.room tk os = .wait t) : t.mem = s.mem := by
  unfold State.room at e
  dsimp only at e
  split at e
  · cases e
    simp
  · split at e
    · split at e
      · cases e
        rfl
      · split at e
        · cases e
          simp
        · cases e
    · cases e

theorem canonNext_insertNode {s : State} {tk d : Nat} {x : NewNode} {act : State → Out} (h : Canon s.mem)
    (ha : CanonNext (act s)) : CanonNext (insertNode s tk d x act) := by
  unfold insertNode
  dsimp only
  split
  · simp [h]
  · split
    · next e => simp [State.room_wait_mem e, h]
    · simp [h]
    · exact ha

@[simp] theorem canonNext_insertPlain {s : State} (tk d : Nat) (x : NewNode) (h : Canon s.mem) :
    CanonNext (insertPlain s tk d x) :=
  canonNext_insertNode h (by simp [h])

@[simp] theorem canonNext_productOp {s : State} (op : Nat) (c : BitVec 2) (m : BitVec 5) (add : Option (BitVec 4))
    (b a d : BitVec 4) (h : Canon s.mem) : CanonNext (productOp s op c m add b a d) := by
  refine canonNext_onTile h fun tk q t ht => canonNext_withOperand ht fun ka na => canonNext_withOperand ht fun kb nb => ?_
  extract_lets x
  split
  · exact canonNext_tileTrapAt _ _ ht
  · split
    · exact canonNext_tileTrapAt _ _ ht
    · split
      · exact canonNext_insertPlain _ _ _ ht
      · refine canonNext_withOperand ht fun kz nz => ?_
        split
        · exact canonNext_insertPlain _ _ _ ht
        · exact canonNext_tileTrapAt _ _ ht

@[simp] theorem canonNext_execTsca {s : State} (c : BitVec 2) (m : BitVec 5) (x b a d : BitVec 4) (h : Canon s.mem) :
    CanonNext (execTsca c m x b a d s) := by
  refine canonNext_onTile h fun tk q t ht => canonNext_withOperand ht fun kp np => canonNext_withOperand ht fun ka na =>
    canonNext_withOperand ht fun kb nb => ?_
  extract_lets add addOk
  split
  · exact canonNext_insertPlain _ _ _ ht
  · exact canonNext_tileTrapAt _ _ ht

@[simp] theorem canonNext_elementOp {s : State} (op : Nat) (c : BitVec 2) (m : BitVec 5) (b a d : BitVec 4) (h : Canon s.mem) :
    CanonNext (elementOp s op c m b a d) := by
  refine canonNext_onTile h fun tk q t ht => canonNext_withOperand ht fun ka na => canonNext_withOperand ht fun kb nb => ?_
  split
  · exact canonNext_insertPlain _ _ _ ht
  · exact canonNext_tileTrapAt _ _ ht

@[simp] theorem canonNext_execTtr {s : State} (c : BitVec 2) (m : BitVec 5) (a d : BitVec 4) (h : Canon s.mem) :
    CanonNext (execTtr c m a d s) := by
  refine canonNext_onTile h fun tk q t ht => canonNext_withOperand ht fun ka na => ?_
  split
  · exact canonNext_insertPlain _ _ _ ht
  · exact canonNext_tileTrapAt _ _ ht

@[simp] theorem canonNext_execTcvt {s : State} (m : BitVec 5) (a d : BitVec 4) (h : Canon s.mem) :
    CanonNext (execTcvt m a d s) := by
  refine canonNext_onTile h fun tk q t ht => canonNext_withOperand ht fun ka na => ?_
  split
  · exact canonNext_insertPlain _ _ _ ht
  · exact canonNext_tileTrapAt _ _ ht

@[simp] theorem canonNext_execTzero {s : State} (m : BitVec 5) (b d : BitVec 4) (h : Canon s.mem) :
    CanonNext (execTzero m b d s) := by
  refine canonNext_onTile h fun tk q t ht => ?_
  dsimp only
  split
  · exact canonNext_insertPlain _ _ _ ht
  · exact canonNext_tileTrapAt _ _ ht

@[simp] theorem canonNext_execTfill {s : State} (m : BitVec 5) (b a d : BitVec 4) (h : Canon s.mem) :
    CanonNext (execTfill m b a d s) := by
  refine canonNext_onTile h fun tk q t ht => ?_
  dsimp only
  split
  · exact canonNext_insertPlain _ _ _ ht
  · exact canonNext_tileTrapAt _ _ ht

@[simp] theorem canonNext_loadLeaf {s : State} (tk d : Nat) (x : NewNode) (rs : List (Nat × List (Loc × Nat)))
    (h : Canon s.mem) :
    CanonNext (loadLeaf s tk d x rs) := by
  unfold loadLeaf
  dsimp only
  split
  · simp [h]
  · split <;> simp [State.loadRuns_mem, h]

@[simp] theorem canonNext_execTld {s : State} (m : BitVec 5) (b a d : BitVec 4) (h : Canon s.mem) :
    CanonNext (execTld m b a d s) := by
  refine canonNext_onTile h fun tk q t ht => ?_
  dsimp only
  split
  · exact canonNext_tileTrapAt _ _ ht
  · split
    · exact canonNext_seqTrap _ _ _ _ ht
    · exact canonNext_insertNode ht (canonNext_loadLeaf _ _ _ _ ht)

@[simp] theorem canonNext_issueTst {s : State} (tk root fmt : Nat) (base desc : Word) (rs : List (Nat × List (Loc × Nat)))
    (h : Canon s.mem) : CanonNext (issueTst s tk root fmt base desc rs) := by
  unfold issueTst
  dsimp only
  split
  · simp [h]
  · split
    · simp [h]
    · split <;> simp [State.setTag_mem, h]

@[simp] theorem canonNext_execTst {s : State} (m : BitVec 5) (b a d : BitVec 4) (h : Canon s.mem) :
    CanonNext (execTst m b a d s) := by
  refine canonNext_onTile h fun tk q t ht => ?_
  dsimp only
  split
  · exact canonNext_tileTrapAt _ _ ht
  · split
    · split
      · exact canonNext_seqTrap _ _ _ _ ht
      · exact canonNext_tileTrapAt _ _ ht
    · split
      · exact canonNext_tileTrapAt _ _ ht
      · split
        · exact canonNext_seqTrap _ _ _ _ ht
        · split
          · exact canonNext_tileTrapAt _ _ ht
          · exact canonNext_issueTst _ _ _ _ _ _ ht

@[simp] theorem canonNext_execTforce {s : State} (a : BitVec 4) (h : Canon s.mem) : CanonNext (execTforce a s) := by
  refine canonNext_onTile h fun tk q t ht => ?_
  split
  · simp [ht]
  · split
    · simp [ht]
    · split <;> simp [ht]

@[simp] theorem canonNext_execTdrop {s : State} (d : BitVec 4) (h : Canon s.mem) : CanonNext (execTdrop d s) :=
  canonNext_onTile h fun _ _ _ ht => by simp [ht]

@[simp] theorem canonNext_execTstat {s : State} (a d : BitVec 4) (h : Canon s.mem) : CanonNext (execTstat a d s) := by
  refine canonNext_onTile h fun tk q t ht => ?_
  dsimp only
  split <;> simp [ht]

@[simp] theorem State.grantAcq_mem (s : State) (core : Nat) : (s.grantAcq core).mem = s.mem := by
  unfold State.grantAcq
  dsimp only
  split <;> simp

@[simp] theorem canonNext_execAcq {s : State} (n a : BitVec 4) (h : Canon s.mem) : CanonNext (execAcq n a s) := by
  unfold execAcq
  refine canonNext_onSeq h fun tk q t ht => ?_
  dsimp only
  split <;> simp [ht]

@[simp] theorem canonNext_execAcqGrant {s : State} (h : Canon s.mem) : CanonNext (execAcqGrant s) := by
  unfold execAcqGrant
  split <;> simp [h]

@[simp] theorem canonNext_execRel {s : State} (a : BitVec 4) (h : Canon s.mem) : CanonNext (execRel a s) := by
  unfold execRel
  refine canonNext_onSeq h fun tk q t ht => ?_
  split <;> simp [ht]

@[simp] theorem State.readTable_mem (s : State) (asid : Nat) (r : CtxRecord) : (s.readTable asid r).2.mem = s.mem := by
  unfold State.readTable
  split
  · rfl
  · split
    · next e => simp [mem_of_eq_pair e]
    · next e => simp [mem_of_eq_pair e]
    · next e => split <;> next e' => simp [mem_of_eq_pair e', mem_of_eq_pair e]

@[simp] theorem State.startGrid_mem (s : State) (k : Nat) : (s.startGrid k).mem = s.mem := by
  unfold State.startGrid
  dsimp only
  split
  · simp
  · split <;> simp

@[simp] theorem canon_placeTeam {s : State} (k core tk : Nat) (h : Canon s.mem) : Canon (s.placeTeam k core tk).mem := by
  unfold State.placeTeam
  dsimp only
  split
  · simp [h]
  · split <;> simp [h]

@[simp] theorem State.markPassed_mem (s : State) (xs : List Cand) : (s.markPassed xs).mem = s.mem := by
  simp [State.markPassed]

@[simp] theorem canon_placeCluster {s : State} (x : Cand) (first : Nat) (h : Canon s.mem) :
    Canon (s.placeCluster x first).mem := by
  unfold State.placeCluster
  extract_lets t g u g' v d w
  have ht : Canon t.mem := by simp [t, h]
  have hu : Canon u.mem := canon_foldl (fun _ _ hv => canon_placeTeam _ _ _ hv) _ ht
  have hw : Canon w.mem := by
    change Canon v.mem
    rwa [State.setGrid_mem]
  split
  · exact ht
  · split
    · rwa [State.setCtxSt_mem]
    · rwa [State.setCtxSt_mem]
    · exact hw

@[simp] theorem canonNext_execTeamPlacement {s : State} (h : Canon s.mem) : CanonNext (execTeamPlacement s) := by
  unfold execTeamPlacement
  split
  · dsimp only
    split
    · split
      · exact (canonNext_next _).2 h
      · exact (canonNext_next _).2 (canon_placeCluster _ _ (by rwa [State.markPassed_mem]))
    · exact (canonNext_next _).2 h
  · exact (canonNext_next _).2 h

/-! ## Lane memory instructions and the schedule -/

@[simp] theorem State.checkReq_mem (s : State) (r : Run) (k : AccKind) (q : LaneReq) : (s.checkReq r k q).2.mem = s.mem := by
  simp [State.checkReq, apply_ite Prod.snd]

@[simp] theorem State.checkReqs_mem (s : State) (r : Run) (k : AccKind) (qs : List LaneReq) :
    (s.checkReqs r k qs).2.mem = s.mem := by
  induction qs generalizing s with
  | nil => rfl
  | cons q rest ih => simp [State.checkReqs, ih]

@[simp] theorem canon_sample {s : State} (r : Run) (qs : List LaneReq) (h : Canon s.mem) : Canon (s.sample r qs).mem := by
  unfold State.sample
  dsimp only
  split <;> simp [h]

@[simp] theorem canonNext_performRun {s : State} (r : Run) (qs : List LaneReq) (fin : Nat → Lane → Lane) (as : List Access)
    (h : Canon s.mem) :
    CanonNext (performRun s r qs fin as) := by
  unfold performRun
  split <;> simp -implicitDefEqProofs [h]

@[simp] theorem canonNext_runMem {s : State} (r : Run) (k : AccKind) (qs : List LaneReq) (fin : Nat → Lane → Lane)
    (acc : LaneReq → List (Loc × Nat) → List Access) (h : Canon s.mem) :
    CanonNext (runMem s r k qs fin acc) := by
  unfold runMem
  dsimp only
  repeat' split
  all_goals simp [h]

@[simp] theorem canonNext_loadOp {s : State} (o : BitVec 12) (b first size : Nat) (h : Canon s.mem) :
    CanonNext (loadOp s o b first size) := by
  unfold loadOp
  refine canonNext_onRunRegs h fun r t ht => ?_
  simp [ht]

@[simp] theorem canonNext_storeOp {s : State} (o : BitVec 12) (b first size : Nat) (h : Canon s.mem) :
    CanonNext (storeOp s o b first size) := by
  unfold storeOp
  refine canonNext_onRunRegs h fun r t ht => ?_
  simp [ht]

@[simp] theorem canonNext_execAtom {s : State} (t : BitVec 3) (o : BitVec 3) (b a d : BitVec 6) (h : Canon s.mem) :
    CanonNext (execAtom t o b a d s) := by
  unfold execAtom
  refine canonNext_onRunRegs h fun r t ht => ?_
  simp [ht]

@[simp] theorem canonNext_execRedD {s : State} (t o : BitVec 3) (b a : BitVec 6) (h : Canon s.mem) :
    CanonNext (execRedD t o b a s) := by
  refine canonNext_onRunRegs h fun r u hu => ?_
  extract_lets qs x full fs v y tm w es recs tm'
  have hv : Canon v.mem := by simp [v, x, hu]
  have hy : Canon y.mem := canon_sample _ _ hv
  split
  · split
    · exact (canonNext_next _).2 (by simp [hv])
    · exact (canonNext_next _).2 (canon_laneTrap _ _ _ hv)
  · split
    · exact (canonNext_next _).2 (canon_laneTrap _ _ _ hv)
    · exact (canonNext_next _).2 hy

@[simp] theorem canonNext_execStp {s : State} (f : BitVec 5) (a d : BitVec 6) (h : Canon s.mem) :
    CanonNext (execStp f a d s) := by
  refine canonNext_onRunRegs h fun r u hu => ?_
  extract_lets t w groups qs y checked fs v b
  have hv : Canon v.mem := by simp [v, y, hu]
  split
  · exact (canonNext_next _).2 (canon_laneTrap _ _ _ hv)
  · exact canonNext_performRun _ _ _ _ hv

@[simp] theorem canonNext_execEnter {s : State} (n : BitVec 6) (h : Canon s.mem) : CanonNext (execEnter n s) := by
  unfold execEnter
  refine canonNext_onRunRegs h fun r t ht => ?_
  simp [ht]

@[simp] theorem canonNext_execLeave {s : State} (n : BitVec 6) (h : Canon s.mem) : CanonNext (execLeave n s) := by
  unfold execLeave
  refine canonNext_onRunRegs h fun r t ht => ?_
  simp [ht]

@[simp] theorem canonNext_remoteFence {s : State} (h : Canon s.mem) : CanonNext (remoteFence s) := by
  refine canonNext_onRun h fun r t ht => ?_
  dsimp only
  split <;> simp [ht]

@[simp] theorem State.prefetch_mem (s : State) (r : Run) (va : Word) : (s.prefetch r va).mem = s.mem := by
  unfold State.prefetch
  dsimp only
  split
  · next e => split <;> simp [mem_of_eq_pair e]
  · rfl

@[simp] theorem canonNext_prfOp {s : State} (a : Nat) (l1 : Bool) (h : Canon s.mem) : CanonNext (prfOp s a l1) := by
  refine canonNext_onRunRegs h fun r t ht => ?_
  dsimp only
  split
  · simp [ht]
  · exact canonNext_finishLanes _ _ _ (by simp [ht])

@[simp] theorem State.passBreak_mem (s : State) (tk : Nat) (streams : List Nat) : (s.passBreak tk streams).mem = s.mem := by
  simp [State.passBreak]

@[simp] theorem State.showStore_mem (s : State) (tk idx : Nat) : (s.showStore tk idx).mem = s.mem := by
  unfold State.showStore
  split <;> simp

@[simp] theorem State.dropTlb_mem (s : State) (quad idx : Nat) : (s.dropTlb quad idx).mem = s.mem := (rfl)

@[simp] theorem State.dropL1_mem (s : State) (line core : Nat) : (s.dropL1 line core).mem = s.mem := by
  simp [State.dropL1]

@[simp] theorem canon_endClock {s : State} (h : Canon s.mem) : Canon s.endClock.mem :=
  canon_foldl (fun _ _ ht => canon_settleFault _ ht) _ h

@[simp] theorem canon_refill {s : State} (h : Canon s.mem) : Canon s.refill.mem := by
  simp [State.refill, h]

/-! ## The life of a team, intervals and repair -/

@[simp] theorem canon_loadTeam {s : State} (tk : Nat) (h : Canon s.mem) : Canon (s.loadTeam tk).mem := by
  unfold State.loadTeam
  dsimp only
  split <;> simp -implicitDefEqProofs [h]

@[simp] theorem canonNext_execLoadingComplete {s : State} (h : Canon s.mem) : CanonNext (execLoadingComplete s) := by
  unfold execLoadingComplete
  split
  · dsimp only
    split
    · exact (canonNext_next _).2 (canon_foldl (fun _ _ ht => canon_loadTeam _ ht) _ h)
    · simpa using h
  · simpa using h

@[simp] theorem State.leaveRunning_mem (s : State) (k c : Nat) : (s.leaveRunning k c).mem = s.mem := by
  simp [State.leaveRunning]

@[simp] theorem canonNext_execQuantumExpiry {s : State} (h : Canon s.mem) : CanonNext (execQuantumExpiry s) := by
  unfold execQuantumExpiry
  dsimp only
  repeat' split
  all_goals simp -implicitDefEqProofs [h]

@[simp] theorem State.stopTeam_mem (s : State) (tk : Nat) (hit : Nat × Nat) : (s.stopTeam tk hit).mem = s.mem := by
  simp [State.stopTeam]

@[simp] theorem canonNext_execBreakpointMatch {s : State} (h : Canon s.mem) : CanonNext (execBreakpointMatch s) := by
  unfold execBreakpointMatch
  split
  · split
    · simpa using h
    · split <;> simp [h]
  · split
    · split <;> simp [h]
    · simpa using h
  · simpa using h

@[simp] theorem canon_writeStop {s : State} (tk : Nat) (h : Canon s.mem) : Canon (s.writeStop tk).mem := by
  unfold State.writeStop
  dsimp only
  split
  · split <;> next e => simp [mem_of_eq_pair e, h]
  · exact h

@[simp] theorem State.freeStopped_mem (s : State) (a addr : Nat) : (s.freeStopped a addr).mem = s.mem := (rfl)

@[simp] theorem canon_scanStops {s : State} (a : Nat) (h : Canon s.mem) : Canon (s.scanStops a).mem := by
  refine canon_foldl (fun _ _ ht => canon_writeStop _ ht) _ ?_
  simpa using h

@[simp] theorem canonNext_execStopSlotScan {s : State} (h : Canon s.mem) : CanonNext (execStopSlotScan s) := by
  unfold execStopSlotScan
  split <;> simp [h]

@[simp] theorem canonNext_execStopSlotFree {s : State} (h : Canon s.mem) : CanonNext (execStopSlotFree s) := by
  unfold execStopSlotFree
  split
  · split
    · split <;> next e => simp [mem_of_eq_pair e, h]
    · simpa using h
  · simpa using h

@[simp] theorem canon_freePlaces {s : State} (k c : Nat) (h : Canon s.mem) : Canon (s.freePlaces k c).mem := by
  refine (State.setGrid_mem ..).symm ▸ canon_foldl (fun t tk ht => ?_) _ h
  dsimp only
  split
  · exact canon_wipeSpad _ (by simpa using ht)
  · exact ht

@[simp] theorem canon_finishSwap {s : State} (tk : Nat) (h : Canon s.mem) : Canon (s.finishSwap tk).mem := by
  unfold State.finishSwap
  extract_lets t k c core u v q w x y y' z a z'
  have hv : Canon v.mem := canon_traceEvent _ _ (by rwa [State.setCore_mem])
  have hy : Canon y'.mem := by
    change Canon x.mem
    rwa [State.setTeam_mem]
  have hz : Canon z.mem := canon_ite_state (canon_freePlaces _ _ hy) hy
  have hz' : Canon z'.mem := canon_ite_state (by rwa [State.setCtxSt_mem]) hz
  exact canon_ite_state (canon_scanStops _ hz') hz'

@[simp] theorem canonNext_execSwapOut {s : State} (h : Canon s.mem) : CanonNext (execSwapOut s) := by
  unfold execSwapOut
  dsimp only
  repeat' split
  all_goals simp [h]

@[simp] theorem State.selectAudit_mem (s : State) (tk : Nat) : (s.selectAudit tk).mem = s.mem := by
  unfold State.selectAudit
  dsimp only
  split <;> simp

@[simp] theorem canon_retire {s : State} (tk : Nat) (h : Canon s.mem) : Canon (s.retire tk).mem := by
  unfold State.retire
  extract_lets k g c u v w x y z a
  have hu : Canon u.mem := canon_traceEvent _ _ (by rwa [State.selectAudit_mem])
  have hy : Canon y.mem := by rwa [State.setGrid_mem, State.setTeam_mem]
  have hz : Canon z.mem := canon_ite_state (canon_freePlaces _ _ hy) hy
  rwa [State.testMoved_mem]

@[simp] theorem canon_flushExit {s : State} (tk : Nat) (h : Canon s.mem) : Canon (s.flushExit tk).mem := by
  unfold State.flushExit
  split <;> simp [h]

@[simp] theorem canonNext_execExitActions {s : State} (h : Canon s.mem) : CanonNext (execExitActions s) := by
  unfold execExitActions
  split
  · extract_lets t t' u v w
    have hv : Canon v.mem := canon_flushExit _ (by simp [u, h])
    have hw : Canon w.mem := canon_drainAll _ hv
    repeat' split
    all_goals simp [u, h, hv, hw]
  · simpa using h

@[simp] theorem canon_finishGrid {s : State} (k status : Nat) (h : Canon s.mem) : Canon (s.finishGrid k status).mem := by
  unfold State.finishGrid
  dsimp only
  split <;> simp [h]

@[simp] theorem canonNext_execGridEnd {s : State} (h : Canon s.mem) : CanonNext (execGridEnd s) := by
  unfold execGridEnd
  dsimp only
  repeat' split
  all_goals simp -implicitDefEqProofs [h]

@[simp] theorem canonNext_execUndefinedInstruction {s : State} (h : Canon s.mem) : CanonNext (execUndefinedInstruction s) := by
  unfold execUndefinedInstruction
  split
  · refine canonNext_onRun h fun r t ht => ?_
    split
    · next e => split <;> simp [mem_of_eq_pair e, ht]
    · next e => simp [mem_of_eq_pair e, ht]
  · refine canonNext_onSeq h fun tk q t ht => ?_
    split
    · next e => split <;> simp [mem_of_eq_pair e, ht]
    · next e => simp [mem_of_eq_pair e, ht]
  · simpa using h

@[simp] theorem canon_restoreTeam {s : State} (c : Checkpoint) (h : Canon s.mem) : Canon (s.restoreTeam c).mem :=
  memWf_restoreTeam c h

@[simp] theorem State.dropReads_mem (s : State) (k : Nat) : (s.dropReads k).mem = s.mem := (rfl)

@[simp] theorem canon_rollback {s : State} (k : Nat) (h : Canon s.mem) : Canon (s.rollback k).mem := by
  unfold State.rollback
  extract_lets u i v before kept w x y g z l
  have hv : Canon v.mem := canon_foldl (fun _ e ht => memWf_restoreLine k e ht) _ (by simp [u, h])
  have hx : Canon x.mem := by
    have hw : Canon w.mem := by
      rw [State.dropReads_mem]
      exact canon_dropTeams k hv
    exact canon_foldl (fun _ _ ht => by rwa [State.setTeam_mem]) _ hw
  have hy : Canon y.mem := canon_ite_state hx (canon_foldl (fun _ c ht => canon_restoreTeam c ht) _ hx)
  have hl : Canon l.mem := by rwa [State.logEntry_mem, State.setGrid_mem]
  exact canon_ite_state (by rwa [State.setCtxSt_mem]) hl

@[simp] theorem canonNext_execRollback {s : State} (h : Canon s.mem) : CanonNext (execRollback s) := by
  unfold execRollback
  split
  · split <;> simp [h]
  · simp [h]

@[simp] theorem canonNext_execAuditReplay {s : State} (h : Canon s.mem) : CanonNext (execAuditReplay s) := by
  unfold execAuditReplay
  dsimp only
  repeat' split
  all_goals simp [State.logEntry_mem, h]

/-- A row's repair keeps memory canonical where its action does. -/
theorem canonNext_repairRow {s : State} (kind : Nat) {act : HbmRow → State → State} (h : Canon s.mem)
    (ha : ∀ r t, Canon t.mem → Canon (act r t).mem) : CanonNext (repairRow s kind act) := by
  unfold repairRow
  split
  · split
    · have hl : ∀ d, Canon (s.logEntry kind 0 0 0 d).mem := fun d => by rwa [State.logEntry_mem]
      exact (canonNext_next _).2 (canon_ite_state (hl _) (ha _ _ (hl _)))
    · simpa using h
  · simpa using h

@[simp] theorem canonNext_execSoftRepair {s : State} (h : Canon s.mem) : CanonNext (execSoftRepair s) :=
  canonNext_repairRow 8 h fun _ _ ht => ht

@[simp] theorem canonNext_execRepairQuiesceEnd {s : State} (h : Canon s.mem) : CanonNext (execRepairQuiesceEnd s) := by
  unfold execRepairQuiesceEnd
  split
  · split <;> simp [h]
  · simp [h]

@[simp] theorem canonNext_execHardRepair {s : State} (h : Canon s.mem) : CanonNext (execHardRepair s) :=
  canonNext_repairRow 9 h fun _ _ ht => ht

@[simp] theorem canonNext_execAgeingThreshold {s : State} (h : Canon s.mem) : CanonNext (execAgeingThreshold s) := by
  unfold execAgeingThreshold
  split
  · split <;> simp [State.logEntry_mem, h]
  · simp [h]

/-! ## Table points -/

@[simp] theorem canonNext_qruTable {s : State} (b a d : Nat) (f : Nat → Nat × Flags) (h : Canon s.mem) :
    CanonNext (qruTable s b a d f) := by
  refine canonNext_onRunRegs h fun r t ht => ?_
  dsimp only
  split <;> simp [ht]

/-! ## Sequencer arithmetic -/

theorem canonNext_seqBin {s : State} (b a d : BitVec 5) (f : Word → Word → Word) (h : Canon s.mem) :
    CanonNext (seqBin s b a d f) :=
  canonNext_seqOp _ _ h

theorem canonNext_seqImm {s : State} (i : BitVec 16) (a d : BitVec 5) (f : Word → Word → Word) (h : Canon s.mem) :
    CanonNext (seqImm s i a d f) :=
  canonNext_seqOp _ _ h

theorem canonNext_seqCompact {s : State} (b d : BitVec 5) (f : Word → Word → Word) (h : Canon s.mem) :
    CanonNext (seqCompact s b d f) :=
  canonNext_seqOp _ _ h

/-! ## Every instruction and event -/

/-- Every instruction and every event keeps memory canonical: each by the rule of the operation that its meaning is given by. -/
theorem canonNext_exec (i : Instr) {s : State} (h : Canon s.mem) : CanonNext (exec i s) := by
  unfold exec
  cases i with
  | add | sub | mul | mulh | min | max | adds | subs | and | or | xor | andn | shl | shr | shra | rol | div | rem | absd
    | fahAdd | fahSub | fahMul | fahDiv | fahMin | fahMax | fahCpsgn | fawAdd | fawSub | fawMul | fawDiv | fawMin |
    fawMax | fawCpsgn | qnt | dqnt | qrseed | lcAddI32 | lcSubI32 | lcAnd | lcOr | lcXor | lcShlI32 | lcShrN32 |
    lcShraI32 | lcAddF32 | lcSubF32 | lcMulF32 | lcMinF32 | lcMaxF32 | lcAddI64 => exact canonNext_binary _ _ _ _ _ h
  | sel | cmpi | lu | ppack | punpk | nop | fenceC => exact canonNext_laneOp _ _ _ h
  | clz | popc | brev | abs | addi | logiAnd | logiOr | logiXor | logiAndn | shfiShl | shfiShr | shfiShra | shfiRol |
    fahSqrt | fawSqrt | rcp | rsq | exp2 | log2 | sin | cos | tanh | cvt | cvts | cvtw | npk | nunp | toe8 | fre8 |
    lcMov | lcNegF32 => exact canonNext_unary _ _ _ _ h
  | cmp | fspecCmp => exact canonNext_compare2 _ _ _ _ h
  | fma => exact canonNext_ternary _ _ _ _ _ _ h
  | shfl | shflx | shflu | shfld | xiShfl | xiShflx | xiShflu | xiShfld => exact canonNext_shuffle _ _ _ _ _ h
  | voteAny | voteAll | voteBallot | matchLanes | rdc | scan => exact canonNext_crossOp _ _ h
  | atom => exact canonNext_execAtom _ _ _ _ _ h
  | redD => exact canonNext_execRedD _ _ _ _ h
  | ld8 | ld16 | ld32 | ld64 | ldv128 | ldv256 | ldv512 => exact canonNext_loadOp _ _ _ _ h
  | st8 | st16 | st32 | st64 | stv128 | stv256 | stv512 => exact canonNext_storeOp _ _ _ _ h
  | movs => exact canonNext_execMovs _ _ h
  | setsStklim => exact canonNext_execSetsStklim _ h
  | setsLepc => exact canonNext_execSetsLepc _ h
  | setsLflags => exact canonNext_execSetsLflags _ h
  | setsBmode => exact canonNext_execSetsBmode _ h
  | trap => exact canonNext_execTrap _ h
  | jmpr | ret => exact canonNext_jumpReg _ h
  | enter => exact canonNext_execEnter _ h
  | leave => exact canonNext_execLeave _ h
  | pfi => exact canonNext_execPfi _ h
  | prfL1 | prfMsc => exact canonNext_prfOp _ _ h
  | stp => exact canonNext_execStp _ _ _ h
  | pushCe | pushXe | pushPg => exact canonNext_lanePush _ _ _ h
  | bara | baraw => exact canonNext_laneArrive _ _ h
  | barw => exact canonNext_execBarw _ h
  | vget => exact canonNext_execVget _ _ h
  | vput => exact canonNext_execVput _ _ h
  | bra => exact canonNext_execBra _ h
  | brc | brcF => exact canonNext_branchOn _ _ _ h
  | call => exact canonNext_execCall _ h
  | qrn | qrnf => exact canonNext_qruTable _ _ _ _ h
  | saluAdd | saluSub | saluAnd | saluOr | saluXor | saluShl | saluShr | saluShra | smulMul | smulMulhs | smulMulhu |
    smulDiv | smulDivu | smulRem | smulRemu | scmpMin | scmpMax | scmpMinu | scmpMaxu | scmpSlt | scmpSltu | scmpSeq =>
    exact canonNext_seqBin _ _ _ _ h
  | sld => exact canonNext_execSld _ _ _ _ h
  | sst => exact canonNext_execSst _ _ _ _ h
  | siAdd | siAnd | siOr | siXor | addhi => exact canonNext_seqImm _ _ _ _ h
  | shiftShl | shiftShr | shiftShra | shiftRol | sctlNop => exact canonNext_seqOp _ _ h
  | bz | bnz | bltz | bgez | bgtz | blez => exact canonNext_seqBranch _ _ _ h
  | jmp => exact canonNext_execJmp _ h
  | jumpCall => exact canonNext_execJumpCall _ h
  | sctlJmpr => exact canonNext_execSctlJmpr _ h
  | sctlMovs => exact canonNext_execSctlMovs _ _ h
  | movsTflagsc => exact canonNext_execMovsTflagsc _ h
  | sctlTrap => exact canonNext_execSctlTrap _ h
  | sctlTret => exact canonNext_execSctlTret _ h
  | loop => exact canonNext_execLoop _ _ _ h
  | bari => exact canonNext_execBari _ _ h
  | barBara => exact canonNext_execBarBara _ _ h
  | barBarw => exact canonNext_execBarBarw _ _ h
  | barBaraw => exact canonNext_execBarBaraw _ _ h
  | sxPushCe | sxPushXe | sxPushPg => exact canonNext_seqPush _ _ _ h
  | tmul | tmac | tcmul | tcmulAddend | tbp => exact canonNext_productOp _ _ _ _ _ _ _ h
  | tsca => exact canonNext_execTsca _ _ _ _ _ _ h
  | tadd | tsub | thad => exact canonNext_elementOp _ _ _ _ _ _ h
  | ttr => exact canonNext_execTtr _ _ _ _ h
  | tcvt => exact canonNext_execTcvt _ _ _ h
  | tforce => exact canonNext_execTforce _ h
  | tdrop => exact canonNext_execTdrop _ h
  | tld => exact canonNext_execTld _ _ _ _ h
  | tst => exact canonNext_execTst _ _ _ _ h
  | acq => exact canonNext_execAcq _ _ h
  | rel => exact canonNext_execRel _ h
  | tstat => exact canonNext_execTstat _ _ h
  | tzero => exact canonNext_execTzero _ _ _ h
  | tfill => exact canonNext_execTfill _ _ _ _ h
  | view => exact canonNext_execView _ _ h
  | join => exact canonNext_execJoin _ h
  | vwait => exact canonNext_execVwait _ h
  | scMov | scAdd | scSub | scAnd | scOr | scXor | scShl | scShr | scShra | scMul | scMin | scMax | scMinu | scMaxu |
    scNeg | scNot => exact canonNext_seqCompact _ _ _ h
  | yld => exact canonNext_execYld h
  | exit => exact canonNext_execExit h
  | fenceD | fenceS => exact canonNext_remoteFence h
  | tret => exact canonNext_execTret h
  | sctlRet => exact canonNext_execSctlRet h
  | sctlExit => exact canonNext_execSctlExit h
  | sctlFenceC | sctlFenceD | sctlFenceS => exact canonNext_seqFence _ h
  | cbar => exact canonNext_execCbar h
  | gbar => exact canonNext_execGbar h
  | breakpointMatch => exact canonNext_execBreakpointMatch h
  | releaseWaitEnd => exact canonNext_execReleaseWaitEnd h
  | launch => exact canonNext_execLaunch h
  | create => exact canonNext_execCreate h
  | update => exact canonNext_execUpdate h
  | move => exact canonNext_execMove h
  | resume => exact canonNext_execResume h
  | destroy => exact canonNext_execDestroy h
  | capstart => exact canonNext_execCapstart h
  | capstop => exact canonNext_execCapstop h
  | capstopComplete => exact canonNext_execCapstopComplete h
  | ethernetFrame => exact canonNext_execEthernetFrame h
  | qtailWrite => exact canonNext_execQtailWrite h
  | queueEnable => exact canonNext_execQueueEnable h
  | queueDisable => exact canonNext_execQueueDisable h
  | errClear => exact canonNext_execErrClear h
  | vectorUnmask => exact canonNext_execVectorUnmask h
  | tlbinv => exact canonNext_execTlbinv h
  | mbdoor => exact canonNext_execMbdoor h
  | registerWrite => exact canonNext_execRegisterWrite h
  | stopSlotFree => exact canonNext_execStopSlotFree h
  | stopSlotScan => exact canonNext_execStopSlotScan h
  | dependenceReread => exact canonNext_execDependenceReread h
  | teamPlacement => exact canonNext_execTeamPlacement h
  | loadingComplete => exact canonNext_execLoadingComplete h
  | quantumExpiry => exact canonNext_execQuantumExpiry h
  | swapOut => exact canonNext_execSwapOut h
  | exitActions => exact canonNext_execExitActions h
  | gridEnd => exact canonNext_execGridEnd h
  | contextLoaded => exact canonNext_execContextLoaded h
  | erasureComplete => exact canonNext_execErasureComplete h
  | forceEvaluation => exact canonNext_execForceEvaluation h
  | acqGrant => exact canonNext_execAcqGrant h
  | waitingAccessPerform => exact canonNext_execWaitingAccessPerform h
  | bankModeSwitch => exact canonNext_execBankModeSwitch h
  | copy | copy2d | gather | scatter | fill | planes => exact canonNext_ceEvent _ h
  | pgMove | pgPin | pgClrcnt => exact canonNext_pgEvent _ h
  | demotion => exact canonNext_execDemotion h
  | pageReadback => exact canonNext_execPageReadback h
  | forwardedAccess => exact canonNext_execForwardedAccess h
  | regenerationComplete => exact canonNext_execRegenerationComplete h
  | allred | redscat | allgath | bcast | send | recv => exact canonNext_xeEvent _ h
  | collectiveBegin => exact canonNext_execCollectiveBegin h
  | collectiveComplete => exact canonNext_execCollectiveComplete h
  | tickBoundary => exact canonNext_execTickBoundary h
  | raiseSuspicion => exact canonNext_execRaiseSuspicion h
  | viewInstallation => exact canonNext_execViewInstallation h
  | joinNotice => exact canonNext_execJoinNotice h
  | viewrec => exact canonNext_execViewrec h
  | servoOffsetExceeded => exact canonNext_execServoOffsetExceeded h
  | portEnable | portUp | trainingTimeout | lossOfSignal | portDisable => exact canonNext_portEvent _ _ _ h
  | chipStop => exact canonNext_execChipStop h
  | moduleReset => exact canonNext_execModuleReset h
  | warmReset => exact canonNext_execWarmReset h
  | lifeCycleChange => exact canonNext_execLifeCycleChange h
  | hostAccess => exact canonNext_execHostAccess h
  | rollback => exact canonNext_execRollback h
  | auditReplay => exact canonNext_execAuditReplay h
  | softRepair => exact canonNext_execSoftRepair h
  | repairQuiesceEnd => exact canonNext_execRepairQuiesceEnd h
  | hardRepair => exact canonNext_execHardRepair h
  | ageingThreshold => exact canonNext_execAgeingThreshold h
  | loadRequest => exact canonNext_execLoadRequest h
  | translation => exact canonNext_execTranslation h
  | unloadRequest => exact canonNext_execUnloadRequest h
  | stageImage => exact canonNext_execStageImage h
  | handOver => exact canonNext_execHandOver h
  | heartbeat => exact canonNext_execHeartbeat h
  | heartbeatWindowEnd => exact canonNext_execHeartbeatWindowEnd h
  | undefinedInstruction => exact canonNext_execUndefinedInstruction h
  | hostBridgeError => exact canonNext_execHostBridgeError h
  | indirectionEntryWrite => exact canonNext_execIndirectionEntryWrite h
  | firmwareViewInstall => exact canonNext_execFirmwareViewInstall h
  | servoOffsetRestored => exact canonNext_execServoOffsetRestored h

/-! ## A turn, and a step -/

/-- The state that a turn comes to before any instruction executes. -/
def Ready.state : Ready → State
  | .done s => s
  | .stop s => s
  | .word _ s => s

@[simp] theorem Ready.state_done (s : State) : (Ready.done s).state = s := (rfl)
@[simp] theorem Ready.state_stop (s : State) : (Ready.stop s).state = s := (rfl)
@[simp] theorem Ready.state_word (w : Nat) (s : State) : (Ready.word w s).state = s := (rfl)

theorem canon_slotReady {s : State} (c p i : Nat) (h : Canon s.mem) : Canon (s.slotReady c p i).state.mem := by
  unfold State.slotReady
  split
  · exact h
  · split
    · exact h
    · dsimp only
      split <;> next e => simp [mem_of_eq_pair e, h]

theorem canon_seqFetch {s : State} (tk : Nat) (h : Canon s.mem) : Canon (s.seqFetch tk).state.mem := by
  unfold State.seqFetch
  dsimp only
  split
  · exact h
  · split <;> next e => simp [mem_of_eq_pair e, h]

theorem canon_seqReady {s : State} (tk : Nat) (h : Canon s.mem) : Canon (s.seqReady tk).state.mem := by
  unfold State.seqReady
  split
  · exact canon_takeAsync tk _ h
  · split
    · exact canon_seqFetch tk h
    · exact h

theorem canonNext_execLane (w : Nat) {s : State} (h : Canon s.mem) : CanonNext (execLane w s) := by
  unfold execLane
  split <;> exact canonNext_exec _ h

theorem canonNext_execSeq (w : Nat) {s : State} (h : Canon s.mem) : CanonNext (execSeq w s) := by
  unfold execSeq
  split <;> exact canonNext_exec _ h

/-- Whatever acts keeps memory canonical. -/
theorem canonNext_act {s : State} (h : Canon s.mem) : CanonNext (act s) := by
  unfold act
  split
  case h_1 => simpa using h
  case h_2 c p i _ =>
    have hr := canon_slotReady c p i h
    split <;> (rename_i e; rw [e] at hr)
    · simpa using hr
    · exact canonNext_exec _ hr
    · exact canonNext_execLane _ hr
  case h_3 tk _ =>
    have hr := canon_seqReady tk h
    split <;> (rename_i e; rw [e] at hr)
    · simpa using hr
    · exact canonNext_exec _ hr
    · exact canonNext_execSeq _ hr
  case h_4 => exact canonNext_exec _ h
  all_goals simp [h]

@[simp] theorem State.sleep_mem (s : State) (t : Turn) : (s.sleep t).mem = s.mem := by
  unfold State.sleep
  split <;> rfl

theorem canonNext_step {s : State} (h : Canon s.mem) : CanonNext (step s) := by
  unfold step
  split
  · split
    · simpa using h
    · exact (canonNext_next _).2 (canon_refill h)
  · split
    · simpa using h
    · exact canonNext_act h

end Sys2Proof.Machine

/-- Settles O6: what acts in a step keeps memory canonical (canonNext_act), and so do the refill of the schedule and the turns of
a stopped chip. -/
theorem stepsKeepMemoryCanonical : Obligations.StepsKeepMemoryCanonical := by
  unfold Obligations.StepsKeepMemoryCanonical
  exact fun _ t h ht => Sys2Proof.Machine.canonNext_step h t ht

end

section
/-! SUPPORT. The read-back of an MSI-X vector's mask. -/

open Sys2Proof.Machine

/-- Refutes O48, in its clause on the read-back of a vector's mask: a read adds 2^32 to the stored doubleword for the mask, and where
bit 32 of the doubleword is set already (no write stores it so, but the clause is said of every state) the sum carries and
bit 32 reads 0. The state: vector 0 masked, its second doubleword 2^32. -/
theorem not_registerEvents : ¬ Obligations.RegisterEvents := by
  unfold Obligations.RegisterEvents
  rintro ⟨-, -, -, hwrite⟩
  obtain ⟨-, -, -, -, hmask, -⟩ := hwrite
    { State.reset with
      turn := .event .registerWrite (.natWord 0 0)
      dsp := { State.reset.dsp with msixTable := [(1, 0x100000000)], msixMask := 1 } } 0 0 rfl
  exact absurd (hmask 0 (by decide)) (by decide)

end

section
/-! SUPPORT. The registers of both streams: what a write leaves of the other registers, and of the other file. -/

namespace Sys2Proof.Machine

/-! ## The sequencer (R146, R151) -/

@[simp] theorem Sequencer.setReg_zero (q : Sequencer) (x : Word) : q.setReg 0 x = q := by simp [Sequencer.setReg]

/-- A write to a handler register leaves the main registers. -/
theorem Sequencer.setReg_handler_s (q : Sequencer) {k : Nat} (ht : q.trap = true) (hk : 24 ≤ k) (x : Word) :
    (q.setReg k x).s = q.s := by
  have h0 : k ≠ 0 := by omega
  simp [Sequencer.setReg, h0, ht, hk]

/-- Outside trap mode a write leaves the handler registers. -/
theorem Sequencer.setReg_main_hs (q : Sequencer) (k : Nat) (ht : q.trap = false) (x : Word) :
    (q.setReg k x).hs = q.hs := by
  by_cases h0 : k = 0 <;> simp [Sequencer.setReg, h0, ht]

/-! ## A lane (R15, R171) -/

/-- Two register fields of a run name the same register only when they are the same field. -/
theorem absReg_inj (trap : Bool) {n k : Nat} (hn : n < 64) (hk : k < 64) : absReg trap n = absReg trap k ↔ n = k := by
  unfold absReg
  cases trap
  · simp
  · by_cases hn' : 56 ≤ n <;> by_cases hk' : 56 ≤ k <;> simp [hn', hk'] <;> omega

/-- A register field reads what was written to it, and every other as before. -/
theorem Lane.reg_setReg (l : Lane) (trap : Bool) {k n : Nat} (hk : k < 64) (hn : n < 64) (x : VReg) :
    (l.setReg trap k x).reg trap n = if n = k then x else l.reg trap n := by
  simp only [Lane.reg_absGet _ _ hn, Lane.absGet_setReg _ _ hk, absReg_inj trap hn hk]

/-- A write to a handler register leaves v0 to v63. -/
theorem Lane.setReg_handler_v (l : Lane) {k : Nat} (hk : 56 ≤ k) (x : VReg) : (l.setReg true k x).v = l.v := by
  simp [Lane.setReg, hk]

/-- Outside trap mode a write leaves h0 to h7. -/
theorem Lane.setReg_main_h (l : Lane) (k : Nat) (x : VReg) : (l.setReg false k x).h = l.h := by
  simp [Lane.setReg]

end Sys2Proof.Machine

open Sys2Proof.Machine

/-- Settles O28: the read-back of each stream's register file, with s0 apart, and the handler registers in and out of
trap mode. -/
theorem registersReadBack : Obligations.RegistersReadBack := by
  unfold Obligations.RegistersReadBack
  refine ⟨fun q k n x hk hn => ?_, fun l trap k n x hk hn => ?_⟩
  · have hread : (q.setReg k x).reg n = if n = k ∧ k ≠ 0 then x else q.reg n := by
      by_cases h0 : k = 0
      · simp [h0]
      · simp [Sequencer.reg_setReg q hk hn, h0]
    exact ⟨hread, q.reg_zero, q.setReg_zero x, fun ht h24 => q.setReg_handler_s ht h24 x,
      fun ht => q.setReg_main_hs k ht x⟩
  · refine ⟨l.reg_setReg trap hk hn x, ?_, ?_⟩
    · rintro rfl h56
      exact l.setReg_handler_v h56 x
    · rintro rfl
      exact l.setReg_main_h k x

end

section
/-! SUPPORT. What the host, the launch ports and firmware do to the chip: a vector's unmasking, TLBINV, the mailbox, stores of the
host, entries of the indirection table and launch frames. Each has the lemmas that say what its operation leaves, and O49 is put
together from them. -/

namespace Sys2Proof.Machine

/-! ## Vectors (R116) -/

/-- A bit written as a power of two is the bit that a shift gives. -/
theorem ofNat_two_pow_eq_shift (v : Nat) : BitVec.ofNat 64 (2 ^ v) = 1#64 <<< v :=
  BitVec.eq_of_toNat_eq (by simp [Nat.shiftLeft_eq])

/-- Clearing a bit that is 0 leaves a word as it was. -/
theorem and_not_bit_of_clear {x : Word} {v : Nat} (h : x.getLsbD v = false) : x &&& ~~~(1#64 <<< v) = x := by
  ext i hi
  by_cases e : i = v
  · subst e
    simp [← BitVec.getLsbD_eq_getElem, h]
  · have hbit : (1#64 <<< v)[i] = false := by simp; omega
    simp [hbit]

/-- An unmasked vector is held back by the function's mask alone. -/
theorem Dispatcher.masked_unmasked (d : Dispatcher) {v : Nat} (hv : v < 64) :
    ({ d with msixMask := d.msixMask &&& ~~~(1#64 <<< v) } : Dispatcher).masked v = d.msixFunction := by
  simp [Dispatcher.masked, hv]

/-- Unmasking a vector sends its pending message, unless the function is masked (R116). -/
theorem State.unmask_eq (s : State) {v : Nat} (hv : v < 64) :
    s.unmask v = { s with dsp := { s.dsp with
      msixMask := s.dsp.msixMask &&& ~~~(1#64 <<< v)
      msixPending := if s.dsp.msixFunction then s.dsp.msixPending else s.dsp.msixPending &&& ~~~(1#64 <<< v)
      messages := if s.dsp.msixPending.getLsbD v && !s.dsp.msixFunction then v :: s.dsp.messages else s.dsp.messages } } := by
  simp only [State.unmask, State.sendPending, ofNat_two_pow_eq_shift, Dispatcher.masked_unmasked _ hv]
  cases hf : s.dsp.msixFunction <;> cases hp : s.dsp.msixPending.getLsbD v <;> simp [hp, and_not_bit_of_clear]

/-! ## TLBINV (R318, R319) -/

/-- The translations that a test names are gone from every quad, and no others (R319). -/
theorem State.dropUnder_tlbOf (s : State) (a : Nat) (hit : TlbEntry → Bool) (under : Nat → Bool) (quad : Nat) :
    (s.dropUnder a hit under).tlbOf quad = (s.tlbOf quad).filter (fun e => !(decide (e.asid = a) && hit e)) :=
  SMap.get_mapV _ _ _ rfl

/-- A line keeps all but its copies under the stretches (R319). -/
theorem State.dropUnder_line (s : State) (a : Nat) (hit : TlbEntry → Bool) (under : Nat → Bool) (k : Nat) :
    (s.dropUnder a hit under).line k =
      { s.line k with copies := (s.line k).copies.filter (fun c => !(decide (c.asid = a) && under (c.va * 64))) } := by
  simp only [State.line, State.dropUnder]
  rw [SMap.get_mapV _ _ _ rfl]

/-- The keys that stay when the entries of some keys are removed. -/
theorem mem_keys_filter {α : Type} (xs : List (Nat × α)) (gone : List Nat) (k : Nat) :
    k ∈ (xs.filter (fun x => !gone.contains x.1)).map (·.1) ↔ k ∈ xs.map (·.1) ∧ k ∉ gone := by
  have hkeep (j : Nat) : (!gone.contains j) = true ↔ j ∉ gone := by
    rw [Bool.not_eq_true', ← Bool.not_eq_true, List.contains_iff_mem]
  constructor
  · intro hk
    obtain ⟨x, hx, rfl⟩ := List.mem_map.1 hk
    obtain ⟨hmem, hx⟩ := List.mem_filter.1 hx
    exact ⟨List.mem_map.2 ⟨x, hmem, rfl⟩, (hkeep x.1).1 hx⟩
  · rintro ⟨hk, hgone⟩
    obtain ⟨x, hx, rfl⟩ := List.mem_map.1 hk
    exact List.mem_map.2 ⟨x, List.mem_filter.2 ⟨hx, (hkeep x.1).2 hgone⟩, rfl⟩

/-- An instruction cache keeps the lines that it does not hold under the stretches (R319, R334). -/
theorem State.mem_icache_dropUnder (s : State) (a : Nat) (hit : TlbEntry → Bool) (under : Nat → Bool) (c k : Nat) :
    k ∈ ((s.dropUnder a hit under).coreAt c).icache.map (·.1) ↔ k ∈ (s.coreAt c).icache.map (·.1) ∧
      ¬ ∃ x ∈ (s.coreAt c).ivia, x.1 = k ∧ x.2.1 = a ∧ under (x.2.2 * 64) = true := by
  have hcore : (s.dropUnder a hit under).coreAt c = _ := SMap.get_mapV _ _ _ rfl
  rw [hcore]
  refine (mem_keys_filter _ _ k).trans (and_congr_right fun _ => not_congr ?_)
  simp only [List.mem_map, List.mem_filter, Bool.and_eq_true, decide_eq_true_eq]
  exact ⟨fun ⟨x, ⟨hx, hasid, hunder⟩, hkey⟩ => ⟨x, hx, hkey, hasid, hunder⟩,
    fun ⟨x, hx, hkey, hasid, hunder⟩ => ⟨x, ⟨hx, hasid, hunder⟩, hkey⟩⟩

/-- Translations and what is held under them go: of context a those that `hit` names, and the L1 copies and code lines at the
addresses `under`; nothing else changes but DONE, and what walks have asked other chips for. -/
def TlbInvalidated (s t : State) (a : Nat) (hit : TlbEntry → Bool) (under : Nat → Prop) : Prop :=
  t = { s with tlb := t.tlb, lines := t.lines, cores := t.cores, fab := { s.fab with fwd := t.fab.fwd }
               dsp := { s.dsp with tlbinvDone := s.dsp.tlbinvDone + 1 } } ∧
  (∀ quad, t.tlbOf quad = (s.tlbOf quad).filter (fun e => !hit e)) ∧
  (∀ k, (t.line k).poison = (s.line k).poison ∧ (t.line k).wts = (s.line k).wts ∧ (t.line k).rts = (s.line k).rts ∧
    ∀ c, c ∈ (t.line k).copies ↔ c ∈ (s.line k).copies ∧ ¬ (c.asid = a ∧ under (c.va * 64))) ∧
  ∀ c k, k ∈ (t.coreAt c).icache.map (·.1) ↔ k ∈ (s.coreAt c).icache.map (·.1) ∧
    ¬ ∃ x ∈ (s.coreAt c).ivia, x.1 = k ∧ x.2.1 = a ∧ under (x.2.2 * 64)

/-- What an invalidation with DONE counted leaves, with its tests written in any equivalent form. -/
theorem State.dropUnder_invalidates (s : State) {a : Nat} {hit hit' : TlbEntry → Bool} {under : Nat → Bool} {under' : Nat → Prop}
    (hh : ∀ e, hit' e = (decide (e.asid = a) && hit e)) (hu : ∀ v, under v = true ↔ under' v) :
    TlbInvalidated s { s.dropUnder a hit under with dsp := { s.dsp with tlbinvDone := s.dsp.tlbinvDone + 1 } } a hit' under' := by
  refine ⟨rfl, fun quad => ?_, fun k => ?_, fun c k => ?_⟩
  · simp only [hh]
    exact s.dropUnder_tlbOf a hit under quad
  · have hline : State.line { s.dropUnder a hit under with dsp := { s.dsp with tlbinvDone := s.dsp.tlbinvDone + 1 } } k = _ :=
      s.dropUnder_line a hit under k
    rw [hline]
    refine ⟨rfl, rfl, rfl, fun c => List.mem_filter.trans (and_congr_right fun _ => ?_)⟩
    rw [← hu, Bool.not_eq_true', ← Bool.not_eq_true, Bool.and_eq_true, decide_eq_true_eq]
  · simp only [← hu]
    exact s.mem_icache_dropUnder a hit under c k

/-- The stretch that a word names, by its page-size field (R318). -/
def tlbinvSize (w : Word) : Nat := [2 ^ 12, 2 ^ 16, 2 ^ 21, 2 ^ 30].getD (w.extractLsb' 10 2).toNat 0

/-- Where that stretch begins (R318). -/
def tlbinvBase (w : Word) : Nat := (w.extractLsb' 12 44).toNat * 2 ^ 12 / tlbinvSize w * tlbinvSize w

/-- With bit 9 set a write names every translation of its context (R318). -/
theorem State.writeTlbinv_context (s : State) {w : Word} (h : w.getLsbD 9 = true) :
    s.writeTlbinv w = { s.dropUnder (w.extractLsb' 0 9).toNat (fun _ => true) (fun _ => true) with
      dsp := { s.dsp with tlbinvDone := s.dsp.tlbinvDone + 1 } } := by
  have hall : w.toNat.testBit 9 = true := h
  simp only [State.writeTlbinv, hall, if_true, BitVec.extractLsb'_toNat, Nat.shiftRight_zero]
  rfl

/-- With bit 9 clear it names a stretch, and the translations that overlap it (R318, R319). -/
theorem State.writeTlbinv_stretch (s : State) {w : Word} (h : w.getLsbD 9 = false) :
    s.writeTlbinv w = { s.invalidate (w.extractLsb' 0 9).toNat (tlbinvBase w) (tlbinvSize w) with
      dsp := { s.dsp with tlbinvDone := s.dsp.tlbinvDone + 1 } } := by
  have hall : w.toNat.testBit 9 = false := h
  have hsize : w.toNat / 2 ^ 10 % 4 = 0 ∨ w.toNat / 2 ^ 10 % 4 = 1 ∨ w.toNat / 2 ^ 10 % 4 = 2 ∨ w.toNat / 2 ^ 10 % 4 = 3 := by omega
  simp only [State.writeTlbinv, hall, tlbinvBase, tlbinvSize, BitVec.extractLsb'_toNat, Nat.shiftRight_eq_div_pow,
    Nat.pow_zero, Nat.div_one, show 2 ^ 2 = 4 from rfl]
  obtain h | h | h | h := hsize <;> rw [h] <;> rfl

/-- TLBINV removes what it names and counts (R318, R319, R334). -/
theorem State.writeTlbinv_invalidates (s : State) (w : Word) :
    let a := (w.extractLsb' 0 9).toNat
    let size := tlbinvSize w
    let lo := tlbinvBase w
    let hit := fun (e : TlbEntry) => decide (e.asid = a) &&
      (w.getLsbD 9 || (decide (e.page < lo + size) && decide (lo < e.page + e.size)))
    TlbInvalidated s (s.writeTlbinv w) a hit (fun v => w.getLsbD 9 = true ∨ (lo ≤ v ∧ v < lo + size) ∨
      ∃ p ∈ s.tlb, ∃ e ∈ p.2, hit e = true ∧ e.page ≤ v ∧ v < e.page + e.size) := by
  dsimp only
  cases h : w.getLsbD 9
  · rw [s.writeTlbinv_stretch h, State.invalidate]
    exact s.dropUnder_invalidates (fun e => by simp) (fun v => by simp)
  · rw [s.writeTlbinv_context h]
    exact s.dropUnder_invalidates (fun e => by simp) (fun v => by simp)

/-! ## Firmware's values and the mailbox (R388, R389) -/

/-- What a finished walk may change of the dispatcher: the error log and the bridge's pending failure. -/
def SameButLog (d e : Dispatcher) : Prop :=
  e = { d with log := e.log, logDropped := e.logDropped, hostFail := e.hostFail }

theorem SameButLog.trans {d e f : Dispatcher} (h : SameButLog d e) (g : SameButLog e f) : SameButLog d f := by
  unfold SameButLog at h g ⊢
  rw [g, h]

theorem logEntry_dsp (s : State) (kind asid : Nat) (seq : BitVec 32) (a d : Word) :
    SameButLog s.dsp (s.logEntry kind asid seq a d).dsp := by
  unfold State.logEntry
  split <;> rfl

theorem detectAt_dsp (s : State) (w : Who) (l : Loc) : SameButLog s.dsp (s.detectAt w l).dsp := by
  unfold State.detectAt State.detect
  split
  · rfl
  · split
    · rfl
    · split
      · exact logEntry_dsp ..
      · rfl

theorem failHost_dsp (s : State) (l : Loc) (e : BridgeError) : SameButLog s.dsp (s.failHost l e).dsp := by
  unfold State.failHost
  dsimp only
  split
  · split <;> rfl
  · rfl

theorem walkEntry_dsp (s : State) (asid entry : Nat) : SameButLog s.dsp (s.walkEntry asid entry).dsp := by
  unfold State.walkEntry State.afterWalk
  dsimp only
  split
  · rfl
  · have h := detectAt_dsp s ⟨none, 0, asid, 0, 0, 0, false, none, .walk, none⟩ (.pa ‹Nat›)
    split
    · exact h.trans (failHost_dsp ..)
    · exact h
  · rfl

/-- What every value of firmware keeps: teams, the interrupts' registers, and the bounds of the floors, the lease and the fused
versions (R118, R229, R382, R388). -/
structure FirmwareKeeps (s t : State) : Prop where
  teams : t.teams = s.teams
  mbstat : t.dsp.mbstat = s.dsp.mbstat
  messages : t.dsp.messages = s.dsp.messages
  pending : t.dsp.msixPending = s.dsp.msixPending
  mask : t.dsp.msixMask = s.dsp.msixMask
  function : t.dsp.msixFunction = s.dsp.msixFunction
  floors : floorSum s.dsp.policy ≤ 5120 → floorSum t.dsp.policy ≤ 5120
  lease : 16 ≤ s.dsp.lease ∧ s.dsp.lease ≤ 4096 → 16 ≤ t.dsp.lease ∧ t.dsp.lease ≤ 4096
  minima : ∀ k, (SMap.get 0 s.fw.minima k).toNat ≤ (SMap.get 0 t.fw.minima k).toNat

theorem FirmwareKeeps.refl (s : State) : FirmwareKeeps s s := ⟨rfl, rfl, rfl, rfl, rfl, rfl, id, id, fun _ => Nat.le_refl _⟩

theorem FirmwareKeeps.trans {s t u : State} (h : FirmwareKeeps s t) (g : FirmwareKeeps t u) : FirmwareKeeps s u where
  teams := g.teams.trans h.teams
  mbstat := g.mbstat.trans h.mbstat
  messages := g.messages.trans h.messages
  pending := g.pending.trans h.pending
  mask := g.mask.trans h.mask
  function := g.function.trans h.function
  floors := g.floors ∘ h.floors
  lease := g.lease ∘ h.lease
  minima k := Nat.le_trans (h.minima k) (g.minima k)

/-- A change of nothing that a statement about firmware speaks of. -/
theorem FirmwareKeeps.of_same {s t : State} (hteams : t.teams = s.teams) (hfw : t.fw = s.fw)
    (hdsp : (t.dsp.mbstat, t.dsp.messages, t.dsp.msixPending, t.dsp.msixMask, t.dsp.msixFunction, t.dsp.policy, t.dsp.lease) =
      (s.dsp.mbstat, s.dsp.messages, s.dsp.msixPending, s.dsp.msixMask, s.dsp.msixFunction, s.dsp.policy, s.dsp.lease)) :
    FirmwareKeeps s t := by
  simp only [Prod.mk.injEq] at hdsp
  obtain ⟨hstat, hmsg, hpend, hmask, hfun, hpol, hlease⟩ := hdsp
  exact ⟨hteams, hstat, hmsg, hpend, hmask, hfun, fun h => hpol ▸ h, fun h => hlease ▸ h, fun k => hfw ▸ Nat.le_refl _⟩

theorem walkEntry_keeps (s : State) (asid entry : Nat) : FirmwareKeeps s (s.walkEntry asid entry) := by
  have hd := walkEntry_dsp s asid entry
  obtain ⟨_, _, _, _, _, dsp, _, h⟩ := walkEntry_only s asid entry
  rw [h] at hd ⊢
  refine .of_same rfl rfl ?_
  rw [show dsp = _ from hd]

theorem moveIn_keeps (s : State) (a entry first : Nat) (l : Launch) (cw : CompWord) (st : Option (CtxRecord × List Word)) :
    FirmwareKeeps s (s.moveIn a entry first l cw st) := by
  unfold State.moveIn
  split
  · exact walkEntry_keeps ..
  · exact (walkEntry_keeps s a entry).trans (.of_same rfl rfl rfl)

/-- A value is taken within its bounds, or not at all (R388). -/
theorem setFirmware_keeps (s : State) (x : FwSet) : FirmwareKeeps s (s.setFirmware x) := by
  cases x with
  | policy c p =>
    simp only [State.setFirmware]
    split
    next h => exact ⟨rfl, rfl, rfl, rfl, rfl, rfl, fun _ => h.2.1, id, fun _ => Nat.le_refl _⟩
    next => exact .refl s
  | lease n =>
    simp only [State.setFirmware]
    split
    next h => exact ⟨rfl, rfl, rfl, rfl, rfl, rfl, id, fun _ => h, fun _ => Nat.le_refl _⟩
    next => exact .refl s
  | minimum k v =>
    simp only [State.setFirmware]
    split
    next h =>
      refine ⟨rfl, rfl, rfl, rfl, rfl, rfl, id, id, fun j => ?_⟩
      simp only [SMap.get_set]
      split
      next e => exact e ▸ h
      next => exact Nat.le_refl _
    next => exact .refl s
  | moveGrid a entry first l cw st => exact moveIn_keeps ..
  | _ =>
    simp only [State.setFirmware]
    repeat' split
    all_goals exact .of_same rfl rfl rfl

/-- Vector 0 carries the completion of a request (R116, R389). -/
theorem State.requestDone_eq (s : State) :
    s.requestDone = { s with dsp := { s.dsp with
      mbstat := s.dsp.mbstat + 1
      messages := if s.dsp.masked 0 then s.dsp.messages else 0 :: s.dsp.messages
      msixPending := if s.dsp.masked 0 then s.dsp.msixPending ||| 1 else s.dsp.msixPending } } := by
  have hm : ({ s.dsp with mbstat := s.dsp.mbstat + 1 } : Dispatcher).masked 0 = s.dsp.masked 0 := rfl
  simp only [State.requestDone, State.sendMsi, hm]
  cases s.dsp.masked 0 <;> rfl

theorem foldl_setFirmware_keeps (s : State) (l : List FwSet) : FirmwareKeeps s (l.foldl State.setFirmware s) :=
  l.foldlRecOn _ (.refl s) fun _ h x _ => h.trans (setFirmware_keeps _ x)

theorem FirmwareKeeps.masked {s t : State} (h : FirmwareKeeps s t) (v : Nat) : t.dsp.masked v = s.dsp.masked v := by
  rw [Dispatcher.masked, Dispatcher.masked, h.function, h.mask]

/-- A lease within its bounds is taken (R229, R388). -/
theorem setFirmware_lease (s : State) {n : Nat} (hlo : 16 ≤ n) (hhi : n ≤ 4096) :
    (s.setFirmware (.lease n)).dsp.lease = n := by
  simp [State.setFirmware, hlo, hhi]

/-- A request that is served (R116, R388, R389). -/
theorem State.serveRequest_spec (s : State) (l : List FwSet) :
    let t := s.serveRequest l
    t.mem = s.mem ∧ t.teams = s.teams ∧ t.dsp.mbstat = s.dsp.mbstat + 1 ∧
      t.dsp.messages = (if s.dsp.masked 0 then s.dsp.messages else 0 :: s.dsp.messages) ∧
      t.dsp.msixPending = (if s.dsp.masked 0 then s.dsp.msixPending ||| 1 else s.dsp.msixPending) ∧
      (floorSum s.dsp.policy ≤ 5120 → floorSum t.dsp.policy ≤ 5120) ∧
      (16 ≤ s.dsp.lease ∧ s.dsp.lease ≤ 4096 → 16 ≤ t.dsp.lease ∧ t.dsp.lease ≤ 4096) ∧
      (∀ k, (SMap.get 0 s.fw.minima k).toNat ≤ (SMap.get 0 t.fw.minima k).toNat) ∧
      (∀ n, l = [.lease n] → 16 ≤ n → n ≤ 4096 → t.dsp.lease = n) := by
  have h := foldl_setFirmware_keeps s l
  refine ⟨s.serveRequest_mem l, ?_⟩
  simp only [State.serveRequest, State.requestDone_eq, h.masked]
  refine ⟨h.teams, congrArg (· + 1) h.mbstat, ?_, ?_, h.floors, h.lease, h.minima, ?_⟩
  · rw [h.messages]
  · rw [h.pending]
  · rintro n rfl hlo hhi
    exact setFirmware_lease s hlo hhi

/-! ## Stores of the host (R202, R240) -/

/-- A run that crosses no page is one stretch. -/
theorem cutPages_one {fuel va n : Nat} (hn : n ≠ 0) (hp : va % 4096 + n ≤ 4096) : cutPages (fuel + 2) va n = [(va, n)] := by
  have hm : Nat.min n (4096 - va % 4096) = n := Nat.min_eq_left (by omega)
  simp [cutPages, hn, hm]

/-- What a store leaves of a state that later pieces of it go by: the pending bridge failure, and where every place is reached. -/
structure SameReach (s t : State) : Prop where
  mem : t.mem = s.mem
  teams : t.teams = s.teams
  hostFail : t.dsp.hostFail = s.dsp.hostFail
  reach : ∀ l, t.reach l = s.reach l

theorem SameReach.refl (s : State) : SameReach s s := ⟨rfl, rfl, rfl, fun _ => rfl⟩

theorem SameReach.trans {s t u : State} (h : SameReach s t) (g : SameReach t u) : SameReach s u :=
  ⟨g.mem.trans h.mem, g.teams.trans h.teams, g.hostFail.trans h.hostFail, fun l => (g.reach l).trans (h.reach l)⟩

/-- Where a place is reached depends on the indirection table alone. -/
theorem reach_congr {s t : State} (h : t.frames = s.frames) (l : Loc) : t.reach l = s.reach l := by
  cases l with
  | spad => rfl
  | pa a =>
    unfold State.reach State.reachPa State.frame
    rw [h]

theorem SameReach.of_frames {s t : State} (hm : t.mem = s.mem) (ht : t.teams = s.teams)
    (hf : t.dsp.hostFail = s.dsp.hostFail) (h : t.frames = s.frames) : SameReach s t :=
  ⟨hm, ht, hf, reach_congr h⟩

/-- A count of an access keeps the entry's LOC and LOCATION while ACC has not saturated (R320, R324). -/
theorem entry_count {e : Word} (h : entryAcc e ≠ 4095) : entryLoc (e + 1) = entryLoc e ∧ entryLocation (e + 1) = entryLocation e := by
  have he : e.toNat < 2 ^ 64 := e.isLt
  have hsum : (e + 1).toNat = e.toNat + 1 := by
    rw [BitVec.toNat_add]
    simp only [entryAcc] at h
    simp
    omega
  simp only [entryAcc, entryLoc, entryLocation, hsum] at h ⊢
  omega

/-- A frame's entry with the same LOC and LOCATION reaches the same places. -/
theorem reach_setFrame (s : State) {f : Nat} {e : Word} (hl : entryLoc e = entryLoc (s.frame f))
    (hx : entryLocation e = entryLocation (s.frame f)) (l : Loc) : (s.setFrame f e).reach l = s.reach l := by
  cases l with
  | spad => rfl
  | pa a =>
    simp only [State.reach, State.reachPa, State.setFrame_frame]
    by_cases h : a / 4096 = f
    · simp only [h, if_true, hl, hx]
    · simp only [h, if_false]

theorem countAcc_sameReach (s : State) (l : Loc) : SameReach s (s.countAcc l) := by
  unfold State.countAcc
  cases l with
  | spad => exact .refl s
  | pa a =>
    dsimp only
    split
    · split
      · exact .refl s
      · next hacc =>
        obtain ⟨hl, hx⟩ := entry_count hacc
        have h : SameReach s (s.setFrame (a / 4096) (s.frame (a / 4096) + 1)) := ⟨rfl, rfl, rfl, reach_setFrame s hl hx⟩
        split
        · exact h.trans (.of_frames rfl rfl rfl rfl)
        · exact h
    · exact .refl s

theorem raisePts_sameReach (s : State) (w : Who) (ts : Nat) : SameReach s (s.raisePts w ts) := by
  unfold State.raisePts
  split
  · exact .of_frames rfl rfl rfl rfl
  · exact .of_frames rfl rfl rfl rfl
  · exact .refl s

theorem setLine_sameReach (s : State) (k : Nat) (x : LineState) : SameReach s (s.setLine k x) := .of_frames rfl rfl rfl rfl

theorem touchStore_sameReach (s : State) (w : Who) (l : Loc) : SameReach s (s.touchStore w l) := by
  unfold State.touchStore
  dsimp only
  split
  · exact countAcc_sameReach ..
  · split
    · exact countAcc_sameReach ..
    · exact ((setLine_sameReach s _ _).trans (raisePts_sameReach ..)).trans (countAcc_sameReach ..)

theorem undoLog_sameReach (s : State) (w : Who) (l : Loc) : SameReach s (s.undoLog w l) := by
  unfold State.undoLog
  dsimp only
  repeat' split
  all_goals exact .of_frames rfl rfl rfl rfl

theorem setTag_sameReach (s : State) (w : Who) (store : Bool) (l : Loc) : SameReach s (s.setTag w store l) := by
  unfold State.setTag
  dsimp only
  repeat' split
  all_goals exact .of_frames rfl rfl rfl rfl

/-- The bytes stand from a location key on, no other byte has changed, and later pieces find what this one found. -/
structure BytesStored (s t : State) (k : Nat) (bs : List Byte) : Prop where
  written : ∀ j b, bs[j]? = some b → t.byte (k + j) = b
  others : OnlyBytes s t k bs.length
  teams : t.teams = s.teams
  hostFail : t.dsp.hostFail = s.dsp.hostFail
  reach : ∀ l, t.reach l = s.reach l

theorem BytesStored.nil (s : State) (k : Nat) : BytesStored s s k [] :=
  ⟨fun _ _ h => by simp at h, fun _ _ => rfl, rfl, rfl, fun _ => rfl⟩

theorem SameReach.byte {s t : State} (h : SameReach s t) (a : Nat) : t.byte a = s.byte a := by
  rw [State.byte, State.byte, h.mem]

theorem putBytes_stored (s : State) (k : Nat) (bs : List Byte) : BytesStored s (s.putBytes k bs) k bs := by
  have h := s.putBytes_only k bs
  refine ⟨fun j b hb => State.byte_putBytes hb, fun a ha => State.byte_putBytes_out ha, ?_, ?_, ?_⟩
  · rw [h]
  · rw [h]
  · exact reach_congr (by rw [h])

theorem BytesStored.after {s s' t : State} {k : Nat} {bs : List Byte} (g : SameReach s s') (h : BytesStored s' t k bs) :
    BytesStored s t k bs :=
  ⟨h.written, fun a ha => (h.others a ha).trans (g.byte a), h.teams.trans g.teams, h.hostFail.trans g.hostFail,
    fun l => (h.reach l).trans (g.reach l)⟩

theorem BytesStored.before {s t t' : State} {k : Nat} {bs : List Byte} (h : BytesStored s t k bs) (g : SameReach t t') :
    BytesStored s t' k bs :=
  ⟨fun j b hb => (g.byte _).trans (h.written j b hb), fun a ha => (g.byte a).trans (h.others a ha), g.teams.trans h.teams,
    g.hostFail.trans h.hostFail, fun l => (g.reach l).trans (h.reach l)⟩

/-- Two stores of adjacent stretches are one. -/
theorem BytesStored.append {s t u : State} {k : Nat} {bs cs : List Byte} (h : BytesStored s t k bs)
    (g : BytesStored t u (k + bs.length) cs) : BytesStored s u k (bs ++ cs) := by
  refine ⟨fun j b hb => ?_, fun a ha => ?_, g.teams.trans h.teams, g.hostFail.trans h.hostFail,
    fun l => (g.reach l).trans (h.reach l)⟩
  · by_cases hj : j < bs.length
    · rw [g.others _ (.inl (by omega))]
      exact h.written j b (by rwa [List.getElem?_append_left hj] at hb)
    · rw [List.getElem?_append_right (by omega)] at hb
      rw [show k + j = k + bs.length + (j - bs.length) by omega]
      exact g.written _ b hb
  · rw [List.length_append] at ha
    rw [g.others a (by omega), h.others a (by omega)]

/-- One piece that lies here (R202, R229, R372). -/
theorem storePiece_stored {s : State} {l : Loc} {k : Nat} (w : Who) (bs : List Byte) (hf : s.dsp.hostFail = none)
    (hr : s.reach l = .here k) : BytesStored s (s.storePiece w l bs false false) k bs := by
  have hfault : s.hostFault l true = none := by simp [State.hostFault, hf]
  simp only [State.storePiece, hfault, hr, Bool.false_eq_true, if_false]
  exact ((putBytes_stored _ k bs).before (setTag_sameReach ..)).after
    ((undoLog_sameReach s w l).trans (touchStore_sameReach ..))

@[simp] theorem Loc.plus_plus (l : Loc) (m n : Nat) : (l.plus m).plus n = l.plus (m + n) := by
  cases l <;> simp [Loc.plus, Nat.add_assoc]

@[simp] theorem Loc.plus_zero (l : Loc) : l.plus 0 = l := by
  cases l <;> rfl

/-- A run cut at lines, whose bytes lie here one after another, is stored piece by piece (R202). -/
theorem storeRuns_cutRun_stored (fuel : Nat) {s : State} {l : Loc} {k n : Nat} (w : Who) (done : Nat) {bs : List Byte}
    (hn : n < fuel) (hlen : bs.length = n) (hf : s.dsp.hostFail = none) (hr : ∀ j, j < n → s.reach (l.plus j) = .here (k + j)) :
    BytesStored s (s.storeRuns w done (cutRun fuel 64 l n) bs false false) k bs := by
  induction fuel generalizing s l k n w done bs with
  | zero => omega
  | succ fuel ih =>
    rw [cutRun]
    by_cases h0 : n = 0
    · rw [List.length_eq_zero_iff.1 (hlen.trans h0), if_pos h0]
      exact .nil s k
    · rw [if_neg h0]
      dsimp only
      have hpos : 0 < 64 - l.offset % 64 := by omega
      generalize hm : Nat.min n (64 - l.offset % 64) = m
      have hmn : m ≤ n := hm ▸ Nat.min_le_left ..
      have hm0 : 0 < m := hm ▸ Nat.lt_min.2 ⟨by omega, hpos⟩
      have htake : (bs.take m).length = m := by simp [hlen, hmn]
      have hfirst : BytesStored s (s.storePiece w l (bs.take m) false false) k (bs.take m) :=
        storePiece_stored w _ hf (by simpa using hr 0 (by omega))
      have hrest := ih (s := s.storePiece w l (bs.take m) false false) (l := l.plus m) (k := k + m) (n := n - m)
        (bs := bs.drop m) (w.plus m) (done + m) (by omega) (by simp [hlen]) (hfirst.hostFail.trans hf)
        (fun j hj => by rw [hfirst.reach, Loc.plus_plus, hr _ (by omega), Nat.add_assoc])
      have h := hfirst.append (by rwa [htake])
      rwa [List.take_append_drop] at h

/-- The bytes of a page of a frame that lies here lie one after another (R320). -/
theorem reach_in_page {s : State} {a k j : Nat} (ha : isFramePa a = true) (hj : a % 4096 + j < 4096)
    (h : s.reach (.pa a) = .here k) : s.reach ((Loc.pa a).plus j) = .here (k + j) := by
  have hlt : a < 2 ^ 42 := by simpa [isFramePa] using ha
  have hframe : isFramePa (a + j) = true := by simp [isFramePa]; omega
  have hhost : isHostPa a = false := by simp [isHostPa]; omega
  have hhost' : isHostPa (a + j) = false := by simp [isHostPa]; omega
  have hdiv : (a + j) / 4096 = a / 4096 := by omega
  have hmod : (a + j) % 4096 = a % 4096 + j := by omega
  simp only [State.reach, Loc.plus, State.reachPa, ha, hframe, hhost, hhost', hdiv, hmod, Bool.false_eq_true, if_false, if_true] at h ⊢
  split at h
  · split at h
    · cases h
      simp [*, hbmKey, Nat.add_assoc]
    · cases h
  · split at h
    · cases h
      simp [*, lpddrKey, Nat.add_assoc]
    · cases h
  · cases h
    simp [*, hostKey, Nat.add_assoc]
  all_goals cases h

/-- A store of the host that crosses no page, and waits for nothing, goes on (R235, R240, R327). -/
theorem execHostAccess_of_ready {s : State} {pa : Nat} {bs : List Byte} (ht : s.turn = .event .hostAccess (.natBytes pa bs))
    (hn : bs.length ≠ 0) (hp : pa % 4096 + bs.length ≤ 4096) (hw : s.mustWait 0 true [(.pa pa, bs.length)] = false)
    (hq : ∀ p ∈ linePieces [(Loc.pa pa, bs.length)], s.standsBehind 0 true p.1 = false) :
    execHostAccess s = .next (s.hostStore pa bs) := by
  have hbehind : (linePieces [(Loc.pa pa, bs.length)]).any (fun p => s.standsBehind 0 true p.1) = false := by
    simpa using hq
  simp only [execHostAccess, ht, cutPages_one hn hp, List.map_cons, List.map_nil, hw, hbehind]
  rfl

/-- Host memory that is not lent takes the bytes (R240, R316). -/
theorem hostStore_host {s : State} {pa : Nat} {bs : List Byte} (hn : bs.length ≠ 0) (hp : pa % 4096 + bs.length ≤ 4096)
    (hpa : isHostPa pa = true) (hl : s.lent (pa % 2 ^ 51) = false) :
    s.hostStore pa bs = s.putBytes (hostKey (pa % 2 ^ 51)) bs := by
  simp only [State.hostStore, cutPages_one hn hp, List.foldl_cons, List.foldl_nil, hpa, hl]
  simp

/-- A device frame that lies here takes the bytes line by line (R202, R240). -/
theorem hostStore_frame {s : State} {pa k : Nat} {bs : List Byte} (hn : bs.length ≠ 0) (hp : pa % 4096 + bs.length ≤ 4096)
    (hpa : isFramePa pa = true) (hr : s.reach (.pa pa) = .here k) :
    s.hostStore pa bs = s.storeRuns (dispWho noAsid) 0 (cutRun (bs.length + 1) 64 (.pa pa) bs.length) bs false false := by
  have hlt : pa < 2 ^ 42 := by simpa [isFramePa] using hpa
  have hhost : isHostPa pa = false := by simp [isHostPa]; omega
  have hr' : s.reachPa pa = .here k := hr
  simp [State.hostStore, cutPages_one hn hp, hhost, hr', linePieces]

/-! ## Entries of the indirection table (R320, R321, R323) -/

/-- Firmware's new entry: LOC, PIN and LOCATION of w, MIG and ACC of e (R320). -/
def mergedEntry (e w : Word) : Word :=
  BitVec.ofNat 64 (w.toNat / 2 ^ 61 * 2 ^ 61 + e.toNat / 2 ^ 60 % 2 * 2 ^ 60 + w.toNat / 2 ^ 59 % 2 * 2 ^ 59 +
    w.toNat / 2 ^ 12 % 2 ^ 42 * 2 ^ 12 + e.toNat % 2 ^ 12)

/-- The fields of an entry that is written field by field (R320). -/
theorem entry_of_fields {loc mig pin location acc : Nat} (hloc : loc < 8) (hmig : mig < 2) (hpin : pin < 2)
    (hlocation : location < 2 ^ 42) (hacc : acc < 2 ^ 12) :
    let x := BitVec.ofNat 64 (loc * 2 ^ 61 + mig * 2 ^ 60 + pin * 2 ^ 59 + location * 2 ^ 12 + acc)
    entryLoc x = loc ∧ entryLocation x = location ∧ entryPin x = decide (pin = 1) ∧ entryMig x = decide (mig = 1) ∧
      entryAcc x = acc := by
  have hx : (BitVec.ofNat 64 (loc * 2 ^ 61 + mig * 2 ^ 60 + pin * 2 ^ 59 + location * 2 ^ 12 + acc)).toNat =
      loc * 2 ^ 61 + mig * 2 ^ 60 + pin * 2 ^ 59 + location * 2 ^ 12 + acc := by
    rw [BitVec.toNat_ofNat]
    omega
  simp only [entryLoc, entryLocation, entryPin, entryMig, entryAcc, Nat.testBit_eq_decide_div_mod_eq, hx, decide_eq_decide]
  omega

theorem entry_merged (e w : Word) :
    entryLoc (mergedEntry e w) = entryLoc w ∧ entryLocation (mergedEntry e w) = entryLocation w ∧
      entryPin (mergedEntry e w) = entryPin w ∧ entryMig (mergedEntry e w) = entryMig e ∧
      entryAcc (mergedEntry e w) = entryAcc e := by
  have hw : w.toNat < 2 ^ 64 := w.isLt
  have hpin : entryPin w = decide (w.toNat / 2 ^ 59 % 2 = 1) := Nat.testBit_eq_decide_div_mod_eq
  have hmig : entryMig e = decide (e.toNat / 2 ^ 60 % 2 = 1) := Nat.testBit_eq_decide_div_mod_eq
  rw [hpin, hmig]
  have hloc : w.toNat / 2 ^ 61 < 8 := by omega
  exact entry_of_fields hloc (Nat.mod_lt _ (by decide)) (Nat.mod_lt _ (by decide)) (Nat.mod_lt _ (by decide))
    (Nat.mod_lt _ (by decide))

/-- The entry of a lost frame: LOC 7, the rest as it was (R321). -/
def lostEntry (e : Word) : Word := BitVec.ofNat 64 (e.toNat % 2 ^ 61 + 7 * 2 ^ 61)

theorem entry_lost (e : Word) :
    entryLoc (lostEntry e) = 7 ∧ entryLocation (lostEntry e) = entryLocation e ∧ entryPin (lostEntry e) = entryPin e ∧
      entryMig (lostEntry e) = entryMig e ∧ entryAcc (lostEntry e) = entryAcc e := by
  have he : e.toNat < 2 ^ 64 := e.isLt
  have hx : (lostEntry e).toNat = e.toNat % 2 ^ 61 + 7 * 2 ^ 61 := by
    rw [lostEntry, BitVec.toNat_ofNat]
    omega
  simp only [entryLoc, entryLocation, entryPin, entryMig, entryAcc, Nat.testBit_eq_decide_div_mod_eq, hx, decide_eq_decide]
  omega

/-- Whether an entry names a chip outside the view (R321). -/
def State.away (s : State) (e : Word) : Bool := decide (entryLoc e = 5) && !s.fab.members.contains (entryLocation e / 2 ^ 30)

/-- A map that keeps every element of a list keeps the list. -/
theorem filterMap_eq_self {α : Type} {f : α → Option α} {l : List α} (h : ∀ x ∈ l, f x = some x) : l.filterMap f = l := by
  induction l with
  | nil => rfl
  | cons x l ih =>
    rw [List.filterMap_cons_some (h x List.mem_cons_self), ih fun y hy => h y (List.mem_cons_of_mem x hy)]

/-- Where no forwarded access waits for a chip outside the view, none ends (R323). -/
theorem State.endForwards_none {s : State} (h : ∀ x ∈ s.fab.fwd, x.reply.isSome = true ∨ x.chip ∈ s.fab.members) :
    s.endForwards = s := by
  have hout : ∀ x ∈ s.fab.fwd, (x.reply.isNone && !s.fab.members.contains x.chip) = false := fun x hx => by
    rcases h x hx with h | h
    · simp [Option.isNone_eq_false_iff.2 h]
    · simp [h]
  have hlost : s.fab.fwd.filter (fun x => x.reply.isNone && !s.fab.members.contains x.chip && x.write && !s.isFlight x) = [] :=
    List.filter_eq_nil_iff.2 fun x hx => by
      simp only [hout x hx, Bool.false_and, Bool.false_eq_true, not_false_iff]
  have hkept : s.fab.fwd.filterMap
      (fun x => if x.reply.isNone && !s.fab.members.contains x.chip then x.ended else some x) = s.fab.fwd :=
    filterMap_eq_self fun x hx => by simp only [hout x hx, Bool.false_eq_true, if_false]
  simp only [State.endForwards, hlost, List.foldl_nil, hkept]

/-- The table once the frames of chips outside the view are lost (R321). -/
def State.keptFrames (s : State) : SMap Word := SMap.mapV 0 s.frames (fun _ e => if s.away e then lostEntry e else e)

theorem State.loseFrames_eq {s : State} (h : ∀ x ∈ s.fab.fwd, x.reply.isSome = true ∨ x.chip ∈ s.fab.members) :
    s.loseFrames = { s with frames := s.keptFrames } := by
  have hk : (fun (_ : Nat) (e : Word) => if entryLoc e = 5 ∧ s.fab.members.contains (entryLocation e / 2 ^ 30) = false then
      BitVec.ofNat 64 (e.toNat % 2 ^ 61 + 7 * 2 ^ 61) else e) = fun _ e => if s.away e then lostEntry e else e := by
    funext _ e
    simp [State.away, lostEntry]
  rw [State.loseFrames, hk]
  exact State.endForwards_none (s := { s with frames := s.keptFrames }) h

theorem State.get_keptFrames (s : State) (g : Nat) :
    SMap.get 0 s.keptFrames g = if s.away (s.frame g) then lostEntry (s.frame g) else s.frame g :=
  SMap.get_mapV s.frames (fun _ e => if s.away e then lostEntry e else e) g rfl

/-- A write of an entry, with the loss of frames that goes with it (R320, R321). -/
theorem State.loseFrames_setFrame {s t : State} {f : Nat} {e : Word} (ht : t = (s.setFrame f e).loseFrames)
    (h : ∀ x ∈ s.fab.fwd, x.reply.isSome = true ∨ x.chip ∈ s.fab.members) :
    t = { s with frames := t.frames } ∧ t.frame f = (if s.away e then lostEntry e else e) ∧
      ∀ g, g ≠ f → t.frame g = if s.away (s.frame g) then lostEntry (s.frame g) else s.frame g := by
  rw [State.loseFrames_eq (s := s.setFrame f e) h] at ht
  have hget (g : Nat) : t.frame g = SMap.get 0 (s.setFrame f e).keptFrames g := by rw [ht]; rfl
  refine ⟨by rw [ht]; rfl, ?_, fun g hg => ?_⟩
  · have hf := (s.setFrame f e).get_keptFrames f
    rw [State.setFrame_frame, if_pos rfl] at hf
    exact (hget f).trans hf
  · have hg' := (s.setFrame f e).get_keptFrames g
    rw [State.setFrame_frame, if_neg hg] at hg'
    exact (hget g).trans hg'

theorem execIndirectionEntryWrite_eq {s : State} {f : Nat} {w : Word} (hf : f < 2 ^ 30)
    (ht : s.turn = .event .indirectionEntryWrite (.natWord f w)) :
    execIndirectionEntryWrite s = .next (s.setFrame f (mergedEntry (s.frame f) w)).loseFrames := by
  simp only [execIndirectionEntryWrite, ht, hf, if_true]
  rfl

/-- The entry that firmware writes: LOC, PIN and LOCATION of the word, MIG and ACC as they were, or lost (R320, R321). -/
theorem entry_written (s : State) (e w : Word) :
    let x := if s.away (mergedEntry e w) then lostEntry (mergedEntry e w) else mergedEntry e w
    entryLoc x = (if s.away w then 7 else entryLoc w) ∧ entryLocation x = entryLocation w ∧ entryPin x = entryPin w ∧
      entryMig x = entryMig e ∧ entryAcc x = entryAcc e := by
  obtain ⟨hloc, hlocation, hpin, hmig, hacc⟩ := entry_merged e w
  obtain ⟨lloc, llocation, lpin, lmig, lacc⟩ := entry_lost (mergedEntry e w)
  have haway : s.away (mergedEntry e w) = s.away w := by simp only [State.away, hloc, hlocation]
  rw [haway]
  cases s.away w
  · exact ⟨hloc, hlocation, hpin, hmig, hacc⟩
  · exact ⟨lloc, llocation.trans hlocation, lpin.trans hpin, lmig.trans hmig, lacc.trans hacc⟩

/-! ## Launch frames (R119) -/

/-- Whether a record that comes through a port for a class joins its queue (R114, R119). -/
def State.takesRecord (s : State) (port cls : Nat) (bs : List Byte) : Bool :=
  let p : Packet := dwords 8 bs
  decide (p.kind = 1) && !s.noContext p.asid && !p.malformed (s.portRights port cls) && (s.packetLaunch p).isSome

/-- A record that is not taken is counted as a drop (R119). -/
theorem State.portRecord_dropped {s : State} {port cls : Nat} {bs : List Byte} (h : s.takesRecord port cls bs = false) :
    s.portRecord port cls bs = s.countDrop port := by
  refine if_pos (Classical.byContradiction fun hn => ?_)
  simp only [not_or, Decidable.not_not, Bool.not_eq_true, Option.isNone_eq_false_iff] at hn
  obtain ⟨hkind, hctx, hform, hlaunch⟩ := hn
  simp [State.takesRecord, hkind, hctx, hform, hlaunch] at h

/-- A record that is taken joins its class's queue (R119). -/
theorem State.portRecord_taken {s : State} {port cls : Nat} {bs : List Byte} (h : s.takesRecord port cls bs = true) :
    s.portRecord port cls bs = s.setPort cls { s.port cls with recs := (s.port cls).recs ++ [(port, bs)] } := by
  refine if_neg ?_
  simp only [State.takesRecord, Bool.and_eq_true, decide_eq_true_eq, Bool.not_eq_true'] at h
  obtain ⟨⟨⟨hkind, hctx⟩, hform⟩, hlaunch⟩ := h
  simp only [not_or, Decidable.not_not, Bool.not_eq_true, Option.isNone_eq_false_iff]
  exact ⟨hkind, hctx, hform, hlaunch⟩

/-- What records of a port for a class may change: that port's drops and that class's queue, which keeps its ASID; `taken` have
joined the queue, and `dropped` were counted (R119). -/
structure RecordsTaken (s t : State) (port cls : Nat) (taken : List (Nat × List Byte)) (dropped : Nat) : Prop where
  only : t = { s with dsp := { s.dsp with ports := t.dsp.ports, drops := t.dsp.drops } }
  drops : SMap.get 0 t.dsp.drops port = SMap.get 0 s.dsp.drops port + dropped
  otherDrops : ∀ n, n ≠ port → SMap.get 0 t.dsp.drops n = SMap.get 0 s.dsp.drops n
  queue : t.port cls = { s.port cls with recs := (s.port cls).recs ++ taken }
  otherQueues : ∀ n, n ≠ cls → t.port n = s.port n

theorem RecordsTaken.refl (s : State) (port cls : Nat) : RecordsTaken s s port cls [] 0 :=
  ⟨rfl, rfl, fun _ _ => rfl, by simp, fun _ _ => rfl⟩

theorem RecordsTaken.trans {s t u : State} {port cls : Nat} {xs ys : List (Nat × List Byte)} {m n : Nat}
    (h : RecordsTaken s t port cls xs m) (g : RecordsTaken t u port cls ys n) :
    RecordsTaken s u port cls (xs ++ ys) (m + n) where
  only := by
    have hu := g.only
    rw [h.only] at hu
    exact hu
  drops := by rw [g.drops, h.drops, Nat.add_assoc]
  otherDrops k hk := (g.otherDrops k hk).trans (h.otherDrops k hk)
  queue := by rw [g.queue, h.queue, List.append_assoc]
  otherQueues k hk := (g.otherQueues k hk).trans (h.otherQueues k hk)

/-- Records that came before change nothing by which a record is judged. -/
theorem RecordsTaken.takesRecord {s t : State} {port cls : Nat} {xs : List (Nat × List Byte)} {m : Nat}
    (h : RecordsTaken s t port cls xs m) (bs : List Byte) : t.takesRecord port cls bs = s.takesRecord port cls bs := by
  have hrights : t.portRights port cls = s.portRights port cls := by rw [State.portRights, State.portRights, h.queue]
  have hctx (a : Nat) : t.noContext a = s.noContext a := by rw [h.only]; rfl
  have hlaunch (p : Packet) : t.packetLaunch p = s.packetLaunch p := by rw [h.only]; rfl
  simp only [State.takesRecord, hrights, hctx, hlaunch]

theorem countDrop_records (s : State) (port cls : Nat) : RecordsTaken s (s.countDrop port) port cls [] 1 where
  only := rfl
  drops := by simp [State.countDrop]
  otherDrops n hn := by simp [State.countDrop, hn]
  queue := by simp [State.countDrop, State.port]
  otherQueues _ _ := rfl

theorem portRecord_records (s : State) (port cls : Nat) (bs : List Byte) :
    RecordsTaken s (s.portRecord port cls bs) port cls (if s.takesRecord port cls bs then [(port, bs)] else [])
      (if s.takesRecord port cls bs then 0 else 1) := by
  cases h : s.takesRecord port cls bs
  · rw [State.portRecord_dropped h]
    exact countDrop_records ..
  · rw [State.portRecord_taken h]
    exact ⟨rfl, rfl, fun _ _ => rfl, by simp [State.setPort, State.port], fun n hn => by simp [State.setPort, State.port, hn]⟩

/-- The records of a frame, one after another: those that are well formed join the queue in order (R119). -/
theorem foldl_portRecord_records (s : State) (port cls : Nat) (recs : List (List Byte)) :
    RecordsTaken s (recs.foldl (fun s bs => s.portRecord port cls bs) s) port cls
      ((recs.filter (s.takesRecord port cls)).map (fun bs => (port, bs))) (recs.filter (fun bs => !s.takesRecord port cls bs)).length := by
  induction recs generalizing s with
  | nil => exact .refl s port cls
  | cons bs recs ih =>
    have hbs := portRecord_records s port cls bs
    have hrest := ih (s.portRecord port cls bs)
    simp only [funext hbs.takesRecord] at hrest
    have h := hbs.trans hrest
    cases hgood : s.takesRecord port cls bs <;> simpa [hgood, Nat.add_comm] using h

/-- The records of a frame's payload (R119). -/
def frameRecords (payload : List Byte) : List (List Byte) :=
  (List.range (leNat (payload.take 8) / 2 ^ 16 % 256)).map (fun i => (payload.drop (8 + 64 * i)).take 64)

/-- A frame that is taken brings its records, in order (R119). -/
theorem execEthernetFrame_ok {s : State} {port : Nat} {f : EthFrame} (hp : port < 2)
    (ht : s.turn = .event .ethernetFrame (.frame port f)) (hok : s.frameOk port f = true) :
    execEthernetFrame s = .next ((frameRecords f.payload).foldl
      (fun s bs => s.portRecord port (leNat (f.payload.take 8) / 2 ^ 8 % 32) bs) s) := by
  simp only [execEthernetFrame, ht, hp, hok, if_true, frameRecords, List.foldl_map]

/-- A frame that is not taken is one drop (R119). -/
theorem execEthernetFrame_bad {s : State} {port : Nat} {f : EthFrame} (hp : port < 2)
    (ht : s.turn = .event .ethernetFrame (.frame port f)) (hok : s.frameOk port f = false) :
    execEthernetFrame s = .next (s.countDrop port) := by
  simp [execEthernetFrame, ht, hp, hok]

end Sys2Proof.Machine

open Sys2Proof.Machine

/-- Settles O49, event by event: the bits of a vector (unmask_eq), the stretch of TLBINV (writeTlbinv_invalidates), the bounds that
every value of firmware keeps (serveRequest_spec), a store of the host to a page (hostStore_host, and line by line
storeRuns_cutRun_stored), an entry and the frames lost with it (loseFrames_setFrame), and the records of a frame in order
(foldl_portRecord_records). -/
theorem deviceAndPortEvents : Obligations.DeviceAndPortEvents := by
  unfold Obligations.DeviceAndPortEvents
  refine ⟨?unmask, ?tlbinv, ?waits, ?serves, ?host, ?frame, ?bridge, ?entry, ?ethernet⟩
  case unmask =>
    intro s v hv ht
    simp only [exec_vectorUnmask, execVectorUnmask, ht, hv, if_true, s.unmask_eq hv]
  case tlbinv =>
    intro s w ht
    exact ⟨s.writeTlbinv w, by simp only [exec_tlbinv, execTlbinv, ht], s.writeTlbinv_invalidates w⟩
  case waits =>
    intro s l ht hw
    simp [execMbdoor, State.mailboxWaits, ht, hw]
  case serves =>
    intro s l ht hw
    exact ⟨s.serveRequest l, by simp [execMbdoor, State.mailboxWaits, ht, hw], s.serveRequest_spec l⟩
  case host =>
    intro s pa bs ht hpa hbs hp hw hl hq
    have hn : bs.length ≠ 0 := mt List.length_eq_zero_iff.1 hbs
    have h := putBytes_stored s (hostKey (pa % 2 ^ 51)) bs
    refine ⟨_, (execHostAccess_of_ready ht hn hp hw hq).trans (by rw [hostStore_host hn hp hpa hl]), ?_, h.written, h.others⟩
    exact s.putBytes_only _ bs
  case frame =>
    rintro s pa k bs ht hpa ⟨hr, hn, -, hp, hf, -, -⟩ hw hq
    have hn0 : bs.length ≠ 0 := by omega
    change pa % 4096 + bs.length ≤ 4096 at hp
    have h := storeRuns_cutRun_stored (bs.length + 1) (dispWho noAsid) 0 (Nat.lt_succ_self _) rfl hf
      (fun j hj => reach_in_page (j := j) hpa (Nat.lt_of_lt_of_le (Nat.add_lt_add_left hj _) hp) hr)
    refine ⟨_, (execHostAccess_of_ready ht hn0 hp hw hq).trans (by rw [hostStore_frame hn0 hp hpa hr]), h.written, h.others, h.teams⟩
  case bridge =>
    intro s e ht
    simp only [exec_hostBridgeError, execHostBridgeError, ht]
  case entry =>
    intro s f w hf ht h
    obtain ⟨hs, hfirst, hothers⟩ := State.loseFrames_setFrame (s := s) (f := f) (e := mergedEntry (s.frame f) w) rfl h
    obtain ⟨hloc, hlocation, hpin, hmig, hacc⟩ := entry_written s (s.frame f) w
    rw [← hfirst] at hloc hlocation hpin hmig hacc
    refine ⟨_, execIndirectionEntryWrite_eq hf ht, hs, hloc, hlocation, hpin, hmig, hacc, fun g hg => ?_⟩
    change if s.away (s.frame g) then _ else _
    rw [hothers g hg]
    split
    next haway => exact (entry_lost _).1
    next haway => rfl
  case ethernet =>
    intro s port f hp ht
    cases hok : s.frameOk port f
    · have h := countDrop_records s port (leNat (f.payload.take 8) / 2 ^ 8 % 32)
      refine ⟨_, execEthernetFrame_bad hp ht hok, h.only, h.otherDrops, h.otherQueues, ?_⟩
      simp only [Bool.false_eq_true, if_false]
      exact ⟨by simpa using h.queue, h.drops⟩
    · have h := foldl_portRecord_records s port (leNat (f.payload.take 8) / 2 ^ 8 % 32) (frameRecords f.payload)
      exact ⟨_, execEthernetFrame_ok hp ht hok, h.only, h.otherDrops, h.otherQueues, by
        simp only [if_true]
        exact ⟨h.queue, h.drops⟩⟩

end

section
/-! SUPPORT. Stops and waits: what a state keeps when its teams alone change, the lowest of the hits of a clock, the halt of a
cluster, the stop slots of a context, waiting accesses, switches of banks and the end of a release. -/

namespace Sys2Proof.Machine

/-! ## Changes of teams -/

/-- A state that differs from another in its teams alone. -/
def OnlyTeams (s t : State) : Prop := ∃ ts, t = { s with teams := ts }

theorem OnlyTeams.eq {s t : State} (h : OnlyTeams s t) : t = { s with teams := t.teams } := by
  obtain ⟨ts, rfl⟩ := h
  rfl

theorem OnlyTeams.refl (s : State) : OnlyTeams s s := ⟨s.teams, rfl⟩

theorem OnlyTeams.trans {s t u : State} (h : OnlyTeams s t) (g : OnlyTeams t u) : OnlyTeams s u := by
  obtain ⟨ts, rfl⟩ := h
  obtain ⟨us, rfl⟩ := g
  exact ⟨us, rfl⟩

theorem onlyTeams_setTeam (s : State) (k : Nat) (x : Team) : OnlyTeams s (s.setTeam k x) := ⟨_, rfl⟩

theorem OnlyTeams.gridOf {s t : State} (h : OnlyTeams s t) (k : Nat) : t.gridOf k = s.gridOf k := by
  obtain ⟨ts, rfl⟩ := h
  rfl

theorem OnlyTeams.asidOf {s t : State} (h : OnlyTeams s t) (k : Nat) : t.asidOf k = s.asidOf k := by
  rw [State.asidOf, h.gridOf, State.asidOf]

theorem foldl_onlyTeams {α : Type} {f : State → α → State} (hf : ∀ u x, OnlyTeams u (f u x)) (xs : List α) (s : State) :
    OnlyTeams s (xs.foldl f s) := by
  induction xs generalizing s with
  | nil => exact .refl s
  | cons x xs ih => exact (hf s x).trans (ih _)

/-- A value other than the default stands in the list under its key. -/
theorem SMap.mem_of_get_ne {β : Type} {d : β} {m : SMap β} {k : Nat} (h : SMap.get d m k ≠ d) : (k, SMap.get d m k) ∈ m := by
  induction m with
  | nil => exact absurd rfl h
  | cons e m ih =>
    obtain ⟨j, x⟩ := e
    by_cases hj : j = k
    · simp [SMap.get, hj]
    · simp only [SMap.get, if_neg hj] at h ⊢
      exact List.mem_cons_of_mem _ (ih h)

theorem SMap.get_clear {β : Type} (d : β) (m : SMap β) (lo hi k : Nat) :
    SMap.get d (SMap.clear m lo hi) k = if lo ≤ k ∧ k < hi then d else SMap.get d m k := by
  induction m with
  | nil => simp [SMap.clear, SMap.get]
  | cons e m ih =>
    obtain ⟨j, x⟩ := e
    simp only [SMap.clear] at ih ⊢
    by_cases hj : j < lo ∨ hi ≤ j
    · rw [List.filter_cons_of_pos (by simpa using hj)]
      by_cases hk : j = k
      · have : ¬ (lo ≤ k ∧ k < hi) := by omega
        simp [SMap.get, hk, this]
      · simp only [SMap.get, if_neg hk, ih]
    · rw [List.filter_cons_of_neg (by simpa using hj), ih]
      by_cases hk : j = k
      · have : lo ≤ k ∧ k < hi := by omega
        simp [this]
      · simp [SMap.get, hk]

/-! ## The stop of a team (R132) -/

/-- The lowest first part, where the earlier of two equal ones stays. -/
theorem foldl_lowest (xs : List (Nat × Nat)) (h : Nat × Nat) :
    let m := xs.foldl (fun m x => if x.1 < m.1 then x else m) h
    (m = h ∨ m ∈ xs) ∧ m.1 ≤ h.1 ∧ ∀ x ∈ xs, m.1 ≤ x.1 := by
  induction xs generalizing h with
  | nil => simp
  | cons y ys ih =>
    obtain ⟨hmem, hle, hall⟩ := ih (if y.1 < h.1 then y else h)
    simp only [List.foldl_cons, List.mem_cons, forall_eq_or_imp]
    by_cases hy : y.1 < h.1
    · simp only [if_pos hy] at hmem hle hall ⊢
      exact ⟨.inr hmem, by omega, hle, hall⟩
    · simp only [if_neg hy] at hmem hle hall ⊢
      exact ⟨hmem.imp_right .inr, hle, by omega, hall⟩

/-- The hit that a record names is one of the clock's, and none of them is of a lower stream (R132). -/
theorem State.clockHit_spec (s : State) (tk : Nat) (h : Nat × Nat) :
    (s.clockHit tk h = h ∨ ∃ a ∈ s.schedule, s.turnHit tk a = some (s.clockHit tk h)) ∧ (s.clockHit tk h).1 ≤ h.1 ∧
      ∀ a ∈ s.schedule, ∀ x, s.turnHit tk a = some x → (s.clockHit tk h).1 ≤ x.1 := by
  obtain ⟨hmem, hle, hall⟩ := foldl_lowest (s.schedule.filterMap (s.turnHit tk)) h
  exact ⟨hmem.imp_right List.mem_filterMap.1, hle, fun a ha x hx => hall x (List.mem_filterMap.2 ⟨a, ha, hx⟩)⟩

/-- The state of a team once the running ones of a list have left running (R136). -/
def State.haltedSt (s : State) (tks : List Nat) (j : Nat) : TeamState :=
  if j ∈ tks ∧ (s.team j).st = .running then .swapped else (s.team j).st

/-- A running team leaves running. -/
def State.haltTeam (s : State) (tk : Nat) : State :=
  if (s.team tk).st = .running then s.setTeam tk { s.team tk with st := .swapped } else s

theorem State.haltTeam_onlyTeams (s : State) (tk : Nat) : OnlyTeams s (s.haltTeam tk) := by
  unfold State.haltTeam
  split
  · exact onlyTeams_setTeam ..
  · exact .refl s

theorem State.haltTeam_team (s : State) (tk j : Nat) : (s.haltTeam tk).team j = { s.team j with st := s.haltedSt [tk] j } := by
  unfold State.haltTeam State.haltedSt
  by_cases hj : j = tk
  · subst hj
    by_cases hr : (s.team j).st = .running <;> simp [hr]
  · split <;> simp [hj]

theorem foldl_haltTeam_team (tks : List Nat) (s : State) (j : Nat) :
    (tks.foldl State.haltTeam s).team j = { s.team j with st := s.haltedSt tks j } := by
  induction tks generalizing s with
  | nil => simp [State.haltedSt]
  | cons tk tks ih =>
    rw [List.foldl_cons, ih]
    simp only [State.haltedSt, State.haltTeam_team, List.mem_cons, List.not_mem_nil, or_false]
    by_cases hj : j = tk
    · subst hj
      by_cases hr : (s.team j).st = .running <;> simp [hr]
    · simp [hj]

/-- The teams of the cluster of a team. -/
def State.mates (s : State) (tk : Nat) : List Nat :=
  (s.gridOf tk).clusterTeams (keyGrid tk) ((s.gridOf tk).clusterOf (keyIx tk))

/-- A team marked as stopped by a hit: its record waits to be written (R132, R133). -/
def Team.marked (t : Team) (h : Nat × Nat) : Team := { t with stopped := true, stopRec := some (h.2, h.1, t.phases.toNat) }

theorem State.stopTeam_eq (s : State) (tk : Nat) (h : Nat × Nat) :
    s.stopTeam tk h = (s.mates tk).foldl State.haltTeam (s.setTeam tk ((s.team tk).marked h)) := rfl

theorem State.stopTeam_onlyTeams (s : State) (tk : Nat) (h : Nat × Nat) : OnlyTeams s (s.stopTeam tk h) := by
  rw [State.stopTeam_eq]
  exact (onlyTeams_setTeam ..).trans (foldl_onlyTeams State.haltTeam_onlyTeams _ _)

/-- The stopped team is marked, and the running teams of its cluster leave running (R132). -/
theorem State.stopTeam_team (s : State) (tk : Nat) (h : Nat × Nat) (j : Nat) :
    (s.stopTeam tk h).team j =
      { (if j = tk then (s.team tk).marked h else s.team j) with st := s.haltedSt (s.mates tk) j } := by
  rw [State.stopTeam_eq, foldl_haltTeam_team]
  by_cases hj : j = tk
  · subst hj
    simp [State.haltedSt, Team.marked]
  · simp [State.haltedSt, hj]

theorem execBreakpointMatch_slot {s : State} {c p i : Nat} {r : Run} {h : Nat × Nat} (ht : s.turn = .slot c p i)
    (hr : s.headRun c p i = some r) (hh : s.bpHit r.team (s.runStreams r) r.pc = some h) :
    execBreakpointMatch s = .next (s.stopTeam r.team (s.clockHit r.team h)) := by
  simp only [execBreakpointMatch, ht, hr, hh]

theorem execBreakpointMatch_seq {s : State} {tk : Nat} {h : Nat × Nat} (ht : s.turn = .seq tk) (hi : s.seqIssues tk = true)
    (hh : s.bpHit tk [0] (s.team tk).seq.pc = some h) :
    execBreakpointMatch s = .next (s.stopTeam tk (s.clockHit tk h)) := by
  simp only [execBreakpointMatch, ht, hi, hh, if_true]

/-! ## Stop slots (R133, R134) -/

/-- A team whose stop slot was cleared (R134). -/
def Team.freed (t : Team) (l : Launch) : Team :=
  { t with stopped := false, stopSlot := none, bpPass := List.range (1 + l.lanes / l.width) }

theorem State.freeStopped_onlyTeams (s : State) (a addr : Nat) : OnlyTeams s (s.freeStopped a addr) := ⟨_, rfl⟩

theorem State.freeStopped_team (s : State) (a addr tk : Nat) :
    (s.freeStopped a addr).team tk =
      if (s.team tk).stopSlot = some addr ∧ s.asidOf tk = a then (s.team tk).freed (s.gridOf tk).launch else s.team tk := by
  rw [State.team, State.freeStopped, SMap.get_mapV]
  · rfl
  · exact if_neg (fun h => Option.some_ne_none addr h.1.symm)

/-- Slots freed one after another: the teams that hold one of them are freed. -/
theorem foldl_freeStopped_team (a : Nat) (xs : List Nat) (s : State) (tk : Nat) :
    (xs.foldl (fun u x => State.freeStopped u a x) s).team tk =
      if s.asidOf tk = a ∧ ∃ x ∈ xs, (s.team tk).stopSlot = some x then (s.team tk).freed (s.gridOf tk).launch
      else s.team tk := by
  induction xs generalizing s with
  | nil => simp
  | cons x xs ih =>
    have hk := s.freeStopped_onlyTeams a x
    rw [List.foldl_cons, ih, hk.asidOf, hk.gridOf, s.freeStopped_team]
    by_cases ha : s.asidOf tk = a
    · by_cases hx : (s.team tk).stopSlot = some x
      · simp [ha, hx, Team.freed]
      · simp [ha, hx]
    · simp [ha]

/-- Insertions one after another gather what is inserted. -/
theorem mem_foldl_insert {α : Type} {f : List α → α → List α} (hf : ∀ l x z, z ∈ f l x ↔ z = x ∨ z ∈ l) (xs l : List α) (z : α) :
    z ∈ xs.foldl f l ↔ z ∈ xs ∨ z ∈ l := by
  induction xs generalizing l with
  | nil => simp
  | cons x xs ih => rw [List.foldl_cons, ih, hf, List.mem_cons, or_left_comm, or_assoc]

theorem State.mem_unrecorded {s : State} {a tk : Nat} :
    tk ∈ s.unrecorded a ↔
      (s.team tk).stopRec.isSome ∧ (s.team tk).slots = [] ∧ (s.team tk).st = .swapped ∧ s.asidOf tk = a := by
  have hkey : (s.team tk).stopRec.isSome → tk ∈ s.teams.map (·.1) := fun hs =>
    List.mem_map_of_mem (f := (·.1)) (SMap.mem_of_get_ne (d := {}) (m := s.teams) (k := tk) (fun he => by
      rw [State.team, he] at hs
      exact absurd hs (by decide)))
  unfold State.unrecorded
  rw [mem_foldl_insert]
  · simp only [List.mem_filter, List.not_mem_nil, or_false, Bool.and_eq_true, decide_eq_true_eq, List.isEmpty_iff]
    exact ⟨fun ⟨_, ⟨hrec, hslots⟩, hrest⟩ => ⟨hrec, hslots, hrest⟩, fun ⟨hrec, hslots, hrest⟩ => ⟨hkey hrec, ⟨hrec, hslots⟩, hrest⟩⟩
  · intro l x z
    simp only [List.mem_append, List.mem_filter, List.mem_cons, decide_eq_true_eq]
    constructor
    · rintro (⟨hz, -⟩ | hz | ⟨hz, -⟩)
      · exact .inr hz
      · exact .inl hz
      · exact .inr hz
    · rintro (hz | hz)
      · exact .inr (.inl hz)
      · exact (Nat.lt_or_ge (keyIx x) (keyIx z)).elim (fun hlt => .inr (.inr ⟨hz, hlt⟩)) (fun hge => .inl ⟨hz, hge⟩)

/-- Freeing stop slots adds no record that waits. -/
theorem unrecorded_foldl_freeStopped {s : State} {a : Nat} (xs : List Nat) (h : s.unrecorded a = []) :
    (xs.foldl (fun u x => State.freeStopped u a x) s).unrecorded a = [] := by
  have hk := foldl_onlyTeams (fun (u : State) x => u.freeStopped_onlyTeams a x) xs s
  rw [List.eq_nil_iff_forall_not_mem] at h ⊢
  intro tk htk
  rw [State.mem_unrecorded, hk.asidOf, foldl_freeStopped_team] at htk
  refine h tk (State.mem_unrecorded.2 ?_)
  split at htk <;> exact htk

/-- A scan with no record to write frees the teams whose slots were cleared. -/
theorem State.scanStops_of_recorded {s : State} {a : Nat} (h : s.unrecorded a = []) :
    s.scanStops a = (s.clearedStops a).foldl (fun u x => State.freeStopped u a x) s := by
  unfold State.scanStops
  dsimp only
  rw [unrecorded_foldl_freeStopped _ h]
  rfl

/-- A scan with no slot cleared and one record to write. -/
theorem State.scanStops_single {s : State} {a tk : Nat} (hc : s.clearedStops a = []) (hu : s.unrecorded a = [tk]) :
    s.scanStops a = s.writeStop tk := by
  simp only [State.scanStops, hc, List.foldl_nil, hu, List.foldl_cons]

/-- A slot that a team holds and whose word is zero is found by the scan, whoever stored it. -/
theorem State.mem_clearedStops {s : State} {a tk x : Nat} (hx : (s.team tk).stopSlot = some x) (ha : s.asidOf tk = a)
    (hw : s.stopWord a x = .ok 0) : x ∈ s.clearedStops a := by
  have hmem : (tk, s.team tk) ∈ s.teams := SMap.mem_of_get_ne (fun he => by
    rw [State.team, he] at hx
    exact nomatch hx)
  simp only [State.clearedStops, List.mem_filter, List.mem_eraseDups, List.mem_filterMap, decide_eq_true_eq]
  exact ⟨⟨_, hmem, by rw [if_pos ha, hx]⟩, hw⟩

/-- The slot that is free is one of the sixteen, and its VALID bit is 0 (R133). -/
theorem State.freeStopSlot_spec {s : State} {a i : Nat} (h : s.freeStopSlot a = some i) :
    i < 16 ∧ ∀ w, s.stopWord a (s.stopAddr a i) = .ok w → w.testBit 63 = false := by
  unfold State.freeStopSlot at h
  split at h
  · exact nomatch h
  next j hj =>
    have hij : j = i := by
      split at h
      · exact nomatch h
      · exact Option.some.inj h
    subst hij
    refine ⟨List.mem_range.1 (List.mem_of_find?_eq_some hj), fun w hw => ?_⟩
    have hfree := List.find?_some hj
    simpa [hw] using hfree

theorem State.writeStop_of_full {s : State} {tk : Nat} (h : s.freeStopSlot (s.asidOf tk) = none) : s.writeStop tk = s := by
  unfold State.writeStop
  dsimp only
  rw [h]
  split
  · next hn => exact nomatch hn
  · rfl

/-- The record of a stopped team where a slot is free: with the record stored the team holds the slot, else the next scan
tries again. -/
theorem State.writeStop_of_free {s v : State} {tk i : Nat} {h : Nat × Nat × Nat} {x : Disp Unit}
    (hr : (s.team tk).stopRec = some h) (hi : s.freeStopSlot (s.asidOf tk) = some i)
    (hx : s.dispStore (some (s.asidOf tk)) (s.stopAddr (s.asidOf tk) i) (s.stopBytes tk h) false = (x, v)) :
    s.writeStop tk = if x = .ok () then
        v.setTeam tk { v.team tk with stopRec := none, stopSlot := some (s.stopAddr (s.asidOf tk) i) } else v := by
  unfold State.writeStop
  simp only [hr, hi, hx]
  cases x <;> simp

/-! ## Waiting accesses (R160, R202, R207, R232) -/

theorem pieceCount_ne_zero {a : Access} (as : List Access) (h : a.runs ≠ []) : pieceCount (a :: as) ≠ 0 := by
  have hle : ∀ (l : List Access) (n : Nat), n ≤ l.foldl (fun n a => n + a.runs.length) n := by
    intro l
    induction l with
    | nil => exact fun n => Nat.le_refl n
    | cons b l ih => exact fun n => Nat.le_trans (Nat.le_add_right n _) (ih _)
  have := List.length_pos_iff.2 h
  have := hle as (0 + a.runs.length)
  simp only [pieceCount, List.foldl_cons]
  omega

theorem State.performList_wait {s u : State} {fuel idx : Nat} {iaddr : Word} {a : Access} (as : List Access) (hf : fuel ≠ 0)
    (h : s.stepPiece idx iaddr a = .wait u) : s.performList fuel idx iaddr (a :: as) = ((a :: as, true), u) := by
  obtain ⟨k, rfl⟩ := Nat.exists_eq_succ_of_ne_zero hf
  simp only [State.performList, h]

theorem State.performList_last {s u : State} {fuel idx : Nat} {iaddr : Word} {a : Access} (hf : fuel ≠ 0)
    (h : s.stepPiece idx iaddr a = .done u) : s.performList fuel idx iaddr [a] = (([], false), u) := by
  obtain ⟨k, rfl⟩ := Nat.exists_eq_succ_of_ne_zero hf
  simp only [State.performList, h]

/-- A lane past the instruction that waited (R160). -/
def Lane.passed (l : Lane) : Lane := { l with block := .none, pc := l.pc + 4 }

@[simp] theorem State.laneDone_parked (s : State) (tk : Nat) (lanes : List Nat) : (s.laneDone tk lanes).parked = s.parked := by
  unfold State.laneDone
  split <;> rfl

theorem State.laneDone_other (s : State) (tk : Nat) (lanes : List Nat) {k : Nat} (hk : k ≠ tk) :
    (s.laneDone tk lanes).team k = s.team k := by
  unfold State.laneDone
  split
  · rfl
  · simp [hk]

/-- The lanes of a run that is done go on past it, and nothing else of their team changes. -/
theorem State.laneDone_team (s : State) (tk : Nat) (lanes : List Nat) :
    (s.laneDone tk lanes).team tk = { s.team tk with lanes := ((s.laneDone tk lanes).team tk).lanes } ∧
      ∀ n, ((s.laneDone tk lanes).team tk).lane n =
        if n ∈ lanes then ((s.team tk).lane n).passed else (s.team tk).lane n := by
  unfold State.laneDone
  split
  · next h => simp [List.isEmpty_iff.1 h]
  · simp only [State.setTeam_team, if_true]
    exact ⟨Team.updateLanes_rest .., Team.lane_updateLanes _ _ _⟩

section
variable {s u : State} {idx : Nat} {p : Parked} {rest : List Parked} {a : Access}

/-- The head piece of a parked access must wait: the access keeps its place. -/
theorem State.resumeParked_of_wait {more : List Access} (hd : s.parked.drop idx = p :: rest) (hi : s.issues p.team = true)
    (hp : s.pace = none) (ha : p.accs = a :: more) (hr : a.runs ≠ []) (h : s.stepPiece idx p.iaddr a = .wait u) :
    s.resumeParked idx = { u with parked := u.parked.set idx { p with held := true } } := by
  have hx := State.performList_wait more (pieceCount_ne_zero more hr) h
  have hs : { s with pace := none } = s := by rw [← hp]
  simp only [State.resumeParked, hd, hi, if_true, State.paceOf, hp, Option.getD_none, hs, ha, hx, or_true]

/-- The last piece of a parked access performs: the access leaves, and its lanes go on. -/
theorem State.resumeParked_of_done (hd : s.parked.drop idx = p :: rest) (hi : s.issues p.team = true)
    (hp : s.pace = none) (ha : p.accs = [a]) (hr : a.runs ≠ []) (h : s.stepPiece idx p.iaddr a = .done u) :
    s.resumeParked idx = { u with parked := u.parked.eraseIdx idx }.laneDone p.team p.lanes := by
  have hx := State.performList_last (pieceCount_ne_zero [] hr) h
  have hs : { s with pace := none } = s := by rw [← hp]
  simp only [State.resumeParked, hd, hi, if_true, State.paceOf, hp, Option.getD_none, hs, ha, hx]

end

/-! ## Switches of banks (R245, R246) -/

/-- A state that differs from another at most in how its teams are listed. -/
structure SameTeams (s t : State) : Prop where
  only : OnlyTeams s t
  team : ∀ k, t.team k = s.team k

theorem SameTeams.refl (s : State) : SameTeams s s := ⟨.refl s, fun _ => rfl⟩

theorem SameTeams.trans {s t u : State} (h : SameTeams s t) (g : SameTeams t u) : SameTeams s u :=
  ⟨h.only.trans g.only, fun k => (g.team k).trans (h.team k)⟩

/-- A sequencer that buffers nothing has no store that joins. -/
theorem State.drainIf_of_empty {s : State} {k : Nat} (p : BufByte → Bool) (h : (s.team k).seq.sbuf = []) :
    SameTeams s (s.drainIf k p) := by
  have hd : s.drainIf k p = s.setSeq k { (s.team k).seq with sbuf := [] } := by
    simp [State.drainIf, h, bufStores, joining, State.joinStores]
  rw [hd]
  refine ⟨onlyTeams_setTeam .., fun j => ?_⟩
  rw [State.setSeq_team]
  split
  · next hj => rw [hj, ← h]
  · rfl

theorem foldl_drainIf_of_empty (p : BufByte → Bool) (ks : List Nat) {s : State} (h : ∀ k, (s.team k).seq.sbuf = []) :
    SameTeams s (ks.foldl (fun u k => State.drainIf u k p) s) := by
  induction ks generalizing s with
  | nil => exact .refl s
  | cons k ks ih =>
    have hk := State.drainIf_of_empty p (h k)
    exact hk.trans (ih (fun j => by rw [hk.team]; exact h j))

theorem State.drainBank_of_empty {s : State} (tk bank : Nat) (h : ∀ k, (s.team k).seq.sbuf = []) :
    SameTeams s (s.drainBank tk bank) := foldl_drainIf_of_empty _ _ h

theorem spadKey_next (tk b : Nat) : spadKey tk (b + 1) 0 = spadKey tk b 0 + 32768 := by
  unfold spadKey
  omega

theorem State.zeroBank_byte (s : State) (tk b k : Nat) :
    (s.zeroBank tk b).byte k = if spadKey tk b 0 ≤ k ∧ k < spadKey tk (b + 1) 0 then 0 else s.byte k := by
  rw [spadKey_next]
  exact SMap.get_clear ..

theorem State.zeroBank_team (s : State) (tk b j : Nat) :
    (s.zeroBank tk b).team j =
      if j = tk then { s.team tk with fifos := SMap.set [] (s.team tk).fifos b [] } else s.team j := by
  simp only [State.zeroBank, State.setTeam_team]
  rfl

/-- Banks of a team are zero, and of the teams nothing changes but their queues. -/
structure BanksZeroed (s t : State) (tk : Nat) (bs : List Nat) : Prop where
  byte : ∀ k, t.byte k = if ∃ b ∈ bs, spadKey tk b 0 ≤ k ∧ k < spadKey tk (b + 1) 0 then 0 else s.byte k
  own : t.team tk = { s.team tk with fifos := (t.team tk).fifos }
  others : ∀ j, j ≠ tk → t.team j = s.team j

theorem BanksZeroed.sbuf {s t : State} {tk : Nat} {bs : List Nat} (h : BanksZeroed s t tk bs)
    (hs : ∀ k, (s.team k).seq.sbuf = []) (k : Nat) : (t.team k).seq.sbuf = [] := by
  by_cases hk : k = tk
  · rw [hk, h.own]
    exact hs tk
  · rw [h.others k hk]
    exact hs k

theorem BanksZeroed.cons {s t u : State} {tk b : Nat} {bs : List Nat} (h : BanksZeroed s t tk [b]) (g : BanksZeroed t u tk bs) :
    BanksZeroed s u tk (b :: bs) where
  byte k := by
    rw [g.byte, h.byte]
    by_cases hb : spadKey tk b 0 ≤ k ∧ k < spadKey tk (b + 1) 0 <;> simp [hb]
  own := by rw [g.own, h.own]
  others j hj := (g.others j hj).trans (h.others j hj)

/-- One bank of a switch (R246). -/
def State.switchOne (tk : Nat) (s : State) (b : Nat) : State := (s.drainBank tk b).zeroBank tk b

theorem State.switchOne_spec {s : State} (tk b : Nat) (h : ∀ k, (s.team k).seq.sbuf = []) :
    BanksZeroed s (s.switchOne tk b) tk [b] := by
  have hd := State.drainBank_of_empty tk b h
  refine ⟨fun k => ?_, ?_, fun j hj => ?_⟩
  · have hb : (s.drainBank tk b).byte k = s.byte k := by rw [hd.only.eq]; rfl
    simp [State.switchOne, State.zeroBank_byte, hb]
  · simp [State.switchOne, State.zeroBank_team, hd.team]
  · simp [State.switchOne, State.zeroBank_team, hd.team, hj]

theorem foldl_switchOne_spec (tk : Nat) (bs : List Nat) {s : State} (h : ∀ k, (s.team k).seq.sbuf = []) :
    BanksZeroed s (bs.foldl (State.switchOne tk) s) tk bs := by
  induction bs generalizing s with
  | nil => exact ⟨fun k => by simp, rfl, fun _ _ => rfl⟩
  | cons b bs ih =>
    have hb := State.switchOne_spec tk b h
    exact hb.cons (ih (hb.sbuf h))

theorem State.switchBanks_eq (s : State) (tk : Nat) (vs : List (BitVec 16)) :
    let u := (switchedBanks (s.team tk).bmode vs).foldl (State.switchOne tk) s
    s.switchBanks tk vs = u.setTeam tk { u.team tk with bmode := vs.getLastD (u.team tk).bmode } := rfl

/-- A switch while nothing is buffered: every byte of a switched bank is zero, the mode is the last value, and of the teams
nothing else changes but queues (R246). -/
theorem State.switchBanks_spec {s : State} (tk : Nat) (vs : List (BitVec 16)) (h : ∀ k, (s.team k).seq.sbuf = []) :
    let t := s.switchBanks tk vs
    (∀ k, t.byte k = if ∃ b ∈ switchedBanks (s.team tk).bmode vs, spadKey tk b 0 ≤ k ∧ k < spadKey tk (b + 1) 0 then 0
      else s.byte k) ∧
    t.team tk = { s.team tk with fifos := (t.team tk).fifos, bmode := vs.getLastD (s.team tk).bmode } ∧
    ∀ j, j ≠ tk → t.team j = s.team j := by
  have hz := foldl_switchOne_spec tk (switchedBanks (s.team tk).bmode vs) h
  dsimp only
  rw [State.switchBanks_eq]
  refine ⟨hz.byte, ?_, fun j hj => ?_⟩
  · simp only [State.setTeam_team, if_true]
    rw [hz.own]
  · simp [hj, hz.others]

theorem execBankModeSwitch_busy {s : State} {tk : Nat} {vs : List (BitVec 16)} {lanes : List Nat}
    {rest : List (List (BitVec 16) × List Nat)} (ht : s.turn = .event .bankModeSwitch (.nat tk))
    (hn : (s.team tk).bmodeNext = (vs, lanes) :: rest)
    (hb : ∃ b ∈ switchedBanks (s.team tk).bmode vs, s.bankBusy tk b = true) : execBankModeSwitch s = .next s := by
  simp only [execBankModeSwitch, ht, hn, List.any_eq_true.2 hb, if_true]

theorem execBankModeSwitch_free {s : State} {tk : Nat} {vs : List (BitVec 16)} {lanes : List Nat}
    {rest : List (List (BitVec 16) × List Nat)} (ht : s.turn = .event .bankModeSwitch (.nat tk))
    (hn : (s.team tk).bmodeNext = (vs, lanes) :: rest)
    (hb : ∀ b ∈ switchedBanks (s.team tk).bmode vs, s.bankBusy tk b = false) :
    let u := (s.switchBanks tk vs).laneDone tk lanes
    execBankModeSwitch s = .next (u.setTeam tk { u.team tk with bmodeNext := rest }) := by
  have hany : (switchedBanks (s.team tk).bmode vs).any (s.bankBusy tk) = false := by simpa using hb
  simp only [execBankModeSwitch, ht, hn, hany, Bool.false_eq_true, if_false]

/-! ## The end of a release (R305) -/

theorem Team.endWaits_bar (t : Team) (b p c : Nat) : (t.endWaits b p).bar c = t.bar c := by
  unfold Team.endWaits
  dsimp only
  split <;> rfl

theorem Team.endWaits_seq (t : Team) (b p : Nat) :
    (t.endWaits b p).seq = if t.seq.wait = some (.bar b p) then { t.seq with wait := none }.advance 4 else t.seq := by
  simp only [Team.endWaits, Sequencer.waitsBar, decide_eq_true_eq]
  split <;> rfl

theorem Team.endWaits_lane (t : Team) (b p n : Nat) :
    (t.endWaits b p).lane n = { t.lane n with wait := if (t.lane n).wait = some (b, p) then none else (t.lane n).wait } := by
  have hlanes : (t.endWaits b p).lanes =
      SMap.mapV {} t.lanes (fun _ l => if l.wait = some (b, p) then { l with wait := none } else l) := by
    unfold Team.endWaits
    dsimp only
    split <;> rfl
  rw [Team.lane, hlanes, SMap.get_mapV _ _ _ rfl]
  change (if (t.lane n).wait = some (b, p) then { t.lane n with wait := none } else t.lane n) = _
  split <;> rfl

theorem State.traceEvent_of_not_captured {s : State} {tk : Nat} (ev : Nat) (h : (s.gridOf tk).captured = false) :
    s.traceEvent tk ev = s := by
  simp [State.traceEvent, h]

/-- A barrier with an expected count is not in automatic mode (R304). -/
theorem State.testAuto_of_expected {s : State} {tk b : Nat} (h : ((s.team tk).bar b).expected ≠ 0) : s.testAuto tk b = s := by
  simp [State.testAuto, State.autoMet, h]

/-- A release with nothing left to apply and none of its barrier before it ends. -/
theorem State.progressRelease_of_applied {s : State} {idx : Nat} {r : Release} {rest : List Release}
    (hd : s.releases.drop idx = r :: rest) (he : r.entries = []) (hf : ∀ y ∈ s.releases.take idx, y.kind ≠ r.kind) :
    s.progressRelease idx = { s with releases := s.releases.eraseIdx idx }.endRelease r := by
  have hany : (s.releases.take idx).any (fun y => decide (y.kind = r.kind)) = false := by simpa using hf
  simp [State.progressRelease, hd, he, State.applyReds, hany]

/-- A team whose waits for a phase of a barrier are over. -/
def State.releasedTeam (s : State) (tk b p : Nat) (more : Bool) : Team :=
  let t := (s.team tk).endWaits b p
  t.setBar b { t.bar b with releasing := more }

theorem State.releasedTeam_expected (s : State) (tk b p : Nat) (more : Bool) :
    ((s.releasedTeam tk b p more).bar b).expected = ((s.team tk).bar b).expected := by
  simp only [State.releasedTeam, Team.bar, Team.setBar, SMap.get_set_same]
  exact congrArg Barrier.expected (Team.endWaits_bar ..)

theorem State.endRelease_bar {s : State} {r : Release} {tk b : Nat} (hk : r.kind = .bar tk b) (hc : (s.gridOf tk).captured = false) :
    s.endRelease r = s.setTeam tk (s.releasedTeam tk b r.phase (s.releases.any (fun x => decide (x.kind = r.kind)))) := by
  unfold State.endRelease
  rw [hk]
  exact State.traceEvent_of_not_captured _ hc

theorem execReleaseWaitEnd_bar {s : State} {idx tk b : Nat} {r : Release} {rest : List Release}
    (ht : s.turn = .event .releaseWaitEnd (.nat idx)) (hd : s.releases.drop idx = r :: rest) (hk : r.kind = .bar tk b)
    (he : r.entries = []) (hf : ∀ y ∈ s.releases.take idx, y.kind ≠ r.kind) (hx : ((s.team tk).bar b).expected ≠ 0)
    (hc : (s.gridOf tk).captured = false) :
    execReleaseWaitEnd s = .next ({ s with releases := s.releases.eraseIdx idx }.setTeam tk
      (s.releasedTeam tk b r.phase ((s.releases.eraseIdx idx).any (fun x => decide (x.kind = r.kind))))) := by
  have hp := (State.progressRelease_of_applied hd he hf).trans
    (State.endRelease_bar (s := { s with releases := s.releases.eraseIdx idx }) hk hc)
  simp only [execReleaseWaitEnd, ht, hd, hk, hp]
  rw [State.testAuto_of_expected]
  · rfl
  · rw [State.setTeam_team, if_pos rfl, State.releasedTeam_expected]
    exact hx

/-! ## Accesses that wait at once (R160, R207, R235, R268, R325, R327) -/

/-- A state that differs from another in the tags of DET grids and in the pace alone: what an access waits for is the same. -/
structure SameButTags (s t : State) : Prop where
  only : ∃ gs pace, t = { s with grids := gs, pace := pace }
  grid : ∀ k, ∃ tags, t.grid k = { s.grid k with tags := tags }

theorem SameButTags.refl (s : State) : SameButTags s s := ⟨⟨s.grids, s.pace, rfl⟩, fun _ => ⟨_, rfl⟩⟩

theorem SameButTags.trans {s t u : State} (h : SameButTags s t) (g : SameButTags t u) : SameButTags s u := by
  obtain ⟨⟨gs, p, rfl⟩, hg⟩ := h
  obtain ⟨⟨gs', p', rfl⟩, hg'⟩ := g
  refine ⟨⟨gs', p', rfl⟩, fun k => ?_⟩
  obtain ⟨x, hx⟩ := hg k
  obtain ⟨y, hy⟩ := hg' k
  exact ⟨y, by rw [hy, hx]⟩

theorem sameButTags_setGrid (s : State) (k : Nat) (tags : SMap (Nat × Nat)) :
    SameButTags s (s.setGrid k { s.grid k with tags := tags }) := by
  refine ⟨⟨_, s.pace, rfl⟩, fun j => ?_⟩
  rw [State.setGrid_grid]
  split
  · next h => exact ⟨tags, by rw [h]⟩
  · exact ⟨_, rfl⟩

theorem setTag_sameButTags (s : State) (w : Who) (store : Bool) (l : Loc) : SameButTags s (s.setTag w store l) := by
  unfold State.setTag
  dsimp only
  split
  · split
    · split
      · exact .refl s
      · exact sameButTags_setGrid ..
    · exact sameButTags_setGrid ..
  · exact .refl s

theorem foldl_sameButTags {α : Type} {f : State → α → State} (hf : ∀ u x, SameButTags u (f u x)) (xs : List α) (s : State) :
    SameButTags s (xs.foldl f s) := by
  induction xs generalizing s with
  | nil => exact .refl s
  | cons x xs ih => exact (hf s x).trans (ih _)

theorem tagAll_sameButTags (s : State) (as : List Access) : SameButTags s (s.tagAll as) := by
  refine foldl_sameButTags (fun u a => ?_) as s
  split
  · exact .refl u
  · exact foldl_sameButTags (fun v p => setTag_sameButTags ..) a.runs u

theorem SameButTags.frontPiece {s t : State} (h : SameButTags s t) (a : Access) : t.frontPiece a = s.frontPiece a := by
  obtain ⟨⟨gs, pace, rfl⟩, -⟩ := h
  rfl

theorem SameButTags.ownRegen {s t : State} (h : SameButTags s t) (grid : Nat) (l : Loc) :
    t.ownRegen grid l = s.ownRegen grid l := by
  obtain ⟨tags, hg⟩ := h.grid grid
  unfold State.ownRegen
  rw [hg]

theorem SameButTags.mustWait {s t : State} (h : SameButTags s t) (grid : Nat) (writes : Bool) (runs : List (Loc × Nat)) :
    t.mustWait grid writes runs = s.mustWait grid writes runs := by
  have hr := h.ownRegen grid
  obtain ⟨⟨gs, pace, rfl⟩, -⟩ := h
  unfold State.mustWait
  simp only [hr]
  rfl

theorem SameButTags.issues {s t : State} (h : SameButTags s t) (tk : Nat) : t.issues tk = s.issues tk := by
  obtain ⟨tags, hg⟩ := h.grid (keyGrid tk)
  obtain ⟨⟨gs, pace, rfl⟩, -⟩ := h
  unfold State.issues State.gridOf
  rw [hg]
  rfl

theorem SameButTags.queuedBefore {s t : State} (h : SameButTags s t) (idx : Nat) (l : Loc) :
    t.queuedBefore idx l = s.queuedBefore idx l := by
  have hp : t.parked = s.parked := by
    obtain ⟨⟨gs, pace, rfl⟩, -⟩ := h
    rfl
  simp only [State.queuedBefore, hp, h.issues, h.mustWait]

theorem SameButTags.detBefore {s t : State} (h : SameButTags s t) (idx grid : Nat) (writes : Bool) (l : Loc) :
    t.detBefore idx grid writes l = s.detBefore idx grid writes l := by
  obtain ⟨tags, hg⟩ := h.grid grid
  obtain ⟨⟨gs, pace, rfl⟩, -⟩ := h
  unfold State.detBefore
  rw [hg]

theorem SameButTags.pieceWaits {s t : State} (h : SameButTags s t) (idx : Nat) (a : Access) (p : Loc × Nat) :
    t.pieceWaits idx a p = s.pieceWaits idx a p := by
  have hport : t.portWaits a = s.portWaits a := by
    obtain ⟨⟨gs, pace, rfl⟩, -⟩ := h
    rfl
  simp only [State.pieceWaits, h.mustWait, h.queuedBefore, hport, h.detBefore]

theorem State.stepPiece_of_waits {s : State} {idx : Nat} {iaddr : Word} {a : Access} {p : Loc × Nat} {rest : List (Loc × Nat)}
    (hf : s.frontPiece a = some (p, rest)) (hw : s.pieceWaits idx a p = true) : s.stepPiece idx iaddr a = .wait s := by
  simp only [State.stepPiece, hf, hw, if_true]

/-- An instruction whose first piece must wait performs nothing: all of it is parked, and its lanes wait. -/
theorem State.performOrPark_of_waits {s : State} {tk : Nat} {lanes : List Nat} {iaddr : Word} {a : Access} {as : List Access}
    {p : Loc × Nat} {rest : List (Loc × Nat)} (hf : s.frontPiece a = some (p, rest))
    (hw : s.pieceWaits s.parked.length a p = true) (hp : s.paceOf (a :: as) ≠ 0) :
    ∃ u, SameButTags s u ∧ s.performOrPark tk lanes iaddr (a :: as) =
      { u.markWaiting tk lanes with parked := u.parked ++ [⟨tk, lanes, iaddr, a :: as, true⟩] } := by
  have hu : SameButTags s { s.tagAll (a :: as) with pace := none } :=
    (tagAll_sameButTags s (a :: as)).trans ⟨⟨_, none, rfl⟩, fun _ => ⟨_, rfl⟩⟩
  refine ⟨_, hu, ?_⟩
  have hstep := State.stepPiece_of_waits (iaddr := iaddr) ((hu.frontPiece a).trans hf) ((hu.pieceWaits _ a p).trans hw)
  simp only [State.performOrPark, State.performList_wait as hp hstep]

theorem State.markWaiting_lane (s : State) (tk : Nat) {lanes : List Nat} (hl : lanes ≠ []) (n : Nat) :
    ((s.markWaiting tk lanes).team tk).lane n =
      if n ∈ lanes then { (s.team tk).lane n with block := .perform } else (s.team tk).lane n := by
  have he : lanes.isEmpty = false := by simpa using hl
  simp only [State.markWaiting, he, Bool.false_eq_true, if_false, State.setTeam_team, if_true]
  exact Team.lane_updateLanes ..

end Sys2Proof.Machine

open Sys2Proof.Machine

/-- Settles O53, event by event: the stop of a team (stopTeam_team) with the hit of the clock (clockHit_spec), the stop slots
(foldl_freeStopped_team, mem_clearedStops, writeStop_of_free), a parked access (resumeParked_of_wait, resumeParked_of_done), a switch
of banks (switchBanks_spec), the end of a release (execReleaseWaitEnd_bar), and an access that waits at once
(performOrPark_of_waits). -/
theorem stopsAndWaits : Obligations.StopsAndWaits := by
  unfold Obligations.StopsAndWaits
  refine ⟨?breakpoint, ?scan, ?free, ?access, ?banks, ?release, ?waits⟩
  case breakpoint =>
    intro s tk st ix hturn
    have hexec : exec .breakpointMatch s = .next (s.stopTeam tk (s.clockHit tk (st, ix))) := by
      rw [exec_breakpointMatch]
      rcases hturn with ⟨c, p, i, r, ht, hr, rfl, hh⟩ | ⟨ht, hi, hh⟩
      · exact execBreakpointMatch_slot ht hr hh
      · exact execBreakpointMatch_seq ht hi hh
    obtain ⟨hone, hle, hall⟩ := s.clockHit_spec tk (st, ix)
    refine ⟨_, s.clockHit tk (st, ix), hexec, (s.stopTeam_onlyTeams tk _).eq, hone, hle, hall, ?_, fun j hj => ?_⟩
    · rw [State.stopTeam_team, if_pos rfl]
      rfl
    · rw [State.stopTeam_team, if_neg hj]
      rfl
  case scan =>
    intro s a ht
    have hexec : exec .stopSlotScan s = .next (s.scanStops a) := by simp only [exec_stopSlotScan, execStopSlotScan, ht]
    refine ⟨fun hu => ?_, fun tk x hx ha hw => State.mem_clearedStops hx ha hw, fun tk h hc hu hr => ?_⟩
    · refine ⟨_, hexec.trans (by rw [State.scanStops_of_recorded hu]),
        (foldl_onlyTeams (fun (u : State) x => u.freeStopped_onlyTeams a x) _ s).eq, fun tk => ?_⟩
      rw [foldl_freeStopped_team]
      rfl
    · obtain ⟨-, -, -, rfl⟩ := State.mem_unrecorded.1 (hu ▸ List.mem_singleton_self tk)
      rw [hexec, State.scanStops_single hc hu]
      refine ⟨fun hfull => by rw [State.writeStop_of_full hfull], fun i x v hi => ?_⟩
      obtain ⟨hlt, hvalid⟩ := State.freeStopSlot_spec hi
      refine ⟨hlt, hvalid, fun hx => ?_⟩
      rw [State.writeStop_of_free hr hi hx]
      refine ⟨fun hne => by rw [if_neg hne], fun hok => ?_⟩
      rw [if_pos hok]
      exact ⟨_, rfl, rfl, by simp [State.stopAddr], fun j hj => by simp [hj]⟩
  case free =>
    intro s v a i ht hi ha hx
    have hexec : exec .stopSlotFree s = .next (v.freeStopped a (s.stopAddr a i)) := by
      simp only [exec_stopSlotFree, execStopSlotFree, ht, hi, ha, ne_eq, not_false_eq_true, and_self, if_true, State.stopAddr, hx]
    exact ⟨_, hexec, (v.freeStopped_onlyTeams a _).eq, fun tk => v.freeStopped_team a _ tk⟩
  case access =>
    intro s idx p rest a more ht hd hacc
    have hexec : exec .waitingAccessPerform s = .next (s.resumeParked idx) := by
      simp only [exec_waitingAccessPerform, execWaitingAccessPerform, ht]
    rw [hexec]
    refine ⟨fun hi => by simp [State.resumeParked, hd, hi], fun hi hp hruns o ho => ⟨fun u hu => ?_, fun u hu hmore => ?_⟩⟩
    · rw [State.resumeParked_of_wait hd hi hp hacc hruns (ho.trans hu)]
    · subst hmore
      rw [State.resumeParked_of_done hd hi hp hacc hruns (ho.trans hu)]
      exact ⟨_, rfl, State.laneDone_mem .., State.laneDone_parked .., (State.laneDone_team _ _ _).2⟩
  case banks =>
    intro s tk vs lanes rest ht hn
    refine ⟨fun hb => execBankModeSwitch_busy ht hn hb, fun hb hs => ?_⟩
    obtain ⟨hbyte, hown, hothers⟩ := State.switchBanks_spec tk vs hs
    obtain ⟨hrest, hlane⟩ := (s.switchBanks tk vs).laneDone_team tk lanes
    refine ⟨_, execBankModeSwitch_free ht hn hb, ?_, ?_, fun k => ?_, fun n => ?_, fun k hk => ?_⟩
    · rw [State.setTeam_team, if_pos rfl, hrest, hown]
    · rw [State.setTeam_team, if_pos rfl]
    · rw [State.setTeam_byte, State.byte, State.laneDone_mem]
      exact hbyte k
    · rw [State.setTeam_team, if_pos rfl]
      refine (hlane n).trans ?_
      rw [hown]
      rfl
    · rw [State.setTeam_team, if_neg hk, State.laneDone_other _ _ _ hk, hothers k hk]
  case release =>
    intro s idx tk b r rest ht hd hk he hf hx hc
    have hexec := execReleaseWaitEnd_bar ht hd hk he (fun y hy => by rw [hk]; exact hf y hy) hx hc
    refine ⟨_, hexec, rfl, rfl, fun k hne => by rw [State.setTeam_team, if_neg hne]; rfl, ?_, fun n => ?_⟩
    · rw [State.setTeam_team, if_pos rfl]
      exact Team.endWaits_seq ..
    · rw [State.setTeam_team, if_pos rfl]
      exact Team.endWaits_lane ..
  case waits =>
    intro s tk lanes iaddr a as p rest hf hw hl hp
    obtain ⟨u, hu, hpark⟩ := State.performOrPark_of_waits (tk := tk) (lanes := lanes) (iaddr := iaddr) hf hw hp
    rw [hpark]
    obtain ⟨⟨gs, pace, rfl⟩, -⟩ := hu
    have hlane := State.markWaiting_lane { s with grids := gs, pace := pace } tk hl
    refine ⟨State.markWaiting_mem { s with grids := gs, pace := pace } tk lanes, rfl, hlane, fun n hn => ?_⟩
    have hblock := hlane n
    rw [if_pos hn] at hblock
    exact congrArg (fun l => State.unblocked _ (Lane.block l)) hblock

end

section
/-! SUPPORT. Instructions that write predicates: what writing a list of predicates leaves of a lane, and the comparisons as
writes of one predicate. -/

namespace Sys2Proof.Machine

/-! ## Writing predicates (R166) -/

/-- Predicates written one after another, each with the value and the poison that its number gives. -/
def Lane.setPreds (l : Lane) (ps : List Nat) (v q : Nat → Bool) : Lane := ps.foldl (fun l p => l.setPred p (v p) (q p)) l

/-- Writing predicates changes the predicate bytes alone. -/
theorem Lane.setPreds_rest (l : Lane) (ps : List Nat) (v q : Nat → Bool) :
    l.setPreds ps v q = { l with pv := (l.setPreds ps v q).pv, pp := (l.setPreds ps v q).pp } := by
  induction ps generalizing l with
  | nil => rfl
  | cons p r ih =>
    refine (ih (l.setPred p (v p) (q p))).trans ?_
    simp only [Lane.setPreds, List.foldl_cons, Lane.setPred]
    split <;> rfl

/-- A listed predicate reads what its number gives, p0 true, a poisoned one false; every other reads as before. -/
theorem Lane.pred_setPreds (l : Lane) {ps : List Nat} (hps : ∀ p ∈ ps, p < 8) (v q : Nat → Bool) (j : Nat) :
    (l.setPreds ps v q).pred j = if j ∈ ps then decide (j = 0) || (v j && !q j) else l.pred j := by
  induction ps generalizing l with
  | nil => rfl
  | cons p r ih =>
    obtain ⟨hp, hr⟩ := List.forall_mem_cons.1 hps
    refine (ih (l.setPred p (v p) (q p)) hr).trans ?_
    rw [Lane.pred_setPred l hp]
    by_cases hj : j = p
    · subst hj; simp
    · simp [hj]

theorem Lane.predPoison_setPreds (l : Lane) {ps : List Nat} (hps : ∀ p ∈ ps, p < 8) (v q : Nat → Bool) (j : Nat) :
    (l.setPreds ps v q).predPoison j = if j ∈ ps then decide (j ≠ 0) && q j else l.predPoison j := by
  induction ps generalizing l with
  | nil => rfl
  | cons p r ih =>
    obtain ⟨hp, hr⟩ := List.forall_mem_cons.1 hps
    refine (ih (l.setPred p (v p) (q p)) hr).trans ?_
    rw [Lane.predPoison_setPred l hp]
    by_cases hj : j = p
    · subst hj; simp
    · simp [hj]

/-- What an instruction writes in a lane when it writes predicates and raises flags. -/
def predsOut (ps : List Nat) (v q : Nat → Bool) (fl : Flags) : LaneOut := { preds := ps.map (fun p => (p, v p, q p)), flags := fl }

theorem Lane.apply_predsOut (l : Lane) (trap : Bool) (len : Nat) (ps : List Nat) (v q : Nat → Bool) (fl : Flags) :
    l.apply trap len (predsOut ps v q fl) =
      { l.setPreds ps v q with lflags := l.lflags ||| fl, pc := l.pc + BitVec.ofNat 64 len } := by
  have h : l.apply trap len (predsOut ps v q fl) = { l.setPreds ps v q with
      lflags := (l.setPreds ps v q).lflags ||| fl, pc := (l.setPreds ps v q).pc + BitVec.ofNat 64 len } := by
    simp only [Lane.apply, predsOut, List.foldl_nil, List.foldl_map, Lane.setPreds]
  rw [h, Lane.setPreds_rest]

/-- Such an instruction leaves the registers, the other predicates and the flags raised before. -/
theorem laneKeeps_predsOut (l : Lane) (trap : Bool) (len : Nat) {ps : List Nat} (hps : ∀ p ∈ ps, p < 8) (v q : Nat → Bool)
    (fl : Flags) : LaneKeeps l (l.apply trap len (predsOut ps v q fl)) [] ps := by
  rw [Lane.apply_predsOut]
  have hrest := l.setPreds_rest ps v q
  refine ⟨fun k _ => ?_, fun p hp => ⟨?_, ?_⟩, ?_, ?_⟩
  · rw [hrest]; rfl
  · exact (l.pred_setPreds hps v q p).trans (if_neg hp)
  · exact (l.predPoison_setPreds hps v q p).trans (if_neg hp)
  · ext i
    simp only [BitVec.getElem_and, BitVec.getElem_or]
    cases l.lflags[i] <;> simp
  · rw [hrest]

/-- Completing an instruction that writes predicates: its frame, the predicates, the flags. -/
theorem finishLanes_predsOut (s : State) (r : Run) (len : Nat) {ps : List Nat} (hps : ∀ p ∈ ps, p < 8)
    (v q : Nat → Lane → Nat → Bool) (fl : Nat → Lane → Flags) :
    ∃ t, finishLanes s r len (fun n l => predsOut ps (v n l) (q n l) (fl n l)) = .next t ∧ LaneFrame s t r len [] ps ∧
      ∀ n ∈ r.lanes,
        (∀ p ∈ ps,
          (laneAt t r n).pred p = (decide (p = 0) || (v n (laneAt s r n) p && !q n (laneAt s r n) p)) ∧
          (laneAt t r n).predPoison p = (decide (p ≠ 0) && q n (laneAt s r n) p)) ∧
        (laneAt t r n).lflags = (laneAt s r n).lflags ||| fl n (laneAt s r n) := by
  refine ⟨_, rfl, ⟨onlyRunLanes_update _ _ _, fun n hn => ?_⟩, fun n hn => ?_⟩ <;>
    simp only [laneAt, lane_after_update _ _ _ hn]
  · exact ⟨laneKeeps_predsOut _ _ _ hps _ _ _, by rw [Lane.apply_predsOut]⟩
  · rw [Lane.apply_predsOut]
    exact ⟨fun p hp => ⟨(Lane.pred_setPreds _ hps _ _ p).trans (if_pos hp),
      (Lane.predPoison_setPreds _ hps _ _ p).trans (if_pos hp)⟩, rfl⟩

/-! ## Comparisons (R184, R185, R190) -/

theorem subElem_zero (x : Word) (w : Nat) : subElem x 0 w = x.toNat % 2 ^ w := by simp [subElem]

/-- The model's condition codes are those of R184. -/
theorem intCompare_eq_conditionHolds (c : Nat) (x y : Int) : intCompare c x y = conditionHolds c x y :=
  match c with
  | 0 => rfl
  | 1 => decide_not
  | 2 => rfl
  | 3 => decide_eq_decide.2 Int.le_iff_lt_or_eq
  | 4 => rfl
  | _ + 5 => decide_eq_decide.2 (Int.le_iff_lt_or_eq.trans (or_congr_right eq_comm))

/-- What a comparison writes in a lane. -/
def CmpForm.out (f : CmpForm) (trap : Bool) (l : Lane) : LaneOut :=
  let x := l.reg trap f.a
  let y := l.reg trap f.b
  predsOut [f.p] (fun _ => f.res x.val y.val) (fun _ => x.poison || y.poison) (f.flags x.val y.val)

/-- Every comparison completes with the predicate of its form. -/
theorem exec_cmpForm {i : Instr} {f : CmpForm} {s s1 : State} {r : Run} (hf : cmpForm i = some f)
    (h : LaneIssues s [f.a, f.b] r s1) : exec i s = finishLanes s1 r 4 (fun _ l => f.out r.trap l) ∧ f.p < 8 := by
  unfold cmpForm at hf
  split at hf
  case h_1 _ u v t b a c p =>
    obtain rfl := Option.some.inj hf
    refine ⟨?_, p.isLt⟩
    rw [exec_cmp, execCmp, compare2, laneOp, onRunRegs_of_issues h]
    simp only [subElem_zero, intCompare_eq_conditionHolds, CmpForm.out, predsOut, List.map_cons, List.map_nil]
  case h_2 _ w k a c p =>
    obtain rfl := Option.some.inj hf
    refine ⟨?_, p.isLt⟩
    have h1 : LaneIssues s [a.toNat] r s1 := ⟨h.1, by simpa using h.2⟩
    rw [exec_cmpi, execCmpi, laneOp, onRunRegs_of_issues h1]
    simp only [subElem_zero, intCompare_eq_conditionHolds, CmpForm.out, predsOut, List.map_cons, List.map_nil, Bool.or_self, wrapInt]
  case h_3 _ u v t b a c p =>
    obtain rfl := Option.some.inj hf
    refine ⟨?_, p.isLt⟩
    rw [exec_fspecCmp, execFspecCmp, compare2, laneOp, onRunRegs_of_issues h]
    simp only [subElem_zero, CmpForm.out, predsOut, List.map_cons, List.map_nil]
  case h_4 => cases hf

/-! ## Votes and PUNPK (R170, R195) -/

/-- What VOTE.any and VOTE.all write in lane n: the vote of the active lanes of its group, poisoned when one of them is. -/
def voteOut (all : Bool) (q p : Nat) (s : State) (r : Run) (n : Nat) : LaneOut :=
  predsOut [p]
    (fun _ => if all then (activePeers s r n).all (fun m => (laneAt s r m).pred q)
      else (activePeers s r n).any (fun m => (laneAt s r m).pred q))
    (fun _ => (activePeers s r n).any (fun m => (laneAt s r m).predPoison q)) 0

theorem exec_vote {s s1 : State} {r : Run} (u v : BitVec 1) (q p : BitVec 3) (all : Bool) (h : LaneIssues s [] r s1) :
    exec (if all then .voteAll u v q p else .voteAny u v q p) s =
      finishLanes s1 r 4 (fun n _ => voteOut all q.toNat p.toNat s1 r n) := by
  cases all
  · exact onRunRegs_of_issues h _
  · exact onRunRegs_of_issues h _

theorem exec_punpk_of_issues {s s1 : State} {r : Run} (a : BitVec 6) (h : LaneIssues s [a.toNat] r s1) :
    exec (.punpk a) s = finishLanes s1 r 4 (fun _ l => predsOut [1, 2, 3, 4, 5, 6, 7]
      (fun k => (l.reg r.trap a.toNat).val.getLsbD k) (fun _ => (l.reg r.trap a.toNat).poison) 0) :=
  onRunRegs_of_issues h _

end Sys2Proof.Machine

open Sys2Proof.Machine

/-- Settles O10: comparisons, votes and PUNPK each complete with a list of predicates (exec_cmpForm, exec_vote,
exec_punpk_of_issues), and finishLanes_predsOut says what that leaves. -/
theorem predicatesAreSet : Obligations.PredicatesAreSet := by
  unfold Obligations.PredicatesAreSet
  refine ⟨?compare, ?vote, ?unpack⟩
  case compare =>
    intro i f s s1 r hf h
    obtain ⟨hexec, hp⟩ := exec_cmpForm hf h
    obtain ⟨t, ht, hframe, hlanes⟩ := finishLanes_predsOut s1 r 4 (ps := [f.p]) (by simpa using hp) _ _ _
    refine ⟨t, hexec.trans ht, hframe, fun n hn => ?_⟩
    obtain ⟨hpreds, hflags⟩ := hlanes n hn
    obtain ⟨hval, hpoison⟩ := hpreds f.p (by simp)
    exact ⟨hval, hpoison, hflags⟩
  case vote =>
    intro u v q p all s s1 r h
    have hp : ∀ k ∈ [p.toNat], k < 8 := by simpa using p.isLt
    have hp0 : p.toNat = 0 ↔ p = 0 := by bv_omega
    obtain ⟨t, ht, hframe, hlanes⟩ := finishLanes_predsOut s1 r 4 hp _ _ _
    refine ⟨t, (exec_vote u v q p all h).trans ht, hframe, fun n hn => ?_⟩
    obtain ⟨hpreds, hflags⟩ := hlanes n hn
    obtain ⟨hval, hpoison⟩ := hpreds p.toNat (by simp)
    simp only [ne_eq, hp0] at hval hpoison
    exact ⟨hval, hpoison, by simpa using hflags⟩
  case unpack =>
    intro a s s1 r h
    obtain ⟨t, ht, hframe, hlanes⟩ := finishLanes_predsOut s1 r 4 (ps := [1, 2, 3, 4, 5, 6, 7]) (by decide) _ _ _
    refine ⟨t, (exec_punpk_of_issues a h).trans ht, hframe, fun n hn => ?_⟩
    obtain ⟨hpreds, hflags⟩ := hlanes n hn
    refine ⟨fun k hk hk' => ?_, by simpa using hflags⟩
    have hmem : k ∈ [1, 2, 3, 4, 5, 6, 7] := by simp; omega
    have hk0 : k ≠ 0 := by omega
    simpa [hk0] using hpreds k hmem

end

section
/-! SUPPORT. Instructions that only advance: what completing an instruction that writes nothing leaves, and what prefetches of
data and of code change beside lanes. -/

namespace Sys2Proof.Machine

/-! ## Completing an instruction that writes nothing -/

theorem Lane.apply_nothing (l : Lane) (trap : Bool) : l.apply trap 4 {} = { l with pc := l.pc + 4 } := by simp [Lane.apply]

/-- The counters of the run's lanes move on, and nothing else changes. -/
theorem finishLanes_nothing (s : State) (r : Run) :
    ∃ t, finishLanes s r 4 (fun _ _ => {}) = .next t ∧ LanesBecome s t r (fun _ l => { l with pc := l.pc + 4 }) := by
  refine ⟨_, rfl, onlyRunLanes_update _ _ _, fun n hn => ?_⟩
  rw [laneAt, lane_after_update _ _ _ hn, Lane.apply_nothing, laneAt]

/-- The same after a change that leaves memory and the teams. -/
theorem finishLanes_nothing_after {s u : State} (r : Run) (hmem : u.mem = s.mem) (hteams : u.teams = s.teams) :
    ∃ t, finishLanes u r 4 (fun _ _ => {}) = .next t ∧ t.mem = s.mem ∧ (∀ k, k ≠ r.team → t.team k = s.team k) ∧
      ∀ n, laneAt t r n = if n ∈ r.lanes then { laneAt s r n with pc := (laneAt s r n).pc + 4 } else laneAt s r n := by
  have hteam : ∀ k, u.team k = s.team k := fun k => by rw [State.team, hteams, State.team]
  obtain ⟨t, ht, ⟨hrest, hothers, -, hidle⟩, hlanes⟩ := finishLanes_nothing u r
  refine ⟨t, ht, ?_, fun k hk => (hothers k hk).trans (hteam k), fun n => ?_⟩
  · rw [hrest]; exact hmem
  · simp only [laneAt, hteam] at hlanes hidle ⊢
    split
    · next hn => exact hlanes n hn
    · next hn => exact hidle n hn

/-! ## Fences (R219) -/

/-- A fence of lanes is over when none of them has a forwarded access under way. -/
theorem State.unblocked_fence (s : State) (tk : Nat) (ns : List Nat) :
    s.unblocked (.fence tk ns) = true ↔ ∀ x ∈ s.fab.fwd, ∀ n ∈ ns, x.owner ≠ .agent (.lane tk n) := by
  simp only [State.unblocked, Bool.not_eq_true', List.any_eq_false]
  refine forall_congr' fun x => forall_congr' fun _ => ?_
  split
  · next t n hx =>
    simp only [hx, Bool.and_eq_true, decide_eq_true_eq, List.contains_iff_mem, not_and, ne_eq, FwdFor.agent.injEq,
      Agent.lane.injEq]
    exact ⟨fun h m hm ht hnm => h ht (hnm ▸ hm), fun h ht hn => h n hn ht rfl⟩
  · next hx => simpa using fun n _ => hx tk n

/-- Blocking the lanes of a run changes nothing else. -/
theorem blockLanes_become (s : State) (r : Run) (b : Block) : LanesBecome s (s.blockLanes r b) r (fun _ l => { l with block := b }) :=
  ⟨onlyRunLanes_update _ _ _, fun _ hn => lane_after_update _ _ _ hn⟩

theorem exec_fence {i : Instr} {s s1 : State} {r : Run} (hi : i = .fenceD ∨ i = .fenceS) (h : s.issuing = some (r, s1)) :
    exec i s = if s1.unblocked (.fence r.team r.lanes) then finishLanes s1 r 4 (fun _ _ => {})
      else .next (s1.blockLanes r (.fence r.team r.lanes)) := by
  rcases hi with rfl | rfl
  · exact onRun_of_issuing h _
  · exact onRun_of_issuing h _

/-! ## PRF (R221) -/

/-- Bringing a line into an L1 changes per-line state alone, beside what its check leaves. -/
theorem prefetch_only (s : State) (r : Run) (va : Word) : OnlyWalks s (s.prefetch r va) := by
  have hcheck := checkAccess_only s { s.whoOf r.team with va := va.toNat / 64 * 64 } (s.coreOf r.team) .load true true false
    (va.toNat / 64 * 64) 64
  unfold State.prefetch
  dsimp only
  split
  · next e =>
    rw [e] at hcheck
    split
    · exact hcheck
    · split
      · exact hcheck
      · exact hcheck.trans ⟨_, _, _, _, _, _, _, rfl⟩
  · exact .refl s

theorem foldl_prefetch_only (r : Run) (va : Nat → Word) (ns : List Nat) (s : State) :
    OnlyWalks s (ns.foldl (fun s n => s.prefetch r (va n)) s) := by
  induction ns generalizing s with
  | nil => exact .refl s
  | cons n ns ih => exact (prefetch_only s r _).trans (ih _)

/-- The lanes of a run whose PRF address is poisoned. -/
def poisonedAt (s : State) (r : Run) (a : Nat) : List Nat := r.lanes.filter (fun n => ((laneAt s r n).reg r.trap a).poison)

/-- The containment fault of a poisoned PRF address in lane n (R172, R221). -/
def prfFault (s : State) (r : Run) (a n : Nat) : LaneFault := ⟨n, 6, 2, ((laneAt s r n).reg r.trap a).val, [], 0⟩

/-- The faults of a PRF. -/
def prfFaults (s : State) (r : Run) (a : Nat) : List LaneFault :=
  r.lanes.filterMap (fun n => if ((laneAt s r n).reg r.trap a).poison then some (prfFault s r a n) else none)

theorem prfFaults_eq (s : State) (r : Run) (a : Nat) : prfFaults s r a = (poisonedAt s r a).map (prfFault s r a) := by
  unfold prfFaults poisonedAt
  induction r.lanes with
  | nil => rfl
  | cons n ns ih => by_cases hn : ((laneAt s r n).reg r.trap a).poison = true <;> simp [hn, ih]

/-- PRF traps where it has faults, and otherwise completes after its prefetches. -/
theorem prfOp_of_issues {s s1 : State} {r : Run} {a : Nat} (l1 : Bool) (h : LaneIssues s [a] r s1) :
    prfOp s a l1 =
      if (prfFaults s1 r a).isEmpty then
        finishLanes (if l1 then r.lanes.foldl (fun s n => s.prefetch r ((laneAt s1 r n).reg r.trap a).val) s1 else s1) r 4
          (fun _ _ => {})
      else .next (laneTrap s1 r r.pc (prfFaults s1 r a)) := by
  refine (onRunRegs_of_issues h _).trans ?_
  change (if !(prfFaults s1 r a).isEmpty then _ else _) = _
  cases (prfFaults s1 r a).isEmpty <;> rfl

theorem prfOp_unpoisoned {s s1 : State} {r : Run} {a : Nat} (l1 : Bool) (h : LaneIssues s [a] r s1)
    (hp : ∀ n ∈ r.lanes, ((laneAt s1 r n).reg r.trap a).poison = false) :
    prfOp s a l1 = finishLanes (if l1 then r.lanes.foldl (fun s n => s.prefetch r ((laneAt s1 r n).reg r.trap a).val) s1 else s1) r 4
      (fun _ _ => {}) := by
  have hnone : poisonedAt s1 r a = [] := by simpa [poisonedAt] using hp
  rw [prfOp_of_issues l1 h, prfFaults_eq, hnone, List.map_nil, if_pos List.isEmpty_nil]

/-- A handled trap of PRF: the lanes with a poisoned address record it, and the others nothing. -/
theorem prfOp_poisoned {s s1 : State} {r : Run} {a : Nat} (l1 : Bool) (h : LaneIssues s [a] r s1)
    (hp : ∃ n ∈ r.lanes, ((laneAt s1 r n).reg r.trap a).poison = true) (hh : Handled s1 r) :
    ∃ t, prfOp s a l1 = .next t ∧ TrapEntered s1 t r r.pc
      (fun n => if ((laneAt s1 r n).reg r.trap a).poison then 0x0602 else 0)
      (fun n => if ((laneAt s1 r n).reg r.trap a).poison then ((laneAt s1 r n).reg r.trap a).val else 0) := by
  have hsome : ¬ (prfFaults s1 r a).isEmpty = true := by
    obtain ⟨n, hn, hbad⟩ := hp
    simpa [prfFaults] using ⟨n, hn, hbad⟩
  have htrap := laneTrap_handled hh r.pc ((poisonedAt s1 r a).map (prfFault s1 r a)) (by simp [prfFault])
  refine ⟨_, by rw [prfOp_of_issues l1 h, if_neg hsome, prfFaults_eq], htrap.1, fun n hn => ?_⟩
  refine (htrap.2 n hn).trans ?_
  have hmem : n ∈ poisonedAt s1 r a ↔ ((laneAt s1 r n).reg r.trap a).poison = true := by simp [poisonedAt, hn]
  simp only [lowestFault_map _ (prfFault s1 r a) (fun _ => rfl), hmem]
  by_cases hbad : ((laneAt s1 r n).reg r.trap a).poison = true <;> simp [hbad, prfFault]

/-! ## PFI (R129, R334) -/

@[simp] theorem State.enqueue_teams (s : State) (dst : Nat) (b : FlitBody) : (s.enqueue dst b).teams = s.teams := by
  unfold State.enqueue
  refine b.flits.foldlRecOn (motive := fun t : State => t.teams = s.teams) _ rfl fun t h x _ => ?_
  dsimp only
  split <;> exact h

@[simp] theorem State.askRemote_teams (s : State) (w : Who) (ps : List (Loc × Nat)) : (s.askRemote w ps).teams = s.teams := by
  unfold State.askRemote
  refine ps.foldlRecOn (motive := fun t : State => t.teams = s.teams) _ rfl fun t h x _ => ?_
  split
  · unfold State.forward
    split
    · exact (State.enqueue_teams ..).trans h
    · exact h
  · exact h

@[simp] theorem State.askWalk_teams (s : State) (asid : Nat) (b : Block) : (s.askWalk asid b).teams = s.teams := by
  unfold State.askWalk
  split
  · exact State.askRemote_teams ..
  · rfl

/-- What a wait sets going leaves the teams: a regeneration's team is placed later (R330). -/
@[simp] theorem State.startWait_teams (s : State) (g : Grid) (p : PageWait) : (s.startWait g p).teams = s.teams := by
  unfold State.startWait
  split
  · unfold State.startRegen
    split
    · exact State.askWalk_teams ..
    · exact (afterRegen_only ..).teams
    · rfl
  · exact State.askWalk_teams ..

@[simp] theorem State.putCode_teams (s : State) (core pl data : Nat) : (s.putCode core pl data).teams = s.teams := by
  unfold State.putCode
  dsimp only
  split <;> rfl

@[simp] theorem State.detectAt_teams (s : State) (w : Who) (l : Loc) : (s.detectAt w l).teams = s.teams := (detectAt_only ..).teams

@[simp] theorem State.failHost_teams (s : State) (l : Loc) (e : BridgeError) : (s.failHost l e).teams = s.teams :=
  (failHost_only ..).teams

@[simp] theorem State.dropForward_teams (s : State) (tag : Nat) : (s.dropForward tag).teams = s.teams := rfl

@[simp] theorem State.fillLine_teams (s : State) (core asid vl pl : Nat) : (s.fillLine core asid vl pl).2.teams = s.teams := by
  unfold State.fillLine
  dsimp only
  repeat' split
  all_goals simp

theorem teams_of_eq_pair {α : Type} {p : α × State} {x : α} {t : State} (e : p = (x, t)) : t.teams = p.2.teams := by rw [e]

@[simp] theorem State.prefetchCode_teams (s : State) (tk va : Nat) : (s.prefetchCode tk va).teams = s.teams := by
  unfold State.prefetchCode
  split
  · rfl
  · split
    · next e =>
      have htr := (teams_of_eq_pair e).trans (translate_only ..).teams
      split
      · exact htr
      · exact htr
      · split
        · exact htr
        · split <;> next e' => simp [teams_of_eq_pair e', htr]
    · rfl

end Sys2Proof.Machine

open Sys2Proof.Machine

/-- Settles O14: each of these instructions completes as one that writes nothing (finishLanes_nothing), a fence waits where one of
its lanes has an access under way (exec_fence), and PRF traps on a poisoned address (prfOp_poisoned). -/
theorem advancingLaneInstructions : Obligations.AdvancingLaneInstructions := by
  unfold Obligations.AdvancingLaneInstructions
  refine ⟨?advance, ?wait, ?prefetch, ?poisoned, ?code⟩
  case advance =>
    intro i s s1 r hi h
    obtain ⟨t, ht, hlanes⟩ := finishLanes_nothing s1 r
    refine ⟨t, ?_, hlanes⟩
    rcases hi with rfl | rfl | ⟨hfence, hdone⟩
    · exact (onRunRegs_of_issues ⟨h, rfl⟩ _).trans ht
    · exact (onRunRegs_of_issues ⟨h, rfl⟩ _).trans ht
    · rw [exec_fence hfence h, if_pos ((s1.unblocked_fence _ _).2 hdone), ht]
  case wait =>
    intro i s s1 r hi h hbusy
    obtain ⟨x, hx, n, hn, howner⟩ := hbusy
    have hwait : ¬ s1.unblocked (.fence r.team r.lanes) = true := fun hfree => (s1.unblocked_fence _ _).1 hfree x hx n hn howner
    exact ⟨_, by rw [exec_fence hi h, if_neg hwait], blockLanes_become ..⟩
  case prefetch =>
    intro a s s1 r h hp
    refine ⟨?_, ?_⟩
    · obtain ⟨t, ht, hlanes⟩ := finishLanes_nothing s1 r
      exact ⟨t, (prfOp_unpoisoned false h hp).trans ht, hlanes⟩
    · have honly := foldl_prefetch_only r (fun n => ((laneAt s1 r n).reg r.trap a.toNat).val) r.lanes s1
      obtain ⟨t, ht, hlanes⟩ := finishLanes_nothing_after r honly.mem honly.teams
      exact ⟨t, (prfOp_unpoisoned true h hp).trans ht, hlanes⟩
  case poisoned =>
    intro a i s s1 r hi h hp hh
    rcases hi with rfl | rfl
    · exact prfOp_poisoned false h hp hh
    · exact prfOp_poisoned true h hp hh
  case code =>
    intro o s s1 r h
    obtain ⟨t, ht, hlanes⟩ := finishLanes_nothing_after r (State.prefetchCode_mem s1 r.team _) (State.prefetchCode_teams s1 r.team _)
    exact ⟨t, (onRun_of_issuing h _).trans ht, hlanes⟩

end

section
/-! SUPPORT. The lane memory instructions as one operation over their requests, and a lane trap with page records. -/

namespace Sys2Proof.Machine

/-! ## Lane memory instructions (R169, R206, R208) -/

/-- The instruction runs the memory operation of its form: its requests are checked under its kind. -/
def RunsMem (i : Instr) (f : MemForm) (s s1 : State) (r : Run) : Prop :=
  ∃ fin acc, exec i s = runMem s1 r f.kind (r.lanes.map (fun n => f.req (laneAt s1 r n) r.trap n)) fin acc

/-- The scaled offset of LD and ST is the same sum in either writing (R206). -/
theorem scaledOffset (o : BitVec 12) (size : Nat) : o.signExtend 64 * BitVec.ofNat 64 size = BitVec.ofInt 64 (o.toInt * size) := by
  rw [BitVec.ofInt_mul, BitVec.signExtend, BitVec.ofInt_natCast]

theorem lmReqs_eq (s : State) (r : Run) (o : BitVec 12) (b size : Nat) :
    lmReqs s r o b size = r.lanes.map (fun n =>
      { lane := n, va := lmAddr (laneAt s r n) r.trap o b size, size := size, az := ((laneAt s r n).reg r.trap b).poison }) := by
  simp only [lmReqs, lmAddr, laneAt, scaledOffset]

theorem runsMem_of_issues {i : Instr} {f : MemForm} {s s1 : State} {r : Run} {qs : Run → State → List LaneReq}
    {fin : Run → State → Nat → Lane → Lane} {acc : Run → State → LaneReq → List (Loc × Nat) → List Access}
    (hi : exec i s = onRunRegs s f.fields (fun r s => runMem s r f.kind (qs r s) (fin r s) (acc r s)))
    (hqs : qs r s1 = r.lanes.map (fun n => f.req (laneAt s1 r n) r.trap n)) (h : LaneIssues s f.fields r s1) : RunsMem i f s s1 r :=
  ⟨_, _, by rw [hi, onRunRegs_of_issues h, hqs]⟩

theorem runsMem_load {i : Instr} {f : MemForm} {s s1 : State} {r : Run} {o : BitVec 12} {b first size : Nat}
    (hi : exec i s = loadOp s o b first size) (hf : loadForm o b first size = some f) (h : LaneIssues s f.fields r s1) :
    RunsMem i f s s1 r := by
  obtain rfl := Option.some.inj hf
  exact runsMem_of_issues hi (lmReqs_eq ..) h

theorem runsMem_store {i : Instr} {f : MemForm} {s s1 : State} {r : Run} {o : BitVec 12} {b first size : Nat}
    (hi : exec i s = storeOp s o b first size) (hf : storeForm o b first size = some f) (h : LaneIssues s f.fields r s1) :
    RunsMem i f s s1 r := by
  obtain rfl := Option.some.inj hf
  exact runsMem_of_issues hi (lmReqs_eq ..) h

theorem enterReq_eq {n : BitVec 6} {f : MemForm} (hf : memForm (.enter n) = some f) (l : Lane) (trap : Bool) (k : Nat) :
    enterReq l trap k n.toNat = f.req l trap k := by
  obtain rfl := Option.some.inj hf
  have hn : n = 0 ↔ n.toNat = 0 := by bv_omega
  simp only [enterReq, hn, Bool.or_eq_true, Bool.and_eq_true, decide_eq_true_eq, Nat.one_le_iff_ne_zero, ne_eq]

theorem leaveReq_eq {n : BitVec 6} {f : MemForm} (hf : memForm (.leave n) = some f) (l : Lane) (trap : Bool) (k : Nat) :
    leaveReq l trap k n.toNat = f.req l trap k := by
  obtain rfl := Option.some.inj hf
  have hn : n = 0 ↔ n.toNat = 0 := by bv_omega
  simp only [leaveReq, hn]

/-- Every lane memory instruction of the table runs the operation of its form. -/
theorem runsMem_of_memForm {i : Instr} {f : MemForm} {s s1 : State} {r : Run} (hf : memForm i = some f)
    (h : LaneIssues s f.fields r s1) : RunsMem i f s s1 r := by
  cases i
  case ld8 => exact runsMem_load rfl hf h
  case ld16 => exact runsMem_load rfl hf h
  case ld32 => exact runsMem_load rfl hf h
  case ld64 => exact runsMem_load rfl hf h
  case ldv128 => exact runsMem_load (by rw [exec_ldv128, execLdv128, Nat.mul_comm]) hf h
  case ldv256 => exact runsMem_load (by rw [exec_ldv256, execLdv256, Nat.mul_comm]) hf h
  case ldv512 => exact runsMem_load (by rw [exec_ldv512, execLdv512, Nat.mul_comm]) hf h
  case st8 => exact runsMem_store rfl hf h
  case st16 => exact runsMem_store rfl hf h
  case st32 => exact runsMem_store rfl hf h
  case st64 => exact runsMem_store rfl hf h
  case stv128 => exact runsMem_store (by rw [exec_stv128, execStv128, Nat.mul_comm]) hf h
  case stv256 => exact runsMem_store (by rw [exec_stv256, execStv256, Nat.mul_comm]) hf h
  case stv512 => exact runsMem_store (by rw [exec_stv512, execStv512, Nat.mul_comm]) hf h
  case atom u v t o b a d =>
    obtain rfl := Option.some.inj hf
    have hop : (o.toNat = 0 ∨ o.toNat = 6 ∨ o.toNat = 7) ↔ (o = 0 ∨ o = 6 ∨ o = 7) := by bv_omega
    exact runsMem_of_issues rfl (congrArg (atomReqs s1 r a.toNat t.toNat) (decide_eq_decide.2 (and_congr_right fun _ => hop))) h
  case enter n =>
    have hreq := enterReq_eq hf
    obtain rfl := Option.some.inj hf
    exact runsMem_of_issues rfl (List.map_congr_left fun k _ => hreq _ _ k) h
  case leave n =>
    have hreq := leaveReq_eq hf
    obtain rfl := Option.some.inj hf
    exact runsMem_of_issues rfl (List.map_congr_left fun k _ => hreq _ _ k) h
  all_goals cases hf

/-! ## Failed checks (R203, R204) -/

theorem reqFaults_ne_nil (k : AccKind) {y : LaneReq × Checked} (h : y.1.pre ≠ none ∨ y.1.az = true ∨ ∃ e, y.2 = .fail e) :
    reqFaults k y ≠ [] := by
  unfold reqFaults
  rcases h with hpre | haz | ⟨e, he⟩
  · obtain ⟨⟨c, d, a⟩, hx⟩ := Option.ne_none_iff_exists'.1 hpre
    simp [hx]
  · simp [haz]
  · simp [he]

/-- A memory operation with a fault in some lane traps in all of them and makes no access. -/
theorem runMem_of_faults {s s2 : State} {r : Run} {k : AccKind} {qs : List LaneReq} {fin : Nat → Lane → Lane}
    {acc : LaneReq → List (Loc × Nat) → List Access} {xs : List (LaneReq × Checked)} (hcheck : s.checkReqs r k qs = (xs, s2))
    (hfail : ∃ y ∈ xs, y.1.pre ≠ none ∨ y.1.az = true ∨ ∃ e, y.2 = .fail e) :
    runMem s r k qs fin acc = .next (laneTrap s2 r r.pc (xs.flatMap (reqFaults k))) := by
  obtain ⟨y, hy, hbad⟩ := hfail
  have hne : (xs.flatMap (reqFaults k)).isEmpty = false :=
    List.isEmpty_eq_false_iff.2 fun h => reqFaults_ne_nil k hbad (List.flatMap_eq_nil_iff.1 h y hy)
  simp only [runMem, hcheck, hne, Bool.not_false, if_true]

/-! ## A lane trap with page records (R171, R172, R205) -/

/-- %lcause and %laddr of a lane with its fault, or with none. -/
def faultCause (f : Option LaneFault) : Word := match f with
  | some f => BitVec.ofNat 64 (f.cls * 256 + f.code)
  | none => 0
def faultAddr (f : Option LaneFault) : Word := match f with
  | some f => f.addr
  | none => 0

/-- Lane n of a run after a handled trap of its grid. -/
def Lane.trapped (l : Lane) (g : Grid) (epc : Word) (fs : List LaneFault) (n : Nat) : Lane :=
  let recs := pageRecords g.launch.width (n / g.launch.width) fs
  { l with
    lcause := faultCause (lowestFault fs n), lepc := epc, laddr := faultAddr (lowestFault fs n)
    lnrec := BitVec.ofNat 8 (Nat.min recs.length 128), lprec := wordMap (recs.take 32) 0
    trap := true, h := [], pc := g.rcd.lvec }

theorem laneTrap_eq {s : State} {r : Run} (h : Handled s r) (epc : Word) (fs : List LaneFault) :
    laneTrap s r epc fs = s.setTeam r.team
      (r.lanes.foldl (fun t n => t.setLane n ((t.lane n).trapped (s.gridOf r.team) epc fs n)) (s.team r.team)) := by
  obtain ⟨ht, hv⟩ := h
  have hu : (decide ((s.gridOf r.team).rcd.lvec = 0) || r.trap) = false := by rw [ht, decide_eq_false hv]; rfl
  unfold laneTrap
  simp only [hu, Bool.false_eq_true, if_false]
  rfl

/-- A handled trap changes the lanes of its run alone. -/
theorem laneTrap_become {s : State} {r : Run} (h : Handled s r) (epc : Word) (fs : List LaneFault) :
    LanesBecome s (laneTrap s r epc fs) r (fun n l => l.trapped (s.gridOf r.team) epc fs n) := by
  obtain ⟨hlane, hrest⟩ := foldl_setLane (fun n l => l.trapped (s.gridOf r.team) epc fs n) (fun _ _ => rfl) r.lanes (s.team r.team)
  rw [laneTrap_eq h]
  refine ⟨⟨rfl, fun k hk => by simp [hk], ?_, fun n hn => ?_⟩, fun n hn => ?_⟩
  · simpa using hrest
  · simpa [hn] using hlane n
  · simpa [laneAt, hn] using hlane n

theorem OnlyWalks.team {s t : State} (h : OnlyWalks s t) (k : Nat) : t.team k = s.team k := by rw [State.team, h.teams, State.team]

theorem OnlyWalks.gridOf {s t : State} (h : OnlyWalks s t) (k : Nat) : t.gridOf k = s.gridOf k := by
  rw [State.gridOf, State.grid, h.grids, State.gridOf, State.grid]

end Sys2Proof.Machine

open Sys2Proof.Machine

/-- Settles O19: the instruction runs its memory operation (runsMem_of_memForm), which traps where a check fails (runMem_of_faults);
the checks change no lane and no byte (checkReqs_only), and laneTrap_become says what the trap leaves. -/
theorem memoryFaultsPrecedeAccesses : Obligations.MemoryFaultsPrecedeAccesses := by
  unfold Obligations.MemoryFaultsPrecedeAccesses
  intro i f s s1 s2 r xs hf h hcheck hfail hh fs
  have honly := checkReqs_only r f.kind (r.lanes.map (fun n => f.req (laneAt s1 r n) r.trap n)) s1
  rw [hcheck] at honly
  obtain ⟨fin, acc, hrun⟩ := runsMem_of_memForm hf h
  have hh2 : Handled s2 r := ⟨hh.1, by rw [honly.gridOf]; exact hh.2⟩
  obtain ⟨⟨hrest, hothers, -, hidle⟩, hlanes⟩ := laneTrap_become hh2 r.pc fs
  refine ⟨_, hrun.trans (runMem_of_faults hcheck hfail), ?_, fun k hk => (hothers k hk).trans (honly.team k), fun n => ?_⟩
  · rw [hrest]; exact honly.mem
  · have hlane : laneAt s2 r n = laneAt s1 r n := by rw [laneAt, honly.team, laneAt]
    by_cases hn : n ∈ r.lanes
    · have htrap := hlanes n hn
      rw [hlane, honly.gridOf] at htrap
      have hrecs : Nat.min (pageRecords (s1.gridOf r.team).launch.width (n / (s1.gridOf r.team).launch.width) fs).length 128 < 256 :=
        Nat.lt_of_le_of_lt (Nat.min_le_right ..) (by decide)
      rw [htrap]
      refine ⟨rfl, rfl, rfl, rfl, fun _ => ⟨rfl, rfl, rfl, ?_, ?_⟩⟩
      · simp only [Lane.trapped]
        cases lowestFault fs n <;> exact ⟨rfl, rfl⟩
      · exact Nat.mod_eq_of_lt hrecs
    · have hsame : laneAt (laneTrap s2 r r.pc fs) r n = laneAt s1 r n := (hidle n hn).trans hlane
      rw [hsame]
      exact ⟨rfl, rfl, rfl, rfl, fun hmem => absurd hmem hn⟩

end

section
/-! SUPPORT. A load's piece that crosses a line. -/

open Sys2Proof.Machine

/-- Refutes O20, in its clause on the last piece of a load: a piece takes the poison of the line of its first byte alone, and the
clause is said of every piece within a page, though the pieces of an instruction cross no line (R202: pieces cuts an access at its
granules). The state: line 1 of a bank poisoned, line 0 not; a load of eight bytes in one piece from offset 60 of the bank, which
reads four bytes of each. Its register is not poisoned. -/
theorem not_laneLoadsRead : ¬ Obligations.LaneLoadsRead := by
  unfold Obligations.LaneLoadsRead
  rintro ⟨hload, -⟩
  obtain ⟨-, hlast⟩ := hload
    { State.reset with lines := [((spadKey 0 0 64) / 64, { poison := true })] } 0 0 0 0 0
    (.spad 0 0 60) 8 8 1 (spadKey 0 0 60) 0 [] false []
    ⟨rfl, by decide, by decide, by decide, rfl, by decide, by decide⟩ (fun _ => rfl) (by decide)
  obtain ⟨t, hdone, -, -, -, hregs⟩ := hlast rfl
  have hreg := (hregs 1).trans (if_pos (by decide))
  rw [← PieceOut.done.inj hdone] at hreg
  exact absurd (congrArg VReg.poison hreg) (by decide)

end

section
/-! SUPPORT. Cross-lane instructions that write one register: what completing one leaves, what a packed register and a mask of lanes
are as sums, and each instruction of the tables as the form it writes. -/

namespace Sys2Proof.Machine

/-! ## Completing an instruction that writes the register of its form -/

/-- What an instruction of a register form writes in lane n: the form's register and flags, from the state before it. -/
def RegForm.out (f : RegForm) (s : State) (r : Run) (n : Nat) : LaneOut :=
  { regs := [(f.d, f.val s r n)], flags := f.flags s r n }

/-- The instruction completes with what its form writes. -/
def CompletesForm (i : Instr) (f : RegForm) (s s1 : State) (r : Run) : Prop :=
  f.d < 64 ∧ exec i s = finishLanes s1 r f.len (fun n _ => f.out s1 r n)

/-- What such an instruction leaves: its frame, and the result of its form in each lane. -/
theorem CompletesForm.result {i : Instr} {f : RegForm} {s s1 : State} {r : Run} (h : CompletesForm i f s s1 r) :
    ∃ t, exec i s = .next t ∧ LaneFrame s1 t r f.len [f.d] [] ∧ ∀ n ∈ r.lanes, RegResult f s1 r n (laneAt t r n) := by
  obtain ⟨hd, hexec⟩ := h
  rw [hexec]
  exact finishLanes_one_reg s1 r f.len hd (fun n _ => f.val s1 r n) (fun n _ => f.flags s1 r n)

/-- Where register fields all stand below the cap, any of them do. -/
theorem LaneIssues.of_subset {s s1 : State} {r : Run} {fs gs : List Nat} (h : LaneIssues s fs r s1) (hsub : gs ⊆ fs) :
    LaneIssues s gs r s1 := by
  obtain ⟨hissue, hcap⟩ := h
  rw [List.any_eq_false] at hcap
  exact ⟨hissue, List.any_eq_false.2 fun k hk => hcap k (hsub hk)⟩

/-- A cross-lane instruction completes with a form whose output it computes for each lane, every lane read as it stood before the
instruction (R193). -/
theorem completesForm_of_crossOp {i : Instr} {f : RegForm} {s s1 : State} {r : Run} {fields : List Nat}
    {g : Run → Nat → Team → Nat → Lane → LaneOut} (h : LaneIssues s fields r s1) (hi : exec i s = crossOp s fields g)
    (hlen : f.len = 4) (hd : f.d < 64)
    (hg : ∀ n, g r (s1.gridOf r.team).launch.width (s1.team r.team) n (laneAt s1 r n) = f.out s1 r n) :
    CompletesForm i f s s1 r := by
  refine ⟨hd, ?_⟩
  calc exec i s
    _ = finishLanes s1 r 4 (fun n l => g r (s1.gridOf r.team).launch.width (s1.team r.team) n l) :=
      hi.trans (onRunRegs_of_issues h _)
    _ = finishLanes s1 r 4 (fun n _ => g r (s1.gridOf r.team).launch.width (s1.team r.team) n (laneAt s1 r n)) := rfl
    _ = finishLanes s1 r f.len (fun n _ => f.out s1 r n) := by simp only [hlen, hg]

/-! ## Shuffles (R194) -/

/-- A register packed from elements that raise no flag is the sum of the elements at their places. -/
theorem packElems_noFlag (w n : Nat) (f : Nat → Nat) :
    (packElems w n (fun e => noFlag (f e))).1 = ((List.range n).map (fun e => f e % 2 ^ w * 2 ^ (e * w))).sum := by
  induction n with
  | zero => rfl
  | succ n ih =>
    rw [List.range_succ, List.map_append, List.sum_append, ← ih]
    simp [packElems, noFlag]

theorem subElem_mod (v : Word) (i w : Nat) : subElem v i w % 2 ^ w = subElem v i w := Nat.mod_mod ..

/-- A shuffle completes with its form when its sources depend on the lane's number in its group and on one register of the lane. -/
theorem completesForm_shuffle {i : Instr} {f : RegForm} {s s1 : State} {r : Run} {w d a b : Nat} {byReg : Bool}
    {src : Nat → Nat → Word → Nat × Nat} (hf : shuffleForm w d a b byReg src = some f)
    (hi : exec i s = shuffle s w d a (bif byReg then [b] else []) (fun r l m e => src m e (l.reg r.trap b).val)) (hd : d < 64)
    (h : LaneIssues s f.fields r s1) : CompletesForm i f s s1 r := by
  obtain rfl := Option.some.inj hf
  have hsub : d :: a :: (bif byReg then [b] else []) ⊆ [d, a, b] := by cases byReg <;> simp
  have hpoison : ∀ p : Nat → Bool, (bif byReg then [b] else []).any p = (byReg && p b) := by cases byReg <;> simp
  refine completesForm_of_crossOp (h.of_subset hsub) hi rfl hd fun n => ?_
  simp only [packElems_noFlag, subElem_mod, hpoison]
  rfl

/-- Every shuffle completes with its form. -/
theorem completesForm_of_shufflesForm {i : Instr} {f : RegForm} {s s1 : State} {r : Run} (hf : shufflesForm i = some f)
    (h : LaneIssues s f.fields r s1) : CompletesForm i f s s1 r := by
  unfold shufflesForm at hf
  split at hf
  case h_1 _ u v w b a d => exact completesForm_shuffle hf (exec_shfl s u v w b a d) d.isLt h
  case h_2 _ u v w b a d => exact completesForm_shuffle hf (exec_shflx s u v w b a d) d.isLt h
  case h_3 _ u v w b a d => exact completesForm_shuffle hf (exec_shflu s u v w b a d) d.isLt h
  case h_4 _ u v w b a d => exact completesForm_shuffle hf (exec_shfld s u v w b a d) d.isLt h
  case h_5 _ w l q a d => exact completesForm_shuffle hf (exec_xiShfl s w l q a d) d.isLt h
  case h_6 _ w l a d => exact completesForm_shuffle hf (exec_xiShflx s w l a d) d.isLt h
  case h_7 _ w l a d => exact completesForm_shuffle hf (exec_xiShflu s w l a d) d.isLt h
  case h_8 _ w l a d => exact completesForm_shuffle hf (exec_xiShfld s w l a d) d.isLt h
  case h_9 => cases hf

/-! ## Ballot, match, reductions and scans (R195 to R197) -/

/-- Adding up the bits of the lanes that satisfy p, one lane after another, gives the mask of those lanes. -/
theorem foldl_laneBits (s : State) (r : Run) (p : Nat → Bool) (ns : List Nat) :
    BitVec.ofNat 64 (ns.foldl (fun k m => if p m then k + 2 ^ (m % (s.gridOf r.team).launch.width) else k) 0) =
      laneMask s r (ns.filter p) := by
  rw [laneMask, List.sum_eq_foldl, List.foldl_map, List.foldl_filter]

/-- Ballot, match, reduction and scan each complete with their form. -/
theorem completesForm_of_gatherForm {i : Instr} {f : RegForm} {s s1 : State} {r : Run} (hf : gatherForm i = some f)
    (h : LaneIssues s f.fields r s1) : CompletesForm i f s s1 r := by
  unfold gatherForm at hf
  split at hf
  case h_1 _ u v q d =>
    obtain rfl := Option.some.inj hf
    refine completesForm_of_crossOp h (exec_voteBallot s u v q d) rfl d.isLt fun n => ?_
    simp only [foldl_laneBits]
    rfl
  case h_2 _ u v w b a d =>
    obtain rfl := Option.some.inj hf
    refine completesForm_of_crossOp h (exec_matchLanes s u v w b a d) rfl d.isLt fun n => ?_
    simp only [foldl_laneBits]
    rfl
  case h_3 _ u v o t a d =>
    obtain rfl := Option.some.inj hf
    exact completesForm_of_crossOp h (exec_rdc s u v o t a d) rfl d.isLt fun _ => rfl
  case h_4 _ u v o t a d =>
    obtain rfl := Option.some.inj hf
    exact completesForm_of_crossOp h (exec_scan s u v o t a d) rfl d.isLt fun _ => rfl
  case h_5 => cases hf

end Sys2Proof.Machine

open Sys2Proof.Machine

/-- Settles O12: every shuffle, and ballot, match, reduction and scan, completes with its form (completesForm_of_shufflesForm,
completesForm_of_gatherForm), and CompletesForm.result says what that leaves. -/
theorem lanesReadEachOther : Obligations.LanesReadEachOther := by
  unfold Obligations.LanesReadEachOther
  refine ⟨?shuffles, ?gathers⟩
  case shuffles =>
    intro i f s s1 r hf h
    exact (completesForm_of_shufflesForm hf h).result
  case gathers =>
    intro i f s s1 r hf h
    exact (completesForm_of_gatherForm hf h).result

end
